-- ==== Sys2Proof/Word.lean ====
section
/-! DEFINITION. The plain types of the machine: bytes, words, lane masks and sparse tables. -/

namespace Sys2Proof

/-- One byte (R2). -/
abbrev Byte := BitVec 8

/-- A 32-bit register or instruction word (R2, R57). -/
abbrev Word := BitVec 32

/-- A 64-bit scalar register, CSR or quadword (R2). -/
abbrev DWord := BitVec 64

/-- One bit for each of the at most 1 024 lanes of a team (R13, R15). -/
abbrev Lanes := BitVec 1024

/-- One 64-byte flit of a rein channel or of the fabric (R173, R347). -/
abbrev Flit := BitVec 512

/-- One 128-byte line of L2 (R366); byte i is bits 8i+7:8i. -/
abbrev LineData := BitVec 1024

/-- A sparse table: entries by strictly rising key; a key that is not listed has no entry. -/
abbrev Tab (α : Type) := List (Nat × α)

end Sys2Proof
end

