-- ==== Sys2Proof/Syntax.lean ====
section
/-! DEFINITION. The instructions of the machine: one constructor for each row of the opcode table. The first group are the
instructions of a team (R57 to R83), the second those of the coachman (R84), the third the steps of the other agents, whose
constructors carry what the step acts on. Operand fields are numbers; `WellFormed` bounds them to what an encoding admits. -/

namespace Sys2Proof

/-- Form A with three vector operands: D, A, B, guard G and type T (R65, R66). -/
structure V3 where
  d : Nat
  a : Nat
  b : Nat
  g : Nat
  t : Nat
deriving DecidableEq, Repr

/-- Form A with two vector operands (R65). -/
structure V2 where
  d : Nat
  a : Nat
  g : Nat
  t : Nat
deriving DecidableEq, Repr

/-- Form M of a load: D, vector offset A (63 none), base S4, flag F, guard G (R65). -/
structure MOp where
  d : Nat
  a : Nat
  s : Nat
  f : Nat
  g : Nat
deriving DecidableEq, Repr

/-- Form M of a store, which takes no flag (R81). -/
structure MSt where
  d : Nat
  a : Nat
  s : Nat
  g : Nat
deriving DecidableEq, Repr

/-- An atomic: base S, vector offset V, flag, scope, data type KIND, order MODE, source CR, destination D, guard and
operation (R82). -/
structure AtOp where
  s : Nat
  v : Nat
  f : Nat
  scope : Nat
  kind : Nat
  mode : Nat
  cr : Nat
  d : Nat
  g : Nat
  op : Nat
deriving DecidableEq, Repr

/-- A reduce-add: an atomic with no flag and no destination (R82). -/
structure RedOp where
  s : Nat
  v : Nat
  scope : Nat
  kind : Nat
  mode : Nat
  cr : Nat
  g : Nat
  op : Nat
deriving DecidableEq, Repr

/-- Form E of a dray command: X, Y, flag and leader predicate (R65, R217). -/
structure DrOp where
  x : Nat
  y : Nat
  f : Nat
  g : Nat
deriving DecidableEq, Repr

/-- The fields MMA, MMAG and MMAT share (R245): accumulator, A and B regions, format, accumulator code
and MODE. -/
structure MmaOp where
  zd : Nat
  za : Nat
  zb : Nat
  fmt : Nat
  acc : Nat
  mode : Nat
deriving DecidableEq, Repr

/-- The operands of MSETZ: a region register and its value (R239). -/
structure RegZ where
  z : Nat
  space : Nat
  fmt : Nat
  nr : Nat
  nc : Nat
  rel : Nat
  base : Nat
  stride : Nat
deriving DecidableEq, Repr

/-- The header of a Geldy frame as it arrives at port `port` (R347); `rsv` holds its reserved bits. -/
structure FrameHdr where
  port : Nat
  part : Nat
  ctx : Nat
  dst : Nat
  src : Nat
  seq : Nat
  ackv : Bool
  ackseq : Nat
  tag : Nat
  rsv : Nat
deriving DecidableEq, Repr

/-- What a REQ frame asks of the peer (R349): a read, a write of some bytes, an atomic on lanes, a tile, or
a guard instruction (0 and 1 ACQ exclusive and shared, 2 and 3 the REL of each, 4 TETH, 5 UNTE, with a region, 6 the request
base withdrawn, in mode len). Addresses are
physical addresses in the peer; each lane of an atomic has its address, source and expected value, and a reduce-add in
deterministic mode names its source (R361). -/
inductive PeerOp where
  | read (pa n : Nat)
  | write (bytes : List (Nat × Nat))
  | atomic (op kind half : Nat) (lanes : List (Nat × Nat × Nat)) (det : Option Nat)
  | tileRead (rows : List (Nat × Nat))
  | tileWrite (rows : List (Nat × List Nat))
  | guardOp (kind pa a b : Nat)
deriving DecidableEq, Repr

/-- A REQ frame (R349): source core, request number (R348), the sender's own number of the access, and the access. -/
structure ReqFrame where
  hdr : FrameHdr
  core : Nat
  num : Nat
  ref : Nat
  op : PeerOp
deriving DecidableEq, Repr

/-- An RSP frame (R349): the access it answers, status (0 done, 1 refused, 2 poison, 3 failed check, else a cause code) and the bytes or old
values. -/
structure RspFrame where
  hdr : FrameHdr
  ref : Nat
  status : Nat
  data : List Nat
deriving DecidableEq, Repr

/-- A FWD frame (R352, R353): the close mark, the reserved bits 511:129, and the records' bytes. -/
structure FwdFrame where
  hdr : FrameHdr
  close : Bool
  rsvHi : Nat
  recs : List (List Nat)
deriving DecidableEq, Repr

/-- A SUM frame: 64 backlogs in entry-index order (R351). -/
structure SumFrame where
  hdr : FrameHdr
  backlogs : List Nat
deriving DecidableEq, Repr

/-- An MCD frame (R356): sender core and block slot, group, target mask (first frame), its bytes, and whether it is the last. -/
structure McdFrame where
  hdr : FrameHdr
  core : Nat
  bslot : Nat
  gid : Nat
  mask : Nat
  data : List Nat
  last : Bool
deriving DecidableEq, Repr

/-- An MCR frame (R356): the sender's core and block slot, ticket (TAG), and the three masks. -/
structure McrFrame where
  hdr : FrameHdr
  core : Nat
  bslot : Nat
  ack : Nat
  refuse : Nat
  neg : Nat
deriving DecidableEq, Repr

/-- A COL frame (R359): group, collective id, rank of the origin, shard, and the origin's contributions, one array each. -/
structure ColFrame where
  hdr : FrameHdr
  gid : Nat
  collid : Nat
  rank : Nat
  shard : Nat
  arrays : List (List Nat)
deriving DecidableEq, Repr

/-- An inbound RDMA operation (R364): partition, queue pair, key, address, length, bytes, the two operands of
FETCH_ADD and CMP_SWAP, and the packet sequence number. -/
structure Rdma where
  part : Nat
  qp : Nat
  rkey : Nat
  addr : Nat
  len : Nat
  data : List Nat
  x : Nat
  y : Nat
  psn : Nat
deriving DecidableEq, Repr

/-- A command packet of work queue q: FLG, ARG, LEN and the quadwords after the header (R334). -/
structure Pkt where
  q : Nat
  flg : Nat
  arg : Nat
  len : Nat
  qw : List Nat
deriving DecidableEq, Repr

/-- A management request of a partition's management queue pair (R345). `odd` is the OP of a request whose quadword 0 is malformed, with an
OP that no table names or with other bits set: it may stand in any row. -/
structure Mgmt where
  part : Nat
  odd : Option Nat
  tag : Nat
  q1 : Nat
  q2 : Nat
  q3 : Nat
  q4 : Nat
  q5 : Nat
  q6 : Nat
  q7 : Nat
deriving DecidableEq, Repr

/-- An error event (R393): code, instance, address, partition (15 the package) and context (63 none). -/
structure RasEv where
  code : Nat
  inst : Nat
  addr : Nat
  part : Nat
  ctx : Nat
deriving DecidableEq, Repr

/-- An inbound connection request (R362, R379): partition, queue pair (256 the management queue pair) and the requester. -/
structure Conn where
  part : Nat
  qp : Nat
  mgid : Nat
  qpn : Nat
deriving DecidableEq, Repr

/-- One constructor for each row of the opcode table. -/
inductive Instr where
  /-- Scalar add of two scalars. (R86) -/
  | sadd (d : Nat) (a : Nat) (b : Nat)
  /-- Scalar subtract. (R86) -/
  | ssub (d : Nat) (a : Nat) (b : Nat)
  /-- Low 64 bits of a scalar product. (R86) -/
  | smul (d : Nat) (a : Nat) (b : Nat)
  /-- High 64 bits of the signed 128-bit scalar product. (R86) -/
  | smulh (d : Nat) (a : Nat) (b : Nat)
  /-- Scalar bitwise AND. (R86) -/
  | sand (d : Nat) (a : Nat) (b : Nat)
  /-- Scalar bitwise OR. (R86) -/
  | sor (d : Nat) (a : Nat) (b : Nat)
  /-- Scalar bitwise XOR. (R86) -/
  | sxor (d : Nat) (a : Nat) (b : Nat)
  /-- Scalar A AND NOT B. (R86) -/
  | sandn (d : Nat) (a : Nat) (b : Nat)
  /-- Scalar shift left. (R86) -/
  | sshl (d : Nat) (a : Nat) (b : Nat)
  /-- Scalar logical shift right. (R86) -/
  | sshr (d : Nat) (a : Nat) (b : Nat)
  /-- Scalar arithmetic shift right. (R86) -/
  | ssar (d : Nat) (a : Nat) (b : Nat)
  /-- Scalar signed minimum. (R86) -/
  | smin (d : Nat) (a : Nat) (b : Nat)
  /-- Scalar signed maximum. (R86) -/
  | smax (d : Nat) (a : Nat) (b : Nat)
  /-- Scalar unsigned minimum. (R86) -/
  | sminu (d : Nat) (a : Nat) (b : Nat)
  /-- Scalar unsigned maximum. (R86) -/
  | smaxu (d : Nat) (a : Nat) (b : Nat)
  /-- Counts leading zero bits of a scalar. (R87) -/
  | sclz (d : Nat) (a : Nat)
  /-- Counts one bits of a scalar. (R87) -/
  | spopc (d : Nat) (a : Nat)
  /-- Copies a scalar. (R87) -/
  | smov (d : Nat) (a : Nat)
  /-- Scalar multiply-add, long form. (R87) -/
  | smad (d : Nat) (a : Nat) (b : Nat) (r : Nat)
  /-- Scalar select on a scalar condition, long form. (R87) -/
  | ssel (d : Nat) (a : Nat) (b : Nat) (r : Nat)
  /-- Extracts a scalar bit field. (R87) -/
  | sbfx (d : Nat) (a : Nat) (p : Nat) (l : Nat)
  /-- Inserts a scalar bit field. (R87) -/
  | sbfi (d : Nat) (a : Nat) (p : Nat) (l : Nat)
  /-- Scalar compare writing 1 or 0. (R87) -/
  | scmp (d : Nat) (a : Nat) (b : Nat) (q : Nat)
  /-- Loads a sign-extended 12-bit immediate into a scalar. (R87) -/
  | sldi (d : Nat) (i : Nat)
  /-- Loads a 32-bit immediate with an XI extension. (R87) -/
  | sldiLong (d : Nat) (i : Nat)
  /-- Adds a sign-extended 12-bit immediate to a scalar. (R87) -/
  | saddi (d : Nat) (a : Nat) (i : Nat)
  /-- Adds a 32-bit immediate with an XI extension. (R87) -/
  | saddiLong (d : Nat) (a : Nat) (i : Nat)
  /-- Reads 64 bits of the code image as data. (R88) -/
  | sldl (d : Nat) (a : Nat) (i : Nat)
  /-- SLDL with a 32-bit XI offset. (R88) -/
  | sldlLong (d : Nat) (a : Nat) (i : Nat)
  /-- Reads a special register into a scalar or per-lane vector. (R89) -/
  | sget (d : Nat) (n : Nat)
  /-- Removes the oldest flit of a rein receive FIFO, sleeping while it is empty. (R175) -/
  | sgetRcv (d : Nat) (n : Nat)
  /-- Injects one flit into a rein send channel. (R174) -/
  | ssetSnd (a : Nat) (n : Nat)
  /-- Configures a rein send channel after its last flit is delivered. (R173) -/
  | ssetSndcfg (a : Nat) (n : Nat)
  /-- Clears lane words of sections whose bit is 0. (R91) -/
  | ssetMask (a : Nat)
  /-- Writes the rounding mode and trap enables. (R47) -/
  | ssetFpmode (a : Nat)
  /-- Writes the sticky arithmetic flags. (R46) -/
  | ssetFpflags (a : Nat)
  /-- Sets the team's issue cap. (R25) -/
  | ssetGreedy (a : Nat)
  /-- Unconditional relative branch. (R93) -/
  | bra (o : Nat)
  /-- Branch on a scalar test. (R93) -/
  | brc (r : Nat) (q : Nat) (o : Nat)
  /-- Branch on the hierarchical mask. (R93) -/
  | brm (q : Nat) (o : Nat)
  /-- Relative call that slides the register window and writes s63. (R95) -/
  | call (k : Nat) (o : Nat)
  /-- Indirect jump to a scalar code address. (R94) -/
  | jmp (a : Nat)
  /-- Indirect call with window slide. (R95) -/
  | callr (k : Nat) (a : Nat)
  /-- Indirect return lowering the window. (R96) -/
  | ret (k : Nat) (a : Nat)
  /-- Stalls until named flag counts are zero and delivers recorded faults. (R71) -/
  | wait (m : Nat)
  /-- Raises cause 56 carrying its immediate. (R101) -/
  | trap (i : Nat)
  /-- Raises cause 57 carrying its immediate. (R101) -/
  | brk (i : Nat)
  /-- Predicate AND. (R103) -/
  | pand (d : Nat) (a : Nat) (b : Nat)
  /-- Predicate OR. (R103) -/
  | por (d : Nat) (a : Nat) (b : Nat)
  /-- Predicate XOR. (R103) -/
  | pxor (d : Nat) (a : Nat) (b : Nat)
  /-- Predicate A AND NOT B. (R103) -/
  | pandn (d : Nat) (a : Nat) (b : Nat)
  /-- Predicate NOT. (R103) -/
  | pnot (d : Nat) (a : Nat)
  /-- Predicate copy. (R103) -/
  | pmov (d : Nat) (a : Nat)
  /-- Sets a predicate to a constant in Active lanes. (R103) -/
  | pseti (d : Nat) (v : Nat)
  /-- Writes 1 when some Active lane's predicate is true. (R104) -/
  | pany (d : Nat) (a : Nat)
  /-- Writes 1 when every Active lane's predicate is true. (R104) -/
  | pall (d : Nat) (a : Nat)
  /-- Counts Active lanes with the predicate true. (R104) -/
  | pcnt (d : Nat) (a : Nat)
  /-- Lowest Active lane with the predicate true. (R104) -/
  | pfirst (d : Nat) (a : Nat)
  /-- Pushes the mask and narrows it by a predicate. (R105) -/
  | mpush (a : Nat)
  /-- Writes the current mask to a predicate. (R105) -/
  | msave (d : Nat)
  /-- Loads the mask from a predicate. (R105) -/
  | mload (a : Nat)
  /-- Vector integer add. (R109) -/
  | vadd (o : V3)
  /-- Vector integer subtract. (R109) -/
  | vsub (o : V3)
  /-- Saturating vector add setting IOF. (R109) -/
  | vadds (o : V3)
  /-- Saturating vector subtract setting IOF. (R109) -/
  | vsubs (o : V3)
  /-- Low bits of the vector product. (R109) -/
  | vmul (o : V3)
  /-- High bits of the signed vector product. (R109) -/
  | vmulh (o : V3)
  /-- Vector integer multiply-add, long form. (R110) -/
  | vmad (o : V3) (r : Nat)
  /-- Packed integer dot product into I32, long form. (R110) -/
  | vdot4 (o : V3) (r : Nat) (sat : Bool)
  /-- Vector AND. (R109) -/
  | vand (o : V3)
  /-- Vector OR. (R109) -/
  | vor (o : V3)
  /-- Vector XOR. (R109) -/
  | vxor (o : V3)
  /-- Vector shift left. (R109) -/
  | vshl (o : V3)
  /-- Vector logical shift right. (R109) -/
  | vshr (o : V3)
  /-- Vector arithmetic shift right. (R109) -/
  | vsar (o : V3)
  /-- Vector signed minimum. (R109) -/
  | vmin (o : V3)
  /-- Vector signed maximum. (R109) -/
  | vmax (o : V3)
  /-- Vector unsigned minimum. (R109) -/
  | vminu (o : V3)
  /-- Vector unsigned maximum. (R109) -/
  | vmaxu (o : V3)
  /-- Vector absolute value. (R111) -/
  | vabs (o : V2)
  /-- Vector negate, wrapping. (R111) -/
  | vneg (o : V2)
  /-- Vector leading zero count. (R111) -/
  | vclz (o : V2)
  /-- Vector population count. (R111) -/
  | vpopc (o : V2)
  /-- Vector copy. (R111) -/
  | vmov (o : V2)
  /-- Writes each lane's position in its section. (R111) -/
  | vlane (d : Nat) (g : Nat)
  /-- Broadcasts a scalar into vector elements. (R111) -/
  | vbcs (o : V2)
  /-- Vector bit-field extract, long form. (R112) -/
  | vbfx (o : V2) (p : Nat) (l : Nat)
  /-- Vector bit-field insert, long form. (R112) -/
  | vbfi (o : V2) (p : Nat) (l : Nat)
  /-- Vector select on a predicate, long form. (R112) -/
  | vsel (o : V3) (r : Nat)
  /-- Vector integer compare into a predicate, long form. (R112) -/
  | vcmp (o : V3) (q : Nat)
  /-- Loads a sign-extended 12-bit immediate into every mask lane. (R112) -/
  | vldi (d : Nat) (i : Nat)
  /-- Loads a 32-bit immediate with an XI extension. (R112) -/
  | vldiLong (d : Nat) (i : Nat)
  /-- Float add with one rounding in fpmode. (R114) -/
  | fadd (o : V3)
  /-- Float add with an XR rounding override. (R114) -/
  | faddLong (o : V3) (rm : Nat)
  /-- Float subtract. (R114) -/
  | fsub (o : V3)
  /-- Float subtract with a rounding override. (R114) -/
  | fsubLong (o : V3) (rm : Nat)
  /-- Float multiply. (R114) -/
  | fmul (o : V3)
  /-- Float multiply with a rounding override. (R114) -/
  | fmulLong (o : V3) (rm : Nat)
  /-- Fused multiply-add, long form. (R114) -/
  | ffma (o : V3) (r : Nat) (rm : Nat)
  /-- Float minimum returning the number over a NaN. (R116) -/
  | fmin (o : V3)
  /-- Float maximum returning the number over a NaN. (R116) -/
  | fmax (o : V3)
  /-- NaN-propagating float minimum. (R116) -/
  | fminp (o : V3)
  /-- NaN-propagating float maximum. (R116) -/
  | fmaxp (o : V3)
  /-- Clears the sign bit. (R117) -/
  | fabs (o : V2)
  /-- Inverts the sign bit. (R117) -/
  | fneg (o : V2)
  /-- Copies the sign of b onto a. (R117) -/
  | fcps (o : V3)
  /-- Float compare into a predicate, long form. (R118) -/
  | fcmp (o : V3) (q : Nat)
  /-- Writes a float class mask. (R119) -/
  | fcls (o : V2)
  /-- Scales by a power of two. (R114) -/
  | fscl (o : V3)
  /-- FSCL with a rounding override. (R114) -/
  | fsclLong (o : V3) (rm : Nat)
  /-- Float-to-float conversion, long form. (R120) -/
  | fcvt (o : V2) (sf : Nat) (df : Nat) (rm : Nat) (sat : Bool)
  /-- Rounds to an integral value in the same format. (R114) -/
  | frnd (o : V2)
  /-- FRND with a rounding override. (R114) -/
  | frndLong (o : V2) (rm : Nat)
  /-- Integer-to-float conversion, long form. (R121) -/
  | fcvi (o : V2) (ity : Nat) (rm : Nat) (sat : Bool)
  /-- Float-to-integer conversion, long form. (R122) -/
  | fciv (o : V2) (ity : Nat) (rm : Nat)
  /-- Correctly rounded float divide. (R115) -/
  | fdiv (o : V3)
  /-- FDIV with a rounding override. (R115) -/
  | fdivLong (o : V3) (rm : Nat)
  /-- Correctly rounded square root. (R115) -/
  | fsqrt (o : V2)
  /-- FSQRT with a rounding override. (R115) -/
  | fsqrtLong (o : V2) (rm : Nat)
  /-- Packed 16-bit dot product into F32, long form. (R123) -/
  | fdot2 (o : V3) (r : Nat) (rm : Nat)
  /-- Faithful reciprocal. (R126) -/
  | frcp (o : V2)
  /-- Faithful reciprocal square root. (R126) -/
  | frsq (o : V2)
  /-- Faithful 2^x. (R126) -/
  | fexp2 (o : V2)
  /-- Faithful log2 x. (R126) -/
  | flog2 (o : V2)
  /-- Faithful sine. (R126) -/
  | fsin (o : V2)
  /-- Faithful cosine. (R126) -/
  | fcos (o : V2)
  /-- Faithful tanh. (R126) -/
  | ftanh (o : V2)
  /-- Faithful logistic sigmoid. (R126) -/
  | fsigm (o : V2)
  /-- Interpolates in the current bank of a programmable table. (R129) -/
  | ftab (d : Nat) (a : Nat) (n : Nat) (g : Nat)
  /-- Checks a table header and starts loading the shadow bank. (R128) -/
  | tabld (n : Nat) (s : Nat) (f : Nat)
  /-- Shuffle by per-lane source position within a section. (R130) -/
  | shfl (o : V3)
  /-- Shuffle from position k + n. (R130) -/
  | shfu (d : Nat) (a : Nat) (n : Nat)
  /-- Shuffle from position k − n. (R130) -/
  | shfd (d : Nat) (a : Nat) (n : Nat)
  /-- Shuffle from position k XOR n. (R130) -/
  | shfx (d : Nat) (a : Nat) (n : Nat)
  /-- Broadcast from position n. (R130) -/
  | vbcl (d : Nat) (a : Nat) (n : Nat)
  /-- Integer reduction within each section. (R131) -/
  | vred (o : V2) (q : Nat)
  /-- Inclusive integer scan within each section. (R131) -/
  | vscn (o : V2) (q : Nat)
  /-- Exact float reduction rounded once. (R132) -/
  | fred (o : V2) (q : Nat)
  /-- Exact inclusive float scan rounded once per prefix. (R132) -/
  | fscn (o : V2) (q : Nat)
  /-- Ballot of a predicate over a section. (R133) -/
  | ball (d : Nat) (a : Nat) (g : Nat)
  /-- Mask of positions holding equal bits. (R133) -/
  | vmtc (o : V2)
  /-- Compacts Active lanes' values to the lowest lanes. (R133) -/
  | vcpt (o : V2)
  /-- Hadamard-rotates and quantises blocks to Q4, long form. (R135) -/
  | vhq (o : V3) (r : Nat) (q : Nat)
  /-- Quantises to FP8 under an E8M0 scale, long form. (R136) -/
  | vq8 (o : V2) (r : Nat) (q : Nat) (rm : Nat) (sat : Bool)
  /-- Dequantises FP8 under an E8M0 scale, long form. (R136) -/
  | vdq (o : V2) (r : Nat) (q : Nat)
  /-- Block-scaled FP8 dot product into F32, long form. (R138) -/
  | vbsd (o : V3) (r : Nat) (q : Nat) (rm : Nat)
  /-- Global 8-bit load. (R143) -/
  | ldg8 (o : MOp)
  /-- Global 8-bit load with an XO offset. (R143) -/
  | ldg8Long (o : MOp) (off : Nat)
  /-- Global 16-bit load. (R143) -/
  | ldg16 (o : MOp)
  /-- Global 16-bit load with an XO offset. (R143) -/
  | ldg16Long (o : MOp) (off : Nat)
  /-- Global 32-bit load. (R143) -/
  | ldg32 (o : MOp)
  /-- Global 32-bit load with an XO offset. (R143) -/
  | ldg32Long (o : MOp) (off : Nat)
  /-- Global 64-bit load into a pair. (R143) -/
  | ldg64 (o : MOp)
  /-- Global 64-bit load with an XO offset. (R143) -/
  | ldg64Long (o : MOp) (off : Nat)
  /-- Posted global 8-bit store. (R143) -/
  | stg8 (o : MSt)
  /-- Global 8-bit store with an XO offset. (R143) -/
  | stg8Long (o : MSt) (off : Nat)
  /-- Posted global 16-bit store. (R143) -/
  | stg16 (o : MSt)
  /-- Global 16-bit store with an XO offset. (R143) -/
  | stg16Long (o : MSt) (off : Nat)
  /-- Posted global 32-bit store. (R143) -/
  | stg32 (o : MSt)
  /-- Global 32-bit store with an XO offset. (R143) -/
  | stg32Long (o : MSt) (off : Nat)
  /-- Posted global 64-bit store. (R143) -/
  | stg64 (o : MSt)
  /-- Global 64-bit store with an XO offset. (R143) -/
  | stg64Long (o : MSt) (off : Nat)
  /-- Scratchpad 32-bit load. (R143) -/
  | ldl32 (o : MOp)
  /-- Scratchpad 32-bit load with an XO offset. (R143) -/
  | ldl32Long (o : MOp) (off : Nat)
  /-- Scratchpad 64-bit load. (R143) -/
  | ldl64 (o : MOp)
  /-- Scratchpad 64-bit load with an XO offset. (R143) -/
  | ldl64Long (o : MOp) (off : Nat)
  /-- Scratchpad 32-bit store. (R143) -/
  | stl32 (o : MSt)
  /-- Scratchpad 32-bit store with an XO offset. (R143) -/
  | stl32Long (o : MSt) (off : Nat)
  /-- Scratchpad 64-bit store. (R143) -/
  | stl64 (o : MSt)
  /-- Scratchpad 64-bit store with an XO offset. (R143) -/
  | stl64Long (o : MSt) (off : Nat)
  /-- Stash load, filling the line on first use. (R149) -/
  | ldx (o : MOp)
  /-- Stash load with an XO offset. (R149) -/
  | ldxLong (o : MOp) (off : Nat)
  /-- Stash store setting dirty bits. (R149) -/
  | stx (o : MSt)
  /-- Stash store with an XO offset. (R149) -/
  | stxLong (o : MSt) (off : Nat)
  /-- Reads 32 bits of the parameter block into a scalar. (R146) -/
  | ldk32 (d : Nat) (s : Nat)
  /-- LDK.32 with an XO offset. (R146) -/
  | ldk32Long (d : Nat) (s : Nat) (off : Nat)
  /-- Reads 64 bits of the parameter block into a scalar. (R146) -/
  | ldk64 (d : Nat) (s : Nat)
  /-- LDK.64 with an XO offset. (R146) -/
  | ldk64Long (d : Nat) (s : Nat) (off : Nat)
  /-- Checks and starts a single-copy-atomic tile load. (R154) -/
  | tld (s : Nat) (f : Nat)
  /-- Tile load with an XO offset. (R154) -/
  | tldLong (s : Nat) (f : Nat) (off : Nat)
  /-- Checks, reads scratchpad and starts a single-copy-atomic tile store. (R154) -/
  | tst (s : Nat) (f : Nat)
  /-- Tile store with an XO offset. (R154) -/
  | tstLong (s : Nat) (f : Nat) (off : Nat)
  /-- Prefetches sectors into L1 with no architectural effect. (R147) -/
  | pfg (a : Nat) (s : Nat) (g : Nat)
  /-- Prefetch with an XO offset. (R147) -/
  | pfgLong (a : Nat) (s : Nat) (g : Nat) (off : Nat)
  /-- Maps a global range into a stash slot. (R148) -/
  | xmap (s : Nat)
  /-- XMAP with an XO offset added to the base. (R148) -/
  | xmapLong (s : Nat) (off : Nat)
  /-- Writes back and empties a stash slot. (R150) -/
  | xunmap (s : Nat)
  /-- Writes back dirty stash bytes of a slot. (R150) -/
  | xwb (s : Nat)
  /-- Discards filled and dirty state of a slot. (R150) -/
  | xinv (s : Nat)
  /-- Global atomic at the home slice returning the old value. (R160) -/
  | atg (o : AtOp)
  /-- Scratchpad atomic returning the old value. (R160) -/
  | atl (o : AtOp)
  /-- Posted global reduce with no result. (R163) -/
  | redg (o : RedOp)
  /-- Scratchpad reduce with no result. (R163) -/
  | redl (o : RedOp)
  /-- Reads records and sends them to the queue's home slice. (R167) -/
  | enq (s : Nat) (v : Nat) (f : Nat) (m : Nat)
  /-- Requests records from the queue's home slice. (R169) -/
  | deq (s : Nat) (v : Nat) (f : Nat) (m : Nat)
  /-- Reads a queue's backlog and CLOSED bit. (R171) -/
  | qlen (s : Nat) (v : Nat)
  /-- Closes a queue. (R171) -/
  | qcls (s : Nat)
  /-- Takes index-space coordinates from a manger. (R172) -/
  | grab (s : Nat) (v : Nat)
  /-- Release, acquire or full fence at a scope. (R182) -/
  | fence (p : Nat) (m : Nat)
  /-- Requests a guard exclusively or shared and sleeps until granted. (R206) -/
  | acq (s : Nat) (p : Nat) (m : Nat)
  /-- Writes back tethered regions and releases a held guard. (R207) -/
  | rel (s : Nat) (p : Nat)
  /-- Adds a tether to an exclusively held guard. (R208) -/
  | teth (s : Nat) (v : Nat) (p : Nat)
  /-- Removes a matching tether. (R208) -/
  | unte (s : Nat) (v : Nat) (p : Nat)
  /-- Arrives at a harness barrier without waiting. (R198) -/
  | barv (s : Nat) (v : Nat) (p : Nat)
  /-- Sleeps until a barrier generation completes. (R198) -/
  | bwat (s : Nat) (v : Nat) (p : Nat)
  /-- Arrives and sleeps until the generation completes. (R198) -/
  | bsyn (v : Nat) (p : Nat)
  /-- Sets the block's barrier membership, now or at the boundary. (R199) -/
  | bmsk (s : Nat) (v : Nat) (p : Nat) (m : Nat)
  /-- Initialises an arrival object. (R201) -/
  | aini (s : Nat) (v : Nat)
  /-- Arrives at an arrival object, adding inbound bytes. (R202) -/
  | aarv (s : Nat) (v : Nat) (p : Nat) (m : Nat)
  /-- Sleeps while an arrival object's GEN equals k. (R203) -/
  | awat (s : Nat) (v : Nat) (p : Nat)
  /-- Sleeps until a scratchpad word meets a condition. (R203) -/
  | wadr (s : Nat) (v : Nat) (p : Nat) (m : Nat)
  /-- Issues a box copy job to a dray. (R226) -/
  | dcpy (o : DrOp)
  /-- DCPY naming an arrival object. (R226) -/
  | dcpyLong (o : DrOp) (aoff : Nat)
  /-- Issues an indexed gather job. (R226) -/
  | dgth (o : DrOp)
  /-- DGTH naming an arrival object. (R226) -/
  | dgthLong (o : DrOp) (aoff : Nat)
  /-- Issues an indexed scatter job. (R226) -/
  | dsct (o : DrOp)
  /-- DSCT naming an arrival object. (R226) -/
  | dsctLong (o : DrOp) (aoff : Nat)
  /-- Issues a multicast send to a group. (R228) -/
  | dmcs (o : DrOp)
  /-- DMCS naming an arrival object. (R228) -/
  | dmcsLong (o : DrOp) (aoff : Nat)
  /-- Issues a KV commit job. (R230) -/
  | dcmt (o : DrOp)
  /-- DCMT naming an arrival object. (R230) -/
  | dcmtLong (o : DrOp) (aoff : Nat)
  /-- Issues a pattern fill job. (R226) -/
  | dfil (o : DrOp)
  /-- DFIL naming an arrival object. (R226) -/
  | dfilLong (o : DrOp) (aoff : Nat)
  /-- Issues an element-wise combine job. (R227) -/
  | dcol (o : DrOp)
  /-- DCOL naming an arrival object. (R227) -/
  | dcolLong (o : DrOp) (aoff : Nat)
  /-- Reads a dray job's status word by ticket. (R225) -/
  | dsts (x : Nat)
  /-- Stalls until earlier dray jobs of the team or block complete. (R231) -/
  | dfnc (y : Nat)
  /-- Creates a paddock in the registry. (R212) -/
  | pdnew (x : Nat) (y : Nat)
  /-- Attaches a paddock, filling or migrating it in FILL mode. (R213) -/
  | pdatt (x : Nat) (y : Nat) (f : Nat)
  /-- Waits for footprint operations, then detaches a paddock. (R212) -/
  | pddet (x : Nat)
  /-- Evicts or destroys a paddock. (R212) -/
  | pdevi (x : Nat) (y : Nat)
  /-- Reads a paddock's registry state. (R212) -/
  | pdqry (x : Nat)
  /-- Reads a CSR. (R291) -/
  | csrr (d : Nat) (n : Nat)
  /-- Writes a CSR with no behaviour of its own. (R291) -/
  | csrw (a : Nat) (n : Nat)
  /-- Injects a cause into a target team of the core. (R282) -/
  | csrwTinj (a : Nat)
  /-- Shoots down translations of a page or context across the partition. (R293) -/
  | tlbi (a : Nat) (k : Nat)
  /-- Reads one state-map entry. (R294) -/
  | sread (p : Nat)
  /-- Occupies a slot and has no effect. (R57) -/
  | nop
  /-- Waits on all flags, releases held guards and ends the team. (R98) -/
  | exit
  /-- Marks the team yielded for issue selection. (R99) -/
  | yield
  /-- Switches to the else mask of the top entry. (R105) -/
  | melse
  /-- Restores the saved mask and pops. (R105) -/
  | mpop
  /-- Restores program state and returns from the handler. (R292) -/
  | eret
  /-- Stops the team and escalates with code 63. (R295) -/
  | halt
  /-- Coachman no-operation. (R84) -/
  | mnop
  /-- Writes a coachman region register. (R239) -/
  | msetz (r : RegZ)
  /-- Zeroes an accumulator region. (R239) -/
  | mzer (z : Nat)
  /-- Exact K-block matrix multiply-accumulate. (R245) -/
  | mma (o : MmaOp) (mf : Nat) (shr : Bool) (arank : Nat) (k : Nat)
  /-- Grouped matrix multiply over row groups. (R248) -/
  | mmag (o : MmaOp) (mf : Nat) (zt : Nat) (gm : Nat) (k : Nat)
  /-- Masked score product with causal or tree mask. (R249) -/
  | mmat (o : MmaOp) (mf : Nat) (zm : Nat) (k : Nat)
  /-- Compresses B into the weight buffer group by group. (R242) -/
  | mldw (zw : Nat) (zs : Nat) (mf : Nat)
  /-- Drains and converts an accumulator region to scratchpad. (R250) -/
  | mdrn (zd : Nat) (zs : Nat) (sh : Nat) (sat : Bool) (act : Bool) (tbl : Nat) (mf : Nat) (zero : Bool)
  /-- Coachman arrival or wait at a BLOCK barrier. (R251) -/
  | mbar (n : Nat) (m : Nat)
  /-- Waits on coachman flag counts, delivers faults, optionally stores MFL. (R252) -/
  | mwat (k : Nat) (st : Bool) (off : Nat)
  /-- Sets a coachman loop counter. (R253) -/
  | mlop (n : Nat) (cnt : Nat)
  /-- Unconditional coachman branch. (R253) -/
  | mbra (o : Nat)
  /-- Decrements a loop counter and branches while non-zero. (R253) -/
  | mbraLoop (n : Nat) (o : Nat)
  /-- Waits for all coachman instructions, delivers faults and ends the stream. (R254) -/
  | mend
  /-- When a table load completes the shadow bank becomes current and the flag is released. (R128) -/
  | tableSwap (core : Nat) (t : Nat)
  /-- A job meets poison, a translation fault or a bad index and stops. (R224) -/
  | drayJobStop (id : Nat)
  /-- Fixes status, writes the completion word, updates the arrival object and releases the flag. (R223) -/
  | drayJobComplete (id : Nat)
  /-- A paddock's write-back to backing ends, leaving it evicted or ready to fill elsewhere. (R209) -/
  | paddockWritebackComplete (id : Nat)
  /-- A fill from backing ends; the paddock is mapped resident and the flag released. (R213) -/
  | paddockFillComplete (id : Nat)
  /-- A waiting matrix instruction starts once the scoreboard allows its accesses. (R234) -/
  | arrayDispatch (id : Nat)
  /-- A matrix instruction performs its last access and its coachman flag count falls. (R252) -/
  | matrixOpComplete (id : Nat)
  /-- A load or fill reply writes destinations and releases its flag or records a fault. (R69) -/
  | loadComplete (id : Nat)
  /-- A posted store, atomic or reduce-add reaches its home slice and leaves the outstanding counters. (R32) -/
  | storeAck (id : Nat)
  /-- An atomic's reply writes old values and releases its flag. (R163) -/
  | atomicComplete (id : Nat)
  /-- A read request is performed at its home slice. (R183) -/
  | sliceLoad (id : Nat)
  /-- A write request is performed at its home slice in coherence order. (R177) -/
  | sliceStore (id : Nat)
  /-- Atomic lanes are applied at the home slice in lane order. (R162) -/
  | sliceAtomic (id : Nat)
  /-- A reduce-add is applied or held pending in deterministic mode. (R361) -/
  | sliceReduce (id : Nat)
  /-- HBM data fills a missing line and waiting accesses proceed. (R367) -/
  | sliceLineFill (slice : Nat) (line : Nat)
  /-- A tile holds all its lines and copies its rows. (R154) -/
  | tileLockAcquired (id : Nat)
  /-- A tile unlocks its lines, invalidates local copies and releases its flag. (R154) -/
  | tileComplete (id : Nat)
  /-- The home slice places accepted records in ring or spill. (R167) -/
  | enqAtHome (id : Nat)
  /-- The home slice delivers records from the ring head or holds a waiting DEQ. (R169) -/
  | deqAtHome (id : Nat)
  /-- A held DEQ .WAIT is answered when a record reaches the ring or the queue closes. (R169) -/
  | deqWaitServed (id : Nat)
  /-- The home slice hands out consecutive manger indices. (R172) -/
  | grabAtHome (id : Nat)
  /-- A queue reply writes records, predicate, count and status and releases the flag. (R170) -/
  | queueReply (id : Nat)
  /-- One spilled record moves from the spill head to the ring tail. (R168) -/
  | queueRefillMove (q : Nat)
  /-- A finished stage decrements PRODS of an output queue at its home slice. (R263) -/
  | prodsDecrement (q : Nat)
  /-- An ACQ reaches the guard's home slice and is granted or queued. (R185) -/
  | guardRequestAtHome (id : Nat)
  /-- A grant invalidates tethered copies, records the guard and wakes the team. (R206) -/
  | guardGrant (id : Nat)
  /-- A REL clears EXCL or decrements HOLD and grants waiting requests. (R207) -/
  | guardReleaseAtHome (id : Nat)
  /-- A buffered flit is written into the destination FIFO when it has room. (R174) -/
  | reinFlitDeliver (unit : Nat) (ch : Nat)
  /-- A held fault record is enqueued into the fault queue once room exists. (R287) -/
  | faultRecordEnqueue (unit : Nat)
  /-- A walker finishes a walk and fills the TLBs or yields unmapped. (R316) -/
  | pageWalkComplete (id : Nat)
  /-- A core snapshots its table and chooses the eligible stage of greatest differential. (R304) -/
  | distributorEvaluate (core : Nat)
  /-- A claim on the in-flight count succeeds and launches, or is refused and the stage is excluded. (R305) -/
  | maxbClaimReply (core : Nat)
  /-- The placement arbiter chooses members and sends RESERVE or cancels. (R307) -/
  | hitchRequest (cluster : Nat)
  /-- A core sets resources aside and answers GRANT or DENY, or keeps a sticky request pending. (R307) -/
  | hitchReserve (cluster : Nat) (core : Nat)
  /-- The arbiter collects GRANT or DENY and sends COMMIT or CANCEL. (R307) -/
  | hitchResponse (cluster : Nat)
  /-- A member launches its hitch block. (R307) -/
  | hitchCommit (cluster : Nat) (core : Nat)
  /-- Set-aside resources return and the core evaluates again. (R307) -/
  | hitchCancel (cluster : Nat) (core : Nat)
  /-- A block frees its slot and resources and detaches paddocks. (R29) -/
  | blockRetire (unit : Nat)
  /-- A held completion event enters the event queue once it has room. (R33) -/
  | completionEventEnqueue (core : Nat)
  /-- The ostler writes the launch record with STATUS 2 as a SYSTEM release. (R339) -/
  | launchComplete (gslot : Nat)
  /-- Home slices sample a frame pair of backlogs every 32 cycles. (R301) -/
  | whiffletreeSample (j : Nat)
  /-- A sampled frame pair is written into every core's table. (R301) -/
  | whiffletreeTableWrite (drops : List Nat)
  /-- The slice length passes and a switch to the next runnable context is requested. (R343) -/
  | sliceExpiry (part : Nat)
  /-- In-flight operations resolved; the core flushes L1 and saves context state. (R313) -/
  | drainComplete (core : Nat)
  /-- Every core has saved; the incoming context is loaded and resent operations issued. (R315) -/
  | partitionSaved (part : Nat)
  /-- The oldest request reaches AGECAP and younger row hits are blocked. (R372) -/
  | hbmAgeCapExpiry (ch : Nat)
  /-- The controller performs its own refresh within the DRAM's limit. (R372) -/
  | hbmRefresh (ch : Nat)
  /-- A peer access request is checked against grants and performed. (R349) -/
  | reqFrame (f : ReqFrame)
  /-- A peer access reply completes or fails the access. (R349) -/
  | rspFrame (f : RspFrame)
  /-- Forwarded records enter the receiving queue as one ENQ, or a close mark closes it. (R352) -/
  | fwdFrame (f : FwdFrame)
  /-- A summary frame replaces B_remote of matching send entries. (R351) -/
  | sumFrame (f : SumFrame)
  /-- A multicast payload's last frame is looked up, tested busy and written or answered. (R357) -/
  | mcdFrame (f : McdFrame)
  /-- Member responses are ORed into the completion record; the send completes when all arrive. (R229) -/
  | mcrFrame (f : McrFrame)
  /-- An incoming collective shard is combined or held in the collective store. (R359) -/
  | colFrame (f : ColFrame)
  /-- The ostler writes RES and the completion value as a SYSTEM release. (R360) -/
  | collectiveComplete (id : Nat)
  /-- A cumulative acknowledgement frees unacknowledged frames. (R348) -/
  | ackFrame (port : Nat) (seq : Nat)
  /-- A NAK causes a go-back, or a busy resend later. (R348) -/
  | nakFrame (port : Nat) (seq : Nat) (busy : Bool)
  /-- 4 096 cycles without progress trigger a go-back. (R348) -/
  | retransmitTimeout (port : Nat)
  /-- No route for 65 536 cycles fails held accesses with 280. (R348) -/
  | routeTimeout (pkg : Nat)
  /-- A partner entering HOLD drops the link, failing accesses and losing bindings. (R392) -/
  | partnerLinkLoss (pkg : Nat)
  /-- Every 512 cycles a port sends SUM frames of receive backlogs. (R351) -/
  | sumTimer (port : Nat)
  /-- A port serves the forwarding queue of greatest positive differential. (R268) -/
  | portFrameTime (port : Nat)
  /-- Records held in a frame store enter the receiving queue as room appears. (R354) -/
  | heldRecordsMove (port : Nat) (idx : Nat)
  /-- A doorbell tail word is accepted and the work queue resumes. (R332) -/
  | tailWrite (q : Nat) (tail : Nat)
  /-- A FETCH_ADD pops the oldest free-list segment. (R331) -/
  | flpop (q : Nat)
  /-- An inbound RDMA WRITE is performed at home slices. (R364) -/
  | rdmaWrite (r : Rdma)
  /-- An inbound RDMA READ returns data from home slices. (R364) -/
  | rdmaRead (r : Rdma)
  /-- An inbound 8-byte FETCH_ADD executes as ATG ADD. (R364) -/
  | fetchAdd (r : Rdma)
  /-- An inbound 8-byte CMP_SWAP executes as CAS. (R364) -/
  | cmpSwap (r : Rdma)
  /-- A host queue pair fails over or fails its accesses with 304. (R362) -/
  | hostRetryExhausted (part : Nat) (qp : Nat)
  /-- A command packet that does nothing. (R334) -/
  | nopPacket (p : Pkt)
  /-- Writes data bytes to memory. (R337) -/
  | write (p : Pkt)
  /-- Writes data, releases it at a scope, then performs a signal. (R337) -/
  | writeSignal (p : Pkt)
  /-- Waits until a memory value meets a condition. (R338) -/
  | waitMem (p : Pkt)
  /-- A write to the watched bytes retests the condition. (R338) -/
  | waitMemRetest (q : Nat)
  /-- Every 1 024 cycles a remote value is read again. (R338) -/
  | waitMemPoll (q : Nat)
  /-- Skips K packets when a memory condition is false. (R338) -/
  | pred (p : Pkt)
  /-- Pushes a level running a buffer of packets. (R336) -/
  | indirect (p : Pkt)
  /-- Pushes a level running a body for a count of passes. (R336) -/
  | loop (p : Pkt)
  /-- Checks and makes a graph resident, writing its launch record. (R339) -/
  | launchGraph (p : Pkt)
  /-- Discards bytes fetched ahead at its level. (R340) -/
  | fetchFence (p : Pkt)
  /-- Moves the stream to the next segment. (R333) -/
  | link (p : Pkt)
  /-- A left segment returns to the free list once its packets complete. (R333) -/
  | segmentReturn (q : Nat) (seg : Nat)
  /-- Issues a collective named by its record. (R340) -/
  | collective (p : Pkt)
  /-- Writes an event record to the event ring. (R340) -/
  | event (p : Pkt)
  /-- Writes the package time to memory. (R340) -/
  | timestamp (p : Pkt)
  /-- The ostler fetches a 64-byte command line within its fetch window. (R341) -/
  | commandLineFetch (q : Nat) (level : Nat) (line : Nat)
  /-- Writes a work-queue descriptor. (R330) -/
  | wqConfig (m : Mgmt)
  /-- Stops a work queue before its next packet. (R345) -/
  | wqStop (m : Mgmt)
  /-- Clears ERR and reruns or skips the packet at HEADP. (R345) -/
  | wqResume (m : Mgmt)
  /-- Resumes a stopped team or coachman. (R287) -/
  | unitResume (m : Mgmt)
  /-- Terminates a stopped unit. (R287) -/
  | unitTerminate (m : Mgmt)
  /-- Stops a team at its next packet boundary with code 62. (R289) -/
  | unitHalt (m : Mgmt)
  /-- Terminates a graph's blocks and frees its slot. (R299) -/
  | graphRemove (m : Mgmt)
  /-- Sets the time-slice length. (R343) -/
  | sliceSet (m : Mgmt)
  /-- Returns one state-map entry. (R396) -/
  | stateRead (m : Mgmt)
  /-- Writes a state-map entry of a stopped unit or a log head. (R397) -/
  | stateWrite (m : Mgmt)
  /-- Creates or updates a context. (R387) -/
  | ctxSet (m : Mgmt)
  /-- Removes an idle context. (R387) -/
  | ctxDel (m : Mgmt)
  /-- Verifies an image and writes it to boot flash. (R383) -/
  | imgLoad (m : Mgmt)
  /-- Writes a signed attestation report. (R385) -/
  | attest (m : Mgmt)
  /-- Sets or clears RETAIN of the partition's key slot. (R381) -/
  | keyRetain (m : Mgmt)
  /-- Signed command replacing partition entries. (R388) -/
  | partSet (m : Mgmt)
  /-- Signed transfer of package ownership with clearing. (R389) -/
  | ownXfer (m : Mgmt)
  /-- Self-signed claim of an unowned package. (R389) -/
  | claim (m : Mgmt)
  /-- Maker-signed release of ownership with clearing. (R389) -/
  | release (m : Mgmt)
  /-- Owner-signed assignment of the package identity. (R386) -/
  | setId (m : Mgmt)
  /-- PORST_N or power-on resets the package, regenerating every key. (R390) -/
  | coldReset
  /-- WRST_N or farrier-found damage resets the package keeping RETAIN keys. (R390) -/
  | warmReset
  /-- Leaving HOLD, the farrier verifies and loads images. (R391) -/
  | pinsReleased
  /-- HBM and Geldy training end and arrays are cleared. (R391) -/
  | trainComplete (hbmMask : Nat) (ports : Nat)
  /-- Arrays are zeroed and the package reaches READY. (R391) -/
  | clearComplete
  /-- Work queues stop and the farrier reloads the ostler image. (R329) -/
  | ostlerIntegrityError
  /-- An error event is logged or counted, stopping a context for kind 2. (R394) -/
  | rasEvent (e : RasEv)
  /-- A power or thermal limit inserts idle issue cycles and is logged. (R398) -/
  | powerLimit (inst : Nat)
  /-- A power or thermal limit is no longer reached and the package stops inserting idle issue cycles. (R398) -/
  | powerLimitLifted (inst : Nat)
  /-- An inbound RoCE v2 connection request to a queue pair is accepted, or for the management queue pair accepted only from the endpoint at (MGID, MQPN). (R379) -/
  | connectionExchange (c : Conn)
  /-- A Geldy link to a partner that has reset trains again, and the port carries traffic and peer accesses once the partner reaches READY. (R392) -/
  | geldyLinkTraining (port : Nat)
  /-- An inbound RoCE v2 congestion notification packet reduces the sending rate of the host queue pair it names. (R362) -/
  | congestionNotification (part : Nat) (qp : Nat)
deriving DecidableEq, Repr
/-- The coachman instructions alone (R84): what the coachman's decoder yields and its step runs. `CoachOp.instr` gives the
row of `Instr` that each is. -/
inductive CoachOp where
  /-- Coachman no-operation. (R84) -/
  | mnop
  /-- Writes a coachman region register. (R239) -/
  | msetz (r : RegZ)
  /-- Zeroes an accumulator region. (R239) -/
  | mzer (z : Nat)
  /-- Exact K-block matrix multiply-accumulate. (R245) -/
  | mma (o : MmaOp) (mf : Nat) (shr : Bool) (arank : Nat) (k : Nat)
  /-- Grouped matrix multiply over row groups. (R248) -/
  | mmag (o : MmaOp) (mf : Nat) (zt : Nat) (gm : Nat) (k : Nat)
  /-- Masked score product with causal or tree mask. (R249) -/
  | mmat (o : MmaOp) (mf : Nat) (zm : Nat) (k : Nat)
  /-- Compresses B into the weight buffer group by group. (R242) -/
  | mldw (zw : Nat) (zs : Nat) (mf : Nat)
  /-- Drains and converts an accumulator region to scratchpad. (R250) -/
  | mdrn (zd : Nat) (zs : Nat) (sh : Nat) (sat : Bool) (act : Bool) (tbl : Nat) (mf : Nat) (zero : Bool)
  /-- Coachman arrival or wait at a BLOCK barrier. (R251) -/
  | mbar (n : Nat) (m : Nat)
  /-- Waits on coachman flag counts, delivers faults, optionally stores MFL. (R252) -/
  | mwat (k : Nat) (st : Bool) (off : Nat)
  /-- Sets a coachman loop counter. (R253) -/
  | mlop (n : Nat) (cnt : Nat)
  /-- Unconditional coachman branch. (R253) -/
  | mbra (o : Nat)
  /-- Decrements a loop counter and branches while non-zero. (R253) -/
  | mbraLoop (n : Nat) (o : Nat)
  /-- Waits for all coachman instructions, delivers faults and ends the stream. (R254) -/
  | mend
deriving DecidableEq, Repr
/-- The row of a coachman instruction. The Lean compiler cannot build constructors this far down a type of this size, hence
the mark; the kernel evaluates it like any other definition. -/
noncomputable def CoachOp.instr : CoachOp → Instr
  | .mnop => .mnop
  | .msetz r => .msetz r
  | .mzer z => .mzer z
  | .mma o mf shr arank k => .mma o mf shr arank k
  | .mmag o mf zt gm k => .mmag o mf zt gm k
  | .mmat o mf zm k => .mmat o mf zm k
  | .mldw zw zs mf => .mldw zw zs mf
  | .mdrn zd zs sh sat act tbl mf zero => .mdrn zd zs sh sat act tbl mf zero
  | .mbar n m => .mbar n m
  | .mwat k st off => .mwat k st off
  | .mlop n cnt => .mlop n cnt
  | .mbra o => .mbra o
  | .mbraLoop n o => .mbraLoop n o
  | .mend => .mend

end Sys2Proof
end

