-- ==== Sys2Proof/WellFormed.lean ====
section
/-! DEFINITION. Which instructions an encoding can carry: every field within its width, no reserved sub-op, no reserved
operand code (R64 to R66, R80 to R84). What depends on the team (the window, R20) and on privilege is checked when the packet
is (`Operands`). -/

namespace Sys2Proof

/-- A completion flag field: f0 to f11 or none (R66). -/
def flagOk (f : Nat) : Bool := decide (f < 12) || f == 15

/-- A coachman flag field: m0 to m7 or none (R235). -/
def mfOk (f : Nat) : Bool := decide (f < 8) || f == 15

/-- A rounding override that is not reserved (R43, R64). -/
def rmOk (r : Nat) : Bool := decide (r < 5) || r == 7

/-- The integer types a conversion of float type t may name (R122). -/
def ityOk (t ity : Nat) : Bool :=
  if t = 0 ∨ t = 3 then decide (ity < 8) else ity == 4 || ity == 5

/-- A barrier number and scope that the harness has (R194, R196). -/
def harnessOk (v p : Nat) : Bool :=
  (p == 1 && decide (v < 16)) || (p == 2 && decide (v < 8)) || (p == 3 && decide (v < 4)) || (p == 4 && decide (v < 4))

/-- The special registers SGET reads one at a time (R89). -/
def sgetNumber (n : Nat) : Bool := decide (n < 14) || (decide (24 ≤ n) && decide (n < 28))

/-- CSR numbers of R282 that CSRR reads: every implemented one but TINJ (R291). -/
def csrReadable (n : Nat) : Bool :=
  n == 0 || (decide (0x800 ≤ n) && decide (n < 0x804)) || (decide (0x808 ≤ n) && decide (n < 0x80E)) ||
    (decide (0x810 ≤ n) && decide (n < 0x818)) || (decide (0x820 ≤ n) && decide (n < 0x825)) ||
    (decide (0x830 ≤ n) && decide (n < 0x834)) || (decide (0x838 ≤ n) && decide (n < 0x83C))

/-- CSR numbers of R282 that CSRW writes with no behaviour of their own (R291). -/
def csrWritable (n : Nat) : Bool :=
  n == 0x800 || (decide (0x808 ≤ n) && decide (n < 0x80E)) || (decide (0x810 ≤ n) && decide (n < 0x818)) ||
    (decide (0x830 ≤ n) && decide (n < 0x834)) || (decide (0x838 ≤ n) && decide (n < 0x83C))

def V3.wf (o : V3) : Bool :=
  decide (o.d < 64) && decide (o.a < 64) && decide (o.b < 64) && decide (o.g < 16) && decide (o.t < 4)

def V2.wf (o : V2) : Bool :=
  decide (o.d < 64) && decide (o.a < 64) && decide (o.g < 16) && decide (o.t < 4)

def MOp.wf (o : MOp) : Bool :=
  decide (o.d < 64) && decide (o.a < 64) && decide (o.s < 16) && flagOk o.f && decide (o.g < 16)

def MSt.wf (o : MSt) : Bool :=
  decide (o.d < 64) && decide (o.a < 64) && decide (o.s < 16) && decide (o.g < 16)

/-- The operation codes legal with a data type (R82). -/
def atomicOk (op kind : Nat) : Bool :=
  if op < 13 then decide (kind < 2)
  else if op = 13 then kind == 0 || kind == 2 || kind == 3
  else decide (op < 16) && kind == 0

def AtOp.wf (o : AtOp) : Bool :=
  decide (o.s < 64) && decide (o.v < 64) && flagOk o.f && decide (o.scope < 7) && decide (o.kind < 4) &&
    decide (o.mode < 4) && decide (o.cr < 64) && decide (o.d < 64) && decide (o.g < 16) && atomicOk o.op o.kind

def RedOp.wf (o : RedOp) : Bool :=
  decide (o.s < 64) && decide (o.v < 64) && decide (o.scope < 7) && decide (o.kind < 4) && (o.mode == 0 || o.mode == 2) &&
    decide (o.cr < 64) && decide (o.g < 16) && atomicOk o.op o.kind && !(o.op == 10)

def DrOp.wf (o : DrOp) : Bool :=
  decide (o.x < 64) && decide (o.x % 4 = 0) && decide (o.y < 64) && flagOk o.f && decide (o.g < 16)

def MmaOp.wf (o : MmaOp) : Bool :=
  decide (o.zd < 32) && decide (o.za < 32) && decide (o.zb < 32) && decide (o.fmt < 16) && decide (o.acc < 8) && decide (o.mode < 4)

/-- The format codes a space has (R237). -/
def regFmtOk (space fmt : Nat) : Bool :=
  (space == 0 && decide (fmt < 14)) || (space == 1 && decide (fmt < 4)) ||
    (space == 2 && (decide (fmt < 10) || fmt == 15))

def RegZ.wf (o : RegZ) : Bool :=
  decide (o.z < 32) && decide (o.space < 3) && decide (o.fmt < 16) && regFmtOk o.space o.fmt && decide (o.nr < 64) && decide (o.nc < 64) &&
    decide (o.rel < 2) && decide (o.base < 16384) && decide (o.stride < 1024)

/-- Every field of the instruction is one that an encoding can carry. -/
def Instr.wf : Instr → Bool
  | .nop => true
  | .sadd d a b => decide (d < 64) && decide (a < 64) && decide (b < 64)
  | .ssub d a b => decide (d < 64) && decide (a < 64) && decide (b < 64)
  | .smul d a b => decide (d < 64) && decide (a < 64) && decide (b < 64)
  | .smulh d a b => decide (d < 64) && decide (a < 64) && decide (b < 64)
  | .sand d a b => decide (d < 64) && decide (a < 64) && decide (b < 64)
  | .sor d a b => decide (d < 64) && decide (a < 64) && decide (b < 64)
  | .sxor d a b => decide (d < 64) && decide (a < 64) && decide (b < 64)
  | .sandn d a b => decide (d < 64) && decide (a < 64) && decide (b < 64)
  | .sshl d a b => decide (d < 64) && decide (a < 64) && decide (b < 64)
  | .sshr d a b => decide (d < 64) && decide (a < 64) && decide (b < 64)
  | .ssar d a b => decide (d < 64) && decide (a < 64) && decide (b < 64)
  | .smin d a b => decide (d < 64) && decide (a < 64) && decide (b < 64)
  | .smax d a b => decide (d < 64) && decide (a < 64) && decide (b < 64)
  | .sminu d a b => decide (d < 64) && decide (a < 64) && decide (b < 64)
  | .smaxu d a b => decide (d < 64) && decide (a < 64) && decide (b < 64)
  | .sclz d a => decide (d < 64) && decide (a < 64)
  | .spopc d a => decide (d < 64) && decide (a < 64)
  | .smov d a => decide (d < 64) && decide (a < 64)
  | .smad d a b r => decide (d < 64) && decide (a < 64) && decide (b < 64) && decide (r < 64)
  | .ssel d a b r => decide (d < 64) && decide (a < 64) && decide (b < 64) && decide (r < 64)
  | .sbfx d a p l => decide (d < 64) && decide (a < 64) && decide (p + l < 64)
  | .sbfi d a p l => decide (d < 64) && decide (a < 64) && decide (p + l < 64)
  | .scmp d a b q => decide (d < 64) && decide (a < 64) && decide (b < 64) && decide (q < 6)
  | .sldi d i => decide (d < 64) && decide (i < 4096)
  | .sldiLong d i => decide (d < 64) && decide (i < 4294967296)
  | .saddi d a i => decide (d < 64) && decide (a < 64) && decide (i < 4096)
  | .saddiLong d a i => decide (d < 64) && decide (a < 64) && decide (i < 4294967296)
  | .sldl d a i => decide (d < 64) && decide (a < 64) && decide (i < 4096)
  | .sldlLong d a i => decide (d < 64) && decide (a < 64) && decide (i < 4294967296)
  | .sget d n => decide (d < 64) && sgetNumber n
  | .sgetRcv d n => decide (d < 64) && decide (n < 4) && decide (d % 2 = 0)
  | .ssetSnd a n => decide (a < 64) && decide (n < 4) && decide (a % 2 = 0)
  | .ssetSndcfg a n => decide (a < 64) && decide (n < 4)
  | .ssetMask a => decide (a < 64)
  | .ssetFpmode a => decide (a < 64)
  | .ssetFpflags a => decide (a < 64)
  | .ssetGreedy a => decide (a < 64)
  | .bra o => decide (o < 65536)
  | .brc r q o => decide (r < 64) && decide (q < 4) && decide (o < 65536)
  | .brm q o => decide (q < 3) && decide (o < 65536)
  | .call k o => decide (k < 64) && decide (o < 65536)
  | .jmp a => decide (a < 64)
  | .callr k a => decide (k < 64) && decide (a < 64)
  | .ret k a => decide (k < 64) && decide (a < 64)
  | .exit => true
  | .yield => true
  | .wait m => decide (m < 4096)
  | .trap i => decide (i < 4096)
  | .brk i => decide (i < 4096)
  | .pand d a b => decide (d < 64) && decide (a < 64) && decide (b < 64)
  | .por d a b => decide (d < 64) && decide (a < 64) && decide (b < 64)
  | .pxor d a b => decide (d < 64) && decide (a < 64) && decide (b < 64)
  | .pandn d a b => decide (d < 64) && decide (a < 64) && decide (b < 64)
  | .pnot d a => decide (d < 64) && decide (a < 64)
  | .pmov d a => decide (d < 64) && decide (a < 64)
  | .pseti d v => decide (d < 64) && decide (v < 2)
  | .pany d a => decide (d < 64) && decide (a < 64)
  | .pall d a => decide (d < 64) && decide (a < 64)
  | .pcnt d a => decide (d < 64) && decide (a < 64)
  | .pfirst d a => decide (d < 64) && decide (a < 64)
  | .mpush a => decide (a < 64)
  | .melse => true
  | .mpop => true
  | .msave d => decide (d < 64)
  | .mload a => decide (a < 64)
  | .vadd o => o.wf
  | .vsub o => o.wf
  | .vadds o => o.wf
  | .vsubs o => o.wf
  | .vmul o => o.wf
  | .vmulh o => o.wf
  | .vmad o r => o.wf && decide (r < 64)
  | .vdot4 o r _ => o.wf && [1, 2].elem o.t && decide (r < 64)
  | .vand o => o.wf
  | .vor o => o.wf
  | .vxor o => o.wf
  | .vshl o => o.wf
  | .vshr o => o.wf
  | .vsar o => o.wf
  | .vmin o => o.wf
  | .vmax o => o.wf
  | .vminu o => o.wf
  | .vmaxu o => o.wf
  | .vabs o => o.wf
  | .vneg o => o.wf
  | .vclz o => o.wf
  | .vpopc o => o.wf
  | .vmov o => o.wf
  | .vlane d g => decide (d < 64) && decide (g < 16)
  | .vbcs o => o.wf
  | .vbfx o p l => o.wf && [0, 3].elem o.t && decide (p < 64) && decide (l < 64) && decide (p + l < (if o.t = 3 then 64 else 32))
  | .vbfi o p l => o.wf && [0, 3].elem o.t && decide (p < 64) && decide (l < 64) && decide (p + l < (if o.t = 3 then 64 else 32))
  | .vsel o r => o.wf && [0, 3].elem o.t && decide (r < 64)
  | .vcmp o q => o.wf && [0, 3].elem o.t && decide (q < 10)
  | .vldi d i => decide (d < 64) && decide (i < 4096)
  | .vldiLong d i => decide (d < 64) && decide (i < 4294967296)
  | .fadd o => o.wf
  | .faddLong o rm => o.wf && rmOk rm
  | .fsub o => o.wf
  | .fsubLong o rm => o.wf && rmOk rm
  | .fmul o => o.wf
  | .fmulLong o rm => o.wf && rmOk rm
  | .ffma o r rm => o.wf && decide (r < 64) && rmOk rm
  | .fmin o => o.wf
  | .fmax o => o.wf
  | .fminp o => o.wf
  | .fmaxp o => o.wf
  | .fabs o => o.wf
  | .fneg o => o.wf
  | .fcps o => o.wf
  | .fcmp o q => o.wf && [0, 3].elem o.t && decide (q < 8)
  | .fcls o => o.wf
  | .fscl o => o.wf
  | .fsclLong o rm => o.wf && rmOk rm
  | .fcvt o sf df rm _ => o.wf && [0].elem o.t && rmOk rm && decide (sf < 6) && decide (df < 6)
  | .frnd o => o.wf
  | .frndLong o rm => o.wf && rmOk rm
  | .fcvi o ity rm _ => o.wf && rmOk rm && ityOk o.t ity
  | .fciv o ity rm => o.wf && rmOk rm && ityOk o.t ity
  | .fdiv o => o.wf
  | .fdivLong o rm => o.wf && rmOk rm
  | .fsqrt o => o.wf
  | .fsqrtLong o rm => o.wf && rmOk rm
  | .fdot2 o r rm => o.wf && [1, 2].elem o.t && decide (r < 64) && rmOk rm
  | .frcp o => o.wf && [0, 1, 2].elem o.t
  | .frsq o => o.wf && [0, 1, 2].elem o.t
  | .fexp2 o => o.wf && [0, 1, 2].elem o.t
  | .flog2 o => o.wf && [0, 1, 2].elem o.t
  | .fsin o => o.wf && [0, 1, 2].elem o.t
  | .fcos o => o.wf && [0, 1, 2].elem o.t
  | .ftanh o => o.wf && [0, 1, 2].elem o.t
  | .fsigm o => o.wf && [0, 1, 2].elem o.t
  | .ftab d a n g => decide (d < 64) && decide (a < 64) && decide (n < 4) && decide (g < 16)
  | .tabld n s f => decide (n < 4) && decide (s < 16) && flagOk f
  | .shfl o => o.wf && [0, 3].elem o.t
  | .shfu d a n => decide (d < 64) && decide (a < 64) && decide (n < 64)
  | .shfd d a n => decide (d < 64) && decide (a < 64) && decide (n < 64)
  | .shfx d a n => decide (d < 64) && decide (a < 64) && decide (n < 64)
  | .vbcl d a n => decide (d < 64) && decide (a < 64) && decide (n < 64)
  | .vred o q => o.wf && decide (q < 8)
  | .vscn o q => o.wf && decide (q < 8)
  | .fred o q => o.wf && decide (q < 3)
  | .fscn o q => o.wf && decide (q < 3)
  | .ball d a g => decide (d < 64) && decide (a < 64) && decide (g < 16)
  | .vmtc o => o.wf && [0, 3].elem o.t
  | .vcpt o => o.wf && [0, 3].elem o.t
  | .vhq o r q => o.wf && [0].elem o.t && decide (r < 64) && decide (q < 5)
  | .vq8 o r q rm _ => o.wf && [0].elem o.t && decide (r < 64) && decide (q < 2) && rmOk rm
  | .vdq o r q => o.wf && [0].elem o.t && decide (r < 64) && decide (q < 2)
  | .vbsd o r q rm => o.wf && [0, 1].elem o.t && decide (r < 64) && decide (q < 256) && rmOk rm && decide (o.a % 2 = 0) && decide (o.b % 2 = 0)
  | .ldg8 o => o.wf
  | .ldg8Long o off => o.wf && decide (off < 16777216)
  | .ldg16 o => o.wf
  | .ldg16Long o off => o.wf && decide (off < 16777216)
  | .ldg32 o => o.wf
  | .ldg32Long o off => o.wf && decide (off < 16777216)
  | .ldg64 o => o.wf
  | .ldg64Long o off => o.wf && decide (off < 16777216)
  | .stg8 o => o.wf
  | .stg8Long o off => o.wf && decide (off < 16777216)
  | .stg16 o => o.wf
  | .stg16Long o off => o.wf && decide (off < 16777216)
  | .stg32 o => o.wf
  | .stg32Long o off => o.wf && decide (off < 16777216)
  | .stg64 o => o.wf
  | .stg64Long o off => o.wf && decide (off < 16777216)
  | .ldl32 o => o.wf
  | .ldl32Long o off => o.wf && decide (off < 16777216)
  | .ldl64 o => o.wf
  | .ldl64Long o off => o.wf && decide (off < 16777216)
  | .stl32 o => o.wf
  | .stl32Long o off => o.wf && decide (off < 16777216)
  | .stl64 o => o.wf
  | .stl64Long o off => o.wf && decide (off < 16777216)
  | .ldx o => o.wf
  | .ldxLong o off => o.wf && decide (off < 16777216)
  | .stx o => o.wf
  | .stxLong o off => o.wf && decide (off < 16777216)
  | .ldk32 d s => decide (d < 64) && decide (s < 16)
  | .ldk32Long d s off => decide (d < 64) && decide (s < 16) && decide (off < 16777216)
  | .ldk64 d s => decide (d < 64) && decide (s < 16)
  | .ldk64Long d s off => decide (d < 64) && decide (s < 16) && decide (off < 16777216)
  | .tld s f => decide (s < 16) && decide (s % 2 = 0) && flagOk f
  | .tldLong s f off => decide (s < 16) && decide (s % 2 = 0) && flagOk f && decide (off < 16777216)
  | .tst s f => decide (s < 16) && decide (s % 2 = 0) && flagOk f
  | .tstLong s f off => decide (s < 16) && decide (s % 2 = 0) && flagOk f && decide (off < 16777216)
  | .pfg a s g => decide (a < 64) && decide (s < 16) && decide (g < 16)
  | .pfgLong a s g off => decide (a < 64) && decide (s < 16) && decide (g < 16) && decide (off < 16777216)
  | .xmap s => decide (s < 16) && decide (s % 2 = 0)
  | .xmapLong s off => decide (s < 16) && decide (s % 2 = 0) && decide (off < 16777216)
  | .xunmap s => decide (s < 16)
  | .xwb s => decide (s < 16)
  | .xinv s => decide (s < 16)
  | .atg o => o.wf
  | .atl o => o.wf && decide (o.scope < 2)
  | .redg o => o.wf
  | .redl o => o.wf && decide (o.scope < 2)
  | .enq s v f m => decide (s < 64) && decide (s % 4 = 0) && decide (v < 64) && flagOk f && decide (m < 2)
  | .deq s v f m => decide (s < 64) && decide (s % 4 = 0) && decide (v < 64) && flagOk f && decide (m < 2)
  | .qlen s v => decide (s < 64) && decide (v < 64)
  | .qcls s => decide (s < 64)
  | .grab s v => decide (s < 64) && decide (s % 4 = 0) && decide (v < 64)
  | .fence p m => decide (p < 7) && decide (1 ≤ m ∧ m < 4)
  | .acq s p m => decide (s < 64) && decide (p < 7) && decide (m < 2)
  | .rel s p => decide (s < 64) && decide (p < 7)
  | .teth s v p => decide (s < 64) && decide (v < 64) && decide (v % 2 = 0) && decide (p < 7)
  | .unte s v p => decide (s < 64) && decide (v < 64) && decide (v % 2 = 0) && decide (p < 7)
  | .barv s v p => decide (s < 64) && harnessOk v p
  | .bwat s v p => decide (s < 64) && harnessOk v p
  | .bsyn v p => harnessOk v p
  | .bmsk s v p m => decide (s < 64) && harnessOk v p && decide (m < (if p = 1 then 2 else 1))
  | .aini s v => decide (s < 64) && decide (v < 64)
  | .aarv s v p m => decide (s < 64) && decide (v < 64) && decide (p < 7) && decide (m < 2)
  | .awat s v p => decide (s < 64) && decide (v < 64) && decide (p < 7)
  | .wadr s v p m => decide (s < 64) && decide (v < 64) && decide (p < 7) && decide (m < 4)
  | .dcpy o => o.wf
  | .dcpyLong o aoff => o.wf && decide (aoff < 1048576) && decide (aoff % 16 = 0)
  | .dgth o => o.wf
  | .dgthLong o aoff => o.wf && decide (aoff < 1048576) && decide (aoff % 16 = 0)
  | .dsct o => o.wf
  | .dsctLong o aoff => o.wf && decide (aoff < 1048576) && decide (aoff % 16 = 0)
  | .dmcs o => o.wf
  | .dmcsLong o aoff => o.wf && decide (aoff < 1048576) && decide (aoff % 16 = 0)
  | .dcmt o => o.wf
  | .dcmtLong o aoff => o.wf && decide (aoff < 1048576) && decide (aoff % 16 = 0)
  | .dfil o => o.wf
  | .dfilLong o aoff => o.wf && decide (aoff < 1048576) && decide (aoff % 16 = 0)
  | .dcol o => o.wf
  | .dcolLong o aoff => o.wf && decide (aoff < 1048576) && decide (aoff % 16 = 0)
  | .dsts x => decide (x < 64) && decide (x % 4 = 0)
  | .dfnc y => decide (y < 2)
  | .pdnew x y => decide (x < 64) && decide (x % 4 = 0) && decide (y < 2)
  | .pdatt x y f => decide (x < 64) && decide (x % 4 = 0) && decide (y < 2) && flagOk f
  | .pddet x => decide (x < 64) && decide (x % 4 = 0)
  | .pdevi x y => decide (x < 64) && decide (x % 4 = 0) && decide (y < 2)
  | .pdqry x => decide (x < 64) && decide (x % 4 = 0)
  | .csrr d n => decide (d < 64) && csrReadable n
  | .csrw a n => decide (a < 64) && csrWritable n
  | .csrwTinj a => decide (a < 64)
  | .eret => true
  | .tlbi a k => decide (a < 64) && decide (k < 2) && decide (k = 0 ∨ a = 0)
  | .sread p => decide (p < 64) && decide (p % 2 = 0)
  | .halt => true
  | .mnop => true
  | .msetz r => r.wf
  | .mzer z => decide (z < 32)
  | .mma o mf _ arank k => o.wf && mfOk mf && decide (arank < 8) && decide (k < 512)
  | .mmag o mf zt gm k => o.wf && mfOk mf && decide (zt < 32) && decide (gm < 16) && decide (k < 512) && decide (o.mode ≠ 0 ∨ zt = 0)
  | .mmat o mf zm k => o.wf && mfOk mf && decide (zm < 32) && decide (k < 512) && decide (o.mode ≠ 0 ∨ zm = 0)
  | .mldw zw zs mf => decide (zw < 32) && decide (zs < 32) && mfOk mf
  | .mdrn zd zs sh _ _ tbl mf _ => decide (zd < 32) && decide (zs < 32) && decide (sh < 256) && decide (tbl < 4) && mfOk mf
  | .mbar n m => decide (n < 16) && decide (m < 3)
  | .mwat k st off => decide (k < 256) && decide (off < 32768) && decide (st = true ∨ off = 0)
  | .mlop n cnt => decide (n < 4) && decide (1 ≤ cnt ∧ cnt < 4194304)
  | .mbra o => decide (o < 65536)
  | .mbraLoop n o => decide (n < 4) && decide (o < 65536)
  | .mend => true
  | .tableSwap _ _ => true
  | .drayJobStop _ => true
  | .drayJobComplete _ => true
  | .paddockWritebackComplete _ => true
  | .paddockFillComplete _ => true
  | .arrayDispatch _ => true
  | .matrixOpComplete _ => true
  | .loadComplete _ => true
  | .storeAck _ => true
  | .atomicComplete _ => true
  | .sliceLoad _ => true
  | .sliceStore _ => true
  | .sliceAtomic _ => true
  | .sliceReduce _ => true
  | .sliceLineFill _ _ => true
  | .tileLockAcquired _ => true
  | .tileComplete _ => true
  | .enqAtHome _ => true
  | .deqAtHome _ => true
  | .deqWaitServed _ => true
  | .grabAtHome _ => true
  | .queueReply _ => true
  | .queueRefillMove _ => true
  | .prodsDecrement _ => true
  | .guardRequestAtHome _ => true
  | .guardGrant _ => true
  | .guardReleaseAtHome _ => true
  | .reinFlitDeliver _ _ => true
  | .faultRecordEnqueue _ => true
  | .pageWalkComplete _ => true
  | .distributorEvaluate _ => true
  | .maxbClaimReply _ => true
  | .hitchRequest _ => true
  | .hitchReserve _ _ => true
  | .hitchResponse _ => true
  | .hitchCommit _ _ => true
  | .hitchCancel _ _ => true
  | .blockRetire _ => true
  | .completionEventEnqueue _ => true
  | .launchComplete _ => true
  | .whiffletreeSample _ => true
  | .whiffletreeTableWrite _ => true
  | .sliceExpiry _ => true
  | .drainComplete _ => true
  | .partitionSaved _ => true
  | .hbmAgeCapExpiry _ => true
  | .hbmRefresh _ => true
  | .reqFrame _ => true
  | .rspFrame _ => true
  | .fwdFrame _ => true
  | .sumFrame _ => true
  | .mcdFrame _ => true
  | .mcrFrame _ => true
  | .colFrame _ => true
  | .collectiveComplete _ => true
  | .ackFrame _ _ => true
  | .nakFrame _ _ _ => true
  | .retransmitTimeout _ => true
  | .routeTimeout _ => true
  | .partnerLinkLoss _ => true
  | .sumTimer _ => true
  | .portFrameTime _ => true
  | .heldRecordsMove _ _ => true
  | .tailWrite _ _ => true
  | .flpop _ => true
  | .rdmaWrite _ => true
  | .rdmaRead _ => true
  | .fetchAdd _ => true
  | .cmpSwap _ => true
  | .hostRetryExhausted _ _ => true
  | .nopPacket _ => true
  | .write _ => true
  | .writeSignal _ => true
  | .waitMem _ => true
  | .waitMemRetest _ => true
  | .waitMemPoll _ => true
  | .pred _ => true
  | .indirect _ => true
  | .loop _ => true
  | .launchGraph _ => true
  | .fetchFence _ => true
  | .link _ => true
  | .segmentReturn _ _ => true
  | .collective _ => true
  | .event _ => true
  | .timestamp _ => true
  | .commandLineFetch _ _ _ => true
  | .wqConfig _ => true
  | .wqStop _ => true
  | .wqResume _ => true
  | .unitResume _ => true
  | .unitTerminate _ => true
  | .unitHalt _ => true
  | .graphRemove _ => true
  | .sliceSet _ => true
  | .stateRead _ => true
  | .stateWrite _ => true
  | .ctxSet _ => true
  | .ctxDel _ => true
  | .imgLoad _ => true
  | .attest _ => true
  | .keyRetain _ => true
  | .partSet _ => true
  | .ownXfer _ => true
  | .claim _ => true
  | .release _ => true
  | .setId _ => true
  | .coldReset => true
  | .warmReset => true
  | .pinsReleased => true
  | .trainComplete _ _ => true
  | .clearComplete => true
  | .ostlerIntegrityError => true
  | .rasEvent _ => true
  | .powerLimit _ => true
  | .powerLimitLifted _ => true
  | .connectionExchange _ => true
  | .geldyLinkTraining _ => true
  | .congestionNotification _ _ => true

end Sys2Proof
end

