-- ==== Sys2Proof/Decode.lean ====
section
/-! DEFINITION. From words to instructions and back (R57 to R85). Decoding is total and rejects by name; encoding is
written from the same tables. -/

namespace Sys2Proof

/-- Why a word is no instruction. `unit` is the pipe of R67 (S 0, V 1, X 2, M 3, E 4, coachman 5). -/
inductive DecodeErr where
  /-- unassigned opcode, stray extension word or erased memory: 48, coachman 40 -/
  | illegalOpcode
  /-- a sub-op, KIND or MODE value the group does not define -/
  | reservedSubOp (unit : Nat)
  /-- a non-zero reserved bit or unused payload field -/
  | reservedField (unit : Nat)
  /-- a reserved operand code or an operand outside its class -/
  | illegalOperand (unit : Nat)
  /-- an illegal chain, packet or long form: 52, coachman 44 -/
  | illegalPacket
  /-- a POOL marker or a listed pool: 54 -/
  | poolExecution
deriving DecidableEq, Repr

/-- The cause code (R67, R85). -/
def DecodeErr.code (coach : Bool) : DecodeErr → Nat
  | .illegalOpcode => if coach then 40 else 48
  | .reservedSubOp u => 8 * u + 1
  | .reservedField u => 8 * u + 2
  | .illegalOperand u => 8 * u + 3
  | .illegalPacket => if coach then 44 else 52
  | .poolExecution => 54

/-- The fields of an instruction word (R57, R65): opcode and the four 6-bit parts of the body. -/
structure Fld where
  op : Nat
  f1 : Nat
  f2 : Nat
  f3 : Nat
  f4 : Nat
deriving DecidableEq, Repr

/-- The four 6-bit parts of an extension payload (R63, R64). -/
structure Ext where
  e1 : Nat
  e2 : Nat
  e3 : Nat
  e4 : Nat
deriving DecidableEq, Repr

abbrev Dec := Except DecodeErr Instr

/-- Reject with `e` when `b` holds. -/
def rej (b : Bool) (e : DecodeErr) (k : Dec) : Dec := if b then .error e else k

def Fld.v3 (f : Fld) : V3 := ⟨f.f1, f.f2, f.f3, f.f4 / 4, f.f4 % 4⟩
def Fld.v2 (f : Fld) : V2 := ⟨f.f1, f.f2, f.f4 / 4, f.f4 % 4⟩
/-- T of forms A, S and P (R65). -/
def Fld.lo2 (f : Fld) : Nat := f.f4 % 4
/-- The sub-op of forms S and P (R65). -/
def Fld.sub (f : Fld) : Nat := f.f4 / 4
/-- IMM12 (R66). -/
def Fld.imm (f : Fld) : Nat := f.f3 * 64 + f.f4
/-- OFF16 (R66). -/
def Fld.off16 (f : Fld) : Nat := f.f2 % 16 * 4096 + f.f3 * 64 + f.f4
/-- Form M: S4, F and G (R65). -/
def Fld.s4 (f : Fld) : Nat := f.f3 / 4
def Fld.mf (f : Fld) : Nat := f.f3 % 4 * 4 + f.f4 / 16
def Fld.mg (f : Fld) : Nat := f.f4 % 16
/-- Form Y: F, SCOPE, KIND and MODE (R65). -/
def Fld.yf (f : Fld) : Nat := f.f3 / 4
def Fld.scope (f : Fld) : Nat := f.f3 % 4 * 2 + f.f4 / 32
def Fld.kind (f : Fld) : Nat := f.f4 / 4 % 8
def Fld.mode (f : Fld) : Nat := f.f4 % 4
/-- Form E: SUB (R65). -/
def Fld.esub (f : Fld) : Nat := f.f3 % 4 * 4 + f.f4 / 16
/-- Form Z: the CSR number (R65). -/
def Fld.csrn (f : Fld) : Nat := f.f2 * 64 + f.f3

def Ext.rm (e : Ext) : Nat := e.e2 / 8
def Ext.sat (e : Ext) : Bool := e.e2 / 4 % 2 == 1
def Ext.xf (e : Ext) : Nat := e.e2 % 4 * 4096 + e.e3 * 64 + e.e4
/-- The whole 24-bit payload: OFF24, AOFF or IHI (R64). -/
def Ext.all (e : Ext) : Nat := e.e1 * 262144 + e.e2 * 4096 + e.e3 * 64 + e.e4

/-- The XI immediate: IHI above bits 7:0 of IMM12 (R64). -/
def immXI (f : Fld) (e : Ext) : Nat := e.all * 256 + f.imm % 256

/-- Some field of an XR payload that the instruction does not use is non-zero (R80); `xw` bounds the XF codes in use. -/
def xrBad (e : Ext) (cr rm sat : Bool) (xw : Nat) : Bool :=
  (!cr && e.e1 != 0) || (!rm && e.rm != 0) || (!sat && e.sat) || decide (xw ≤ e.xf)

/-- The extension that a class-L instruction always has (R79). -/
def needExt (x : Option Ext) (k : Ext → Dec) : Dec :=
  match x with
  | none => .error .illegalPacket
  | some e => k e

/-- Opcodes 0x00 to 0x0F: scalar instructions (R86 to R90). -/
def decScalar (f : Fld) (x : Option Ext) : Dec :=
  match f.op with
  | 0x00 => rej (f.f1 != 0 || f.f2 != 0 || f.f3 != 0 || f.f4 != 0) (.reservedField 0) (.ok .nop)
  | 0x01 =>
    rej (f.sub == 15) (.reservedSubOp 0) <| rej (f.lo2 != 0) (.reservedField 0) <| .ok <|
      match f.sub with
      | 0 => .sadd f.f1 f.f2 f.f3
      | 1 => .ssub f.f1 f.f2 f.f3
      | 2 => .smul f.f1 f.f2 f.f3
      | 3 => .smulh f.f1 f.f2 f.f3
      | 4 => .sand f.f1 f.f2 f.f3
      | 5 => .sor f.f1 f.f2 f.f3
      | 6 => .sxor f.f1 f.f2 f.f3
      | 7 => .sandn f.f1 f.f2 f.f3
      | 8 => .sshl f.f1 f.f2 f.f3
      | 9 => .sshr f.f1 f.f2 f.f3
      | 10 => .ssar f.f1 f.f2 f.f3
      | 11 => .smin f.f1 f.f2 f.f3
      | 12 => .smax f.f1 f.f2 f.f3
      | 13 => .sminu f.f1 f.f2 f.f3
      | _ => .smaxu f.f1 f.f2 f.f3
  | 0x02 =>
    rej (decide (3 ≤ f.sub)) (.reservedSubOp 0) <| rej (f.lo2 != 0 || f.f3 != 0) (.reservedField 0) <| .ok <|
      match f.sub with
      | 0 => .sclz f.f1 f.f2
      | 1 => .spopc f.f1 f.f2
      | _ => .smov f.f1 f.f2
  | 0x03 => needExt x fun e =>
    rej (f.sub != 0) (.reservedSubOp 0) <| rej (f.lo2 != 0 || xrBad e true false false 1) (.reservedField 0) <|
      .ok (.smad f.f1 f.f2 f.f3 e.e1)
  | 0x04 => rej (decide (64 ≤ f.f3 + f.f4)) (.illegalOperand 0) <| .ok (.sbfx f.f1 f.f2 f.f3 f.f4)
  | 0x05 => rej (decide (64 ≤ f.f3 + f.f4)) (.illegalOperand 0) <| .ok (.sbfi f.f1 f.f2 f.f3 f.f4)
  | 0x06 => needExt x fun e =>
    rej (f.sub != 0) (.reservedSubOp 0) <| rej (f.lo2 != 0 || xrBad e true false false 1) (.reservedField 0) <|
      .ok (.ssel f.f1 f.f2 f.f3 e.e1)
  | 0x07 =>
    rej (decide (6 ≤ f.sub)) (.reservedSubOp 0) <| rej (f.lo2 != 0) (.reservedField 0) <|
      .ok (.scmp f.f1 f.f2 f.f3 f.sub)
  | 0x08 =>
    rej (f.f2 != 0) (.reservedField 0) <|
      match x with
      | none => .ok (.sldi f.f1 f.imm)
      | some e => rej (decide (4 ≤ f.f3)) (.reservedField 0) <| .ok (.sldiLong f.f1 (immXI f e))
  | 0x09 =>
    match x with
    | none => .ok (.saddi f.f1 f.f2 f.imm)
    | some e => rej (decide (4 ≤ f.f3)) (.reservedField 0) <| .ok (.saddiLong f.f1 f.f2 (immXI f e))
  | 0x0A =>
    match x with
    | none => .ok (.sldl f.f1 f.f2 f.imm)
    | some e => rej (decide (4 ≤ f.f3)) (.reservedField 0) <| .ok (.sldlLong f.f1 f.f2 (immXI f e))
  | 0x0B =>
    rej (f.f2 != 0) (.reservedField 0) <|
      if 20 ≤ f.imm ∧ f.imm < 24 then
        rej (f.f1 % 2 != 0) (.illegalOperand 0) <| .ok (.sgetRcv f.f1 (f.imm - 20))
      else rej (!sgetNumber f.imm) (.illegalOperand 0) <| .ok (.sget f.f1 f.imm)
  | 0x0C =>
    rej (f.f1 != 0) (.reservedField 0) <|
      if f.imm = 9 then .ok (.ssetMask f.f2)
      else if f.imm = 10 then .ok (.ssetFpmode f.f2)
      else if f.imm = 11 then .ok (.ssetFpflags f.f2)
      else if f.imm = 12 then .ok (.ssetGreedy f.f2)
      else if 16 ≤ f.imm ∧ f.imm < 20 then
        rej (f.f2 % 2 != 0) (.illegalOperand 0) <| .ok (.ssetSnd f.f2 (f.imm - 16))
      else if 24 ≤ f.imm ∧ f.imm < 28 then .ok (.ssetSndcfg f.f2 (f.imm - 24))
      else .error (.illegalOperand 0)
  | _ => .error .illegalOpcode

/-- Opcodes 0x10 to 0x1F: control, predicates and masks (R92 to R105). -/
def decControl (f : Fld) : Dec :=
  match f.op with
  | 0x10 => rej (f.f1 != 0 || decide (16 ≤ f.f2)) (.reservedField 0) <| .ok (.bra f.off16)
  | 0x11 => .ok (.brc f.f1 (f.f2 / 16) f.off16)
  | 0x12 =>
    rej (f.f1 != 0) (.reservedField 0) <| rej (f.f2 / 16 == 3) (.illegalOperand 0) <| .ok (.brm (f.f2 / 16) f.off16)
  | 0x13 =>
    rej (decide (5 ≤ f.sub)) (.reservedSubOp 0) <|
      rej (f.lo2 != 0 || f.f3 != 0 || (f.f1 != 0 && !(f.sub == 1 || f.sub == 2)) || (f.f2 != 0 && decide (3 ≤ f.sub)))
        (.reservedField 0) <| .ok <|
      match f.sub with
      | 0 => .jmp f.f2
      | 1 => .callr f.f1 f.f2
      | 2 => .ret f.f1 f.f2
      | 3 => .exit
      | _ => .yield
  | 0x14 => rej (decide (16 ≤ f.f2)) (.reservedField 0) <| .ok (.call f.f1 f.off16)
  | 0x15 => rej (f.f1 != 0 || f.f2 != 0) (.reservedField 0) <| .ok (.wait f.imm)
  | 0x16 =>
    rej (decide (2 ≤ f.f1)) (.reservedSubOp 0) <| rej (f.f2 != 0) (.reservedField 0) <| .ok <|
      match f.f1 with
      | 0 => .trap f.imm
      | _ => .brk f.imm
  | 0x18 =>
    rej (decide (6 ≤ f.sub)) (.reservedSubOp 1) <|
      rej (f.lo2 != 0 || (f.f3 != 0 && decide (4 ≤ f.sub))) (.reservedField 1) <| .ok <|
      match f.sub with
      | 0 => .pand f.f1 f.f2 f.f3
      | 1 => .por f.f1 f.f2 f.f3
      | 2 => .pxor f.f1 f.f2 f.f3
      | 3 => .pandn f.f1 f.f2 f.f3
      | 4 => .pnot f.f1 f.f2
      | _ => .pmov f.f1 f.f2
  | 0x19 =>
    rej (f.sub != 0) (.reservedSubOp 1) <| rej (f.lo2 != 0 || f.f3 != 0) (.reservedField 1) <|
      rej (decide (2 ≤ f.f2)) (.illegalOperand 1) <| .ok (.pseti f.f1 f.f2)
  | 0x1A =>
    rej (decide (4 ≤ f.sub)) (.reservedSubOp 2) <| rej (f.lo2 != 0 || f.f3 != 0) (.reservedField 2) <| .ok <|
      match f.sub with
      | 0 => .pany f.f1 f.f2
      | 1 => .pall f.f1 f.f2
      | 2 => .pcnt f.f1 f.f2
      | _ => .pfirst f.f1 f.f2
  | 0x1B =>
    rej (decide (5 ≤ f.sub)) (.reservedSubOp 0) <|
      rej (f.lo2 != 0 || f.f3 != 0 || (f.f1 != 0 && f.sub != 3) || (f.f2 != 0 && !(f.sub == 0 || f.sub == 4)))
        (.reservedField 0) <| .ok <|
      match f.sub with
      | 0 => .mpush f.f2
      | 1 => .melse
      | 2 => .mpop
      | 3 => .msave f.f1
      | _ => .mload f.f2
  | _ => .error .illegalOpcode

/-- Opcodes 0x20 to 0x37: vector integer instructions (R109 to R112). Of opcode 0x32 R111 gives the source in A, against the row of R81; A must be
0 only in VLANE, which has no source (DEDUCED, log 83). -/
def decVecInt (f : Fld) (x : Option Ext) : Dec :=
  match f.op with
  | 0x20 => .ok (.vadd f.v3)
  | 0x21 => .ok (.vsub f.v3)
  | 0x22 => .ok (.vadds f.v3)
  | 0x23 => .ok (.vsubs f.v3)
  | 0x24 => .ok (.vmul f.v3)
  | 0x25 => .ok (.vmulh f.v3)
  | 0x26 => needExt x fun e =>
    rej (xrBad e true false false 1) (.reservedField 1) <| .ok (.vmad f.v3 e.e1)
  | 0x27 => needExt x fun e =>
    rej (xrBad e true false true 1) (.reservedField 1) <|
      rej (!(f.lo2 == 1 || f.lo2 == 2)) (.illegalOperand 1) <| .ok (.vdot4 f.v3 e.e1 e.sat)
  | 0x28 => .ok (.vand f.v3)
  | 0x29 => .ok (.vor f.v3)
  | 0x2A => .ok (.vxor f.v3)
  | 0x2B => .ok (.vshl f.v3)
  | 0x2C => .ok (.vshr f.v3)
  | 0x2D => .ok (.vsar f.v3)
  | 0x2E => .ok (.vmin f.v3)
  | 0x2F => .ok (.vmax f.v3)
  | 0x30 => .ok (.vminu f.v3)
  | 0x31 => .ok (.vmaxu f.v3)
  | 0x32 =>
    rej (decide (7 ≤ f.f3)) (.reservedSubOp 1) <| rej (f.f3 == 5 && f.f2 != 0) (.reservedField 1) <|
      rej (f.f3 == 5 && f.lo2 != 0) (.illegalOperand 1) <| .ok <|
      match f.f3 with
      | 0 => .vabs f.v2
      | 1 => .vneg f.v2
      | 2 => .vclz f.v2
      | 3 => .vpopc f.v2
      | 4 => .vmov f.v2
      | 5 => .vlane f.f1 (f.f4 / 4)
      | _ => .vbcs f.v2
  | 0x33 => needExt x fun e =>
    rej (xrBad e false false false 4096) (.reservedField 1) <|
      rej (!(f.lo2 == 0 || f.lo2 == 3) || decide ((if f.lo2 = 3 then 64 else 32) ≤ e.e3 + e.e4)) (.illegalOperand 1) <|
      .ok (.vbfx f.v2 e.e3 e.e4)
  | 0x34 => needExt x fun e =>
    rej (xrBad e false false false 4096) (.reservedField 1) <|
      rej (!(f.lo2 == 0 || f.lo2 == 3) || decide ((if f.lo2 = 3 then 64 else 32) ≤ e.e3 + e.e4)) (.illegalOperand 1) <|
      .ok (.vbfi f.v2 e.e3 e.e4)
  | 0x35 => needExt x fun e =>
    rej (xrBad e true false false 1) (.reservedField 1) <|
      rej (!(f.lo2 == 0 || f.lo2 == 3)) (.illegalOperand 1) <| .ok (.vsel f.v3 e.e1)
  | 0x36 => needExt x fun e =>
    rej (xrBad e false false false 16) (.reservedField 1) <|
      rej (!(f.lo2 == 0 || f.lo2 == 3) || decide (10 ≤ e.xf)) (.illegalOperand 1) <| .ok (.vcmp f.v3 e.xf)
  | 0x37 =>
    rej (f.f2 != 0) (.reservedField 1) <|
      match x with
      | none => .ok (.vldi f.f1 f.imm)
      | some e => rej (decide (4 ≤ f.f3)) (.reservedField 1) <| .ok (.vldiLong f.f1 (immXI f e))
  | _ => .error .illegalOpcode

/-- A float instruction that takes a rounding override in its long form (R79, R80). -/
def decRound (unary : Bool) (f : Fld) (x : Option Ext) (short : Instr) (long : Nat → Instr) : Dec :=
  rej (unary && f.f3 != 0) (.reservedField 1) <|
    match x with
    | none => .ok short
    | some e => rej (xrBad e false true false 1) (.reservedField 1) <| rej (!rmOk e.rm) (.illegalOperand 1) <| .ok (long e.rm)

/-- Opcodes 0x38 to 0x4F: float instructions (R113 to R123). -/
def decFloat (f : Fld) (x : Option Ext) : Dec :=
  match f.op with
  | 0x38 => decRound false f x (.fadd f.v3) (.faddLong f.v3)
  | 0x39 => decRound false f x (.fsub f.v3) (.fsubLong f.v3)
  | 0x3A => decRound false f x (.fmul f.v3) (.fmulLong f.v3)
  | 0x3B => needExt x fun e =>
    rej (xrBad e true true false 1) (.reservedField 1) <| rej (!rmOk e.rm) (.illegalOperand 1) <|
      .ok (.ffma f.v3 e.e1 e.rm)
  | 0x3C => .ok (.fmin f.v3)
  | 0x3D => .ok (.fmax f.v3)
  | 0x3E => .ok (.fminp f.v3)
  | 0x3F => .ok (.fmaxp f.v3)
  | 0x40 => rej (f.f3 != 0) (.reservedField 1) <| .ok (.fabs f.v2)
  | 0x41 => rej (f.f3 != 0) (.reservedField 1) <| .ok (.fneg f.v2)
  | 0x42 => .ok (.fcps f.v3)
  | 0x43 => needExt x fun e =>
    rej (xrBad e false false false 16) (.reservedField 1) <|
      rej (!(f.lo2 == 0 || f.lo2 == 3) || decide (8 ≤ e.xf)) (.illegalOperand 1) <| .ok (.fcmp f.v3 e.xf)
  | 0x44 => rej (f.f3 != 0) (.reservedField 1) <| .ok (.fcls f.v2)
  | 0x45 => decRound false f x (.fscl f.v3) (.fsclLong f.v3)
  | 0x46 => needExt x fun e =>
    rej (xrBad e false true true 256) (.reservedField 1) <|
      rej (f.lo2 != 0 || !rmOk e.rm || decide (6 ≤ e.xf / 16) || decide (6 ≤ e.xf % 16)) (.illegalOperand 1) <|
      .ok (.fcvt f.v2 (e.xf / 16) (e.xf % 16) e.rm e.sat)
  | 0x47 => decRound true f x (.frnd f.v2) (.frndLong f.v2)
  | 0x48 => needExt x fun e =>
    rej (xrBad e false true true 8) (.reservedField 1) <|
      rej (!rmOk e.rm || !ityOk f.lo2 e.xf) (.illegalOperand 1) <| .ok (.fcvi f.v2 e.xf e.rm e.sat)
  | 0x49 => needExt x fun e =>
    rej (xrBad e false true false 8) (.reservedField 1) <|
      rej (!rmOk e.rm || !ityOk f.lo2 e.xf) (.illegalOperand 1) <| .ok (.fciv f.v2 e.xf e.rm)
  | 0x4A => decRound false f x (.fdiv f.v3) (.fdivLong f.v3)
  | 0x4B => decRound true f x (.fsqrt f.v2) (.fsqrtLong f.v2)
  | 0x4C => needExt x fun e =>
    rej (xrBad e true true false 1) (.reservedField 1) <|
      rej (!(f.lo2 == 1 || f.lo2 == 2) || !rmOk e.rm) (.illegalOperand 1) <| .ok (.fdot2 f.v3 e.e1 e.rm)
  | _ => .error .illegalOpcode

/-- Opcodes 0x50 to 0x5F: special functions, cross-lane and quantise instructions (R125 to R138). -/
def decSpecial (f : Fld) (x : Option Ext) : Dec :=
  match f.op with
  | 0x50 =>
    rej (decide (8 ≤ f.f3)) (.reservedSubOp 2) <| rej (f.lo2 == 3) (.illegalOperand 2) <| .ok <|
      match f.f3 with
      | 0 => .frcp f.v2
      | 1 => .frsq f.v2
      | 2 => .fexp2 f.v2
      | 3 => .flog2 f.v2
      | 4 => .fsin f.v2
      | 5 => .fcos f.v2
      | 6 => .ftanh f.v2
      | _ => .fsigm f.v2
  | 0x51 =>
    rej (decide (4 ≤ f.f3)) (.reservedField 2) <| rej (f.lo2 != 0) (.illegalOperand 2) <|
      .ok (.ftab f.f1 f.f2 f.f3 (f.f4 / 4))
  | 0x52 =>
    rej (decide (4 ≤ f.f1) || f.mg != 15) (.reservedField 2) <|
      rej (f.f2 != 63 || !flagOk f.mf) (.illegalOperand 2) <| .ok (.tabld f.f1 f.s4 f.mf)
  | 0x58 => rej (!(f.lo2 == 0 || f.lo2 == 3)) (.illegalOperand 2) <| .ok (.shfl f.v3)
  | 0x59 =>
    rej (f.f3 % 16 != 0) (.reservedField 2) <| .ok <|
      match f.f3 / 16 with
      | 0 => .shfu f.f1 f.f2 f.f4
      | 1 => .shfd f.f1 f.f2 f.f4
      | 2 => .shfx f.f1 f.f2 f.f4
      | _ => .vbcl f.f1 f.f2 f.f4
  | 0x5A =>
    if f.f3 < 16 then rej (decide (8 ≤ f.f3)) (.reservedSubOp 2) <| .ok (.vred f.v2 f.f3)
    else if f.f3 < 32 then rej (decide (19 ≤ f.f3)) (.reservedSubOp 2) <| .ok (.fred f.v2 (f.f3 - 16))
    else if f.f3 < 48 then rej (decide (40 ≤ f.f3)) (.reservedSubOp 2) <| .ok (.vscn f.v2 (f.f3 - 32))
    else rej (decide (51 ≤ f.f3)) (.reservedSubOp 2) <| .ok (.fscn f.v2 (f.f3 - 48))
  | 0x5B =>
    rej (decide (3 ≤ f.f3)) (.reservedSubOp 2) <|
      rej (if f.f3 = 0 then f.lo2 != 0 else !(f.lo2 == 0 || f.lo2 == 3)) (.illegalOperand 2) <| .ok <|
      match f.f3 with
      | 0 => .ball f.f1 f.f2 (f.f4 / 4)
      | 1 => .vmtc f.v2
      | _ => .vcpt f.v2
  | 0x5C => needExt x fun e =>
    rej (xrBad e true false false 8) (.reservedField 2) <|
      rej (f.lo2 != 0 || decide (5 ≤ e.xf)) (.illegalOperand 2) <| .ok (.vhq f.v3 e.e1 e.xf)
  | 0x5D => needExt x fun e =>
    rej (f.f3 != 0) (.reservedField 2) <|
      rej (f.lo2 != 0 || !rmOk e.rm || decide (2 ≤ e.xf)) (.illegalOperand 2) <| .ok (.vq8 f.v2 e.e1 e.xf e.rm e.sat)
  | 0x5E => needExt x fun e =>
    rej (f.f3 != 0 || e.rm != 0 || e.sat) (.reservedField 2) <|
      rej (f.lo2 != 0 || decide (2 ≤ e.xf)) (.illegalOperand 2) <| .ok (.vdq f.v2 e.e1 e.xf)
  | 0x5F => needExt x fun e =>
    rej (xrBad e true true false 256) (.reservedField 2) <|
      rej (!(f.lo2 == 0 || f.lo2 == 1) || f.f2 % 2 != 0 || f.f3 % 2 != 0 || !rmOk e.rm) (.illegalOperand 2) <|
      .ok (.vbsd f.v3 e.e1 e.xf e.rm)
  | _ => .error .illegalOpcode

def Fld.mop (f : Fld) : MOp := ⟨f.f1, f.f2, f.s4, f.mf, f.mg⟩
def Fld.mst (f : Fld) : MSt := ⟨f.f1, f.f2, f.s4, f.mg⟩

/-- A load, with or without OFF24 (R143). -/
def decLoad (f : Fld) (x : Option Ext) (short : MOp → Instr) (long : MOp → Nat → Instr) : Dec :=
  rej (!flagOk f.mf) (.illegalOperand 3) <|
    match x with
    | none => .ok (short f.mop)
    | some e => .ok (long f.mop e.all)

/-- A store, which takes no flag (R81, R143). -/
def decStore (f : Fld) (x : Option Ext) (short : MSt → Instr) (long : MSt → Nat → Instr) : Dec :=
  rej (f.mf != 15) (.illegalOperand 3) <|
    match x with
    | none => .ok (short f.mst)
    | some e => .ok (long f.mst e.all)

/-- An instruction with a form of one word and a form with OFF24. -/
def decOff (x : Option Ext) (short : Instr) (long : Nat → Instr) : Dec :=
  match x with
  | none => .ok short
  | some e => .ok (long e.all)

/-- Opcodes 0x60 to 0x6F: memory instructions (R143 to R153). -/
def decMem (f : Fld) (x : Option Ext) : Dec :=
  match f.op with
  | 0x60 => decLoad f x .ldg8 .ldg8Long
  | 0x61 => decLoad f x .ldg16 .ldg16Long
  | 0x62 => decLoad f x .ldg32 .ldg32Long
  | 0x63 => decLoad f x .ldg64 .ldg64Long
  | 0x64 => decStore f x .stg8 .stg8Long
  | 0x65 => decStore f x .stg16 .stg16Long
  | 0x66 => decStore f x .stg32 .stg32Long
  | 0x67 => decStore f x .stg64 .stg64Long
  | 0x68 => decLoad f x .ldl32 .ldl32Long
  | 0x69 => decLoad f x .ldl64 .ldl64Long
  | 0x6A => decStore f x .stl32 .stl32Long
  | 0x6B => decStore f x .stl64 .stl64Long
  | 0x6C => decLoad f x .ldx .ldxLong
  | 0x6D => decStore f x .stx .stxLong
  | 0x6E =>
    rej (f.mg != 15) (.reservedField 3) <|
      rej (!(f.f2 == 62 || f.f2 == 63) || f.mf != 15) (.illegalOperand 3) <|
      if f.f2 = 62 then decOff x (.ldk32 f.f1 f.s4) (.ldk32Long f.f1 f.s4)
      else decOff x (.ldk64 f.f1 f.s4) (.ldk64Long f.f1 f.s4)
  | 0x6F =>
    rej (decide (7 ≤ f.f1)) (.reservedSubOp 3) <|
      match f.f1 with
      | 0 =>
        rej (f.mg != 15) (.reservedField 3) <|
          rej (f.f2 != 63 || f.s4 % 2 != 0 || !flagOk f.mf) (.illegalOperand 3) <|
          decOff x (.tld f.s4 f.mf) (.tldLong f.s4 f.mf)
      | 1 =>
        rej (f.mg != 15) (.reservedField 3) <|
          rej (f.f2 != 63 || f.s4 % 2 != 0 || !flagOk f.mf) (.illegalOperand 3) <|
          decOff x (.tst f.s4 f.mf) (.tstLong f.s4 f.mf)
      | 2 => rej (f.mf != 15) (.illegalOperand 3) <| decOff x (.pfg f.f2 f.s4 f.mg) (.pfgLong f.f2 f.s4 f.mg)
      | 3 =>
        rej (f.mg != 15) (.reservedField 3) <|
          rej (f.f2 != 63 || f.s4 % 2 != 0 || f.mf != 15) (.illegalOperand 3) <| decOff x (.xmap f.s4) (.xmapLong f.s4)
      | _ =>
        rej (f.mg != 15 || (match x with | none => false | some e => e.all != 0)) (.reservedField 3) <|
          rej (f.f2 != 63 || f.mf != 15) (.illegalOperand 3) <| .ok <|
          match f.f1 with
          | 4 => .xunmap f.s4
          | 5 => .xwb f.s4
          | _ => .xinv f.s4
  | _ => .error .illegalOpcode

/-- ATG and ATL (R82, R158). -/
def decAtomic (wide : Bool) (f : Fld) (x : Option Ext) (k : AtOp → Instr) : Dec :=
  needExt x fun e =>
    rej (e.rm != 0 || e.sat) (.reservedField 3) <|
      rej (!flagOk f.yf || decide ((if wide then 7 else 2) ≤ f.scope) || decide (4 ≤ f.kind) ||
        !atomicOk (e.xf % 16) f.kind) (.illegalOperand 3) <|
      .ok (k ⟨f.f1, f.f2, f.yf, f.scope, f.kind, f.mode, e.e1, e.xf / 256, e.xf / 16 % 16, e.xf % 16⟩)

/-- REDG and REDL (R82, R158). -/
def decReduce (wide : Bool) (f : Fld) (x : Option Ext) (k : RedOp → Instr) : Dec :=
  needExt x fun e =>
    rej (e.rm != 0 || e.sat) (.reservedField 3) <|
      rej (f.yf != 15 || decide ((if wide then 7 else 2) ≤ f.scope) || decide (4 ≤ f.kind) ||
        !atomicOk (e.xf % 16) f.kind || e.xf % 16 == 10 || e.xf / 256 != 0 || !(f.mode == 0 || f.mode == 2))
        (.illegalOperand 3) <|
      .ok (k ⟨f.f1, f.f2, f.scope, f.kind, f.mode, e.e1, e.xf / 16, e.xf % 16⟩)

/-- Opcodes 0x70 to 0x77: atomics and queues (R157 to R172). -/
def decAtomicQueue (f : Fld) (x : Option Ext) : Dec :=
  match f.op with
  | 0x70 => decAtomic true f x .atg
  | 0x71 => decReduce true f x .redg
  | 0x72 => decAtomic false f x .atl
  | 0x73 => decReduce false f x .redl
  | 0x74 =>
    rej (f.kind != 0 || decide (2 ≤ f.mode)) (.reservedSubOp 3) <| rej (f.scope != 0) (.reservedField 3) <|
      rej (f.f1 % 4 != 0 || !flagOk f.yf) (.illegalOperand 3) <| .ok (.enq f.f1 f.f2 f.yf f.mode)
  | 0x75 =>
    rej (f.kind != 0 || decide (2 ≤ f.mode)) (.reservedSubOp 3) <| rej (f.scope != 0) (.reservedField 3) <|
      rej (f.f1 % 4 != 0 || !flagOk f.yf) (.illegalOperand 3) <| .ok (.deq f.f1 f.f2 f.yf f.mode)
  | 0x76 =>
    rej (decide (2 ≤ f.kind) || f.mode != 0) (.reservedSubOp 3) <|
      rej (f.scope != 0 || (f.kind == 1 && f.f2 != 0)) (.reservedField 3) <|
      rej (f.yf != 15) (.illegalOperand 3) <| .ok <|
      match f.kind with
      | 0 => .qlen f.f1 f.f2
      | _ => .qcls f.f1
  | 0x77 =>
    rej (f.kind != 0 || f.mode != 0) (.reservedSubOp 3) <| rej (f.scope != 0) (.reservedField 3) <|
      rej (f.f1 % 4 != 0 || f.yf != 15) (.illegalOperand 3) <| .ok (.grab f.f1 f.f2)
  | _ => .error .illegalOpcode

/-- Opcodes 0x78 to 0x7B: memory model, harness, arrival objects (R194 to R208). -/
def decSync (f : Fld) : Dec :=
  match f.op with
  | 0x78 =>
    rej (decide (5 ≤ f.kind) || (f.kind == 0 && f.mode == 0) || (f.kind == 1 && decide (2 ≤ f.mode)) ||
        (decide (2 ≤ f.kind) && f.mode != 0)) (.reservedSubOp 4) <|
      rej ((f.kind == 0 && f.f1 != 0) || (decide (f.kind < 3) && f.f2 != 0)) (.reservedField 4) <|
      rej (f.yf != 15 || decide (7 ≤ f.scope) || (decide (3 ≤ f.kind) && f.f2 % 2 != 0)) (.illegalOperand 4) <| .ok <|
      match f.kind with
      | 0 => .fence f.scope f.mode
      | 1 => .acq f.f1 f.scope f.mode
      | 2 => .rel f.f1 f.scope
      | 3 => .teth f.f1 f.f2 f.scope
      | _ => .unte f.f1 f.f2 f.scope
  | 0x79 =>
    rej (decide (4 ≤ f.kind) ||
        decide ((if f.kind = 3 ∧ f.scope = 1 then 2 else 1) ≤ f.mode)) (.reservedSubOp 4) <|
      rej (f.kind == 2 && f.f1 != 0) (.reservedField 4) <|
      rej (f.yf != 15 || !harnessOk f.f2 f.scope) (.illegalOperand 4) <| .ok <|
      match f.kind with
      | 0 => .barv f.f1 f.f2 f.scope
      | 1 => .bwat f.f1 f.f2 f.scope
      | 2 => .bsyn f.f2 f.scope
      | _ => .bmsk f.f1 f.f2 f.scope f.mode
  | 0x7A =>
    rej (decide (4 ≤ f.kind) || (f.kind == 0 && f.mode != 0) || (f.kind == 1 && decide (2 ≤ f.mode)) ||
        (f.kind == 2 && f.mode != 0)) (.reservedSubOp 4) <|
      rej (f.yf != 15 || decide (7 ≤ f.scope) || (f.kind == 0 && f.scope != 0)) (.illegalOperand 4) <| .ok <|
      match f.kind with
      | 0 => .aini f.f1 f.f2
      | 1 => .aarv f.f1 f.f2 f.scope f.mode
      | 2 => .awat f.f1 f.f2 f.scope
      | _ => .wadr f.f1 f.f2 f.scope f.mode
  | _ => .error .illegalOpcode

/-- A dray command, with or without an arrival object (R216). -/
def decDray (f : Fld) (x : Option Ext) (short : DrOp → Instr) (long : DrOp → Nat → Instr) : Dec :=
  rej (match x with | none => false | some e => decide (1048576 ≤ e.all) || e.all % 16 != 0) (.reservedField 4) <|
    rej (f.f1 % 4 != 0 || !flagOk f.yf) (.illegalOperand 4) <|
    match x with
    | none => .ok (short ⟨f.f1, f.f2, f.yf, f.mg⟩)
    | some e => .ok (long ⟨f.f1, f.f2, f.yf, f.mg⟩ e.all)

/-- Opcodes 0x7C to 0x7E: drays, paddocks and the system group (R212, R216, R290). -/
def decEngine (f : Fld) (x : Option Ext) : Dec :=
  match f.op with
  | 0x7C =>
    match f.esub with
    | 0 => decDray f x .dcpy .dcpyLong
    | 1 => decDray f x .dgth .dgthLong
    | 2 => decDray f x .dsct .dsctLong
    | 3 => decDray f x .dmcs .dmcsLong
    | 4 => decDray f x .dcmt .dcmtLong
    | 5 => decDray f x .dfil .dfilLong
    | 6 => decDray f x .dcol .dcolLong
    | 7 =>
      rej (f.f2 != 0 || f.yf != 15 || f.mg != 15 || x.isSome) (.reservedField 4) <|
        rej (f.f1 % 4 != 0) (.illegalOperand 4) <| .ok (.dsts f.f1)
    | 8 =>
      rej (f.f1 != 0 || f.yf != 15 || f.mg != 15 || x.isSome) (.reservedField 4) <|
        rej (decide (2 ≤ f.f2)) (.illegalOperand 4) <| .ok (.dfnc f.f2)
    | _ => .error (.reservedSubOp 4)
  | 0x7D =>
    rej (decide (5 ≤ f.esub)) (.reservedSubOp 4) <| rej (f.mg != 15) (.reservedField 4) <|
      rej (f.f1 % 4 != 0 || (if f.esub = 1 then !flagOk f.yf else f.yf != 15) ||
        decide ((if f.esub = 2 ∨ f.esub = 4 then 1 else 2) ≤ f.f2)) (.illegalOperand 4) <| .ok <|
      match f.esub with
      | 0 => .pdnew f.f1 f.f2
      | 1 => .pdatt f.f1 f.f2 f.yf
      | 2 => .pddet f.f1
      | 3 => .pdevi f.f1 f.f2
      | _ => .pdqry f.f1
  | 0x7E =>
    match f.f4 with
    | 0 => rej (!csrReadable f.csrn) (.illegalOperand 0) <| .ok (.csrr f.f1 f.csrn)
    | 1 =>
      if f.csrn = 0x840 then .ok (.csrwTinj f.f1)
      else rej (!csrWritable f.csrn) (.illegalOperand 0) <| .ok (.csrw f.f1 f.csrn)
    | 2 => rej (f.f1 != 0 || f.csrn != 0) (.reservedField 0) <| .ok .eret
    | 3 =>
      rej (decide (4 ≤ f.csrn) || (f.csrn == 1 && f.f1 != 0)) (.reservedField 0) <|
        rej (decide (2 ≤ f.csrn)) (.illegalOperand 0) <| .ok (.tlbi f.f1 f.csrn)
    | 4 => rej (f.csrn != 0) (.reservedField 0) <| rej (f.f1 % 2 != 0) (.illegalOperand 0) <| .ok (.sread f.f1)
    | 5 => rej (f.f1 != 0 || f.csrn != 0) (.reservedField 0) <| .ok .halt
    | _ => .error (.reservedSubOp 0)
  | _ => .error .illegalOpcode

/-- The instruction of a word's fields and its extension, if it has one (R78 to R85). -/
def decodeFields (f : Fld) (x : Option Ext) : Dec :=
  if f.op < 0x10 then decScalar f x
  else if f.op < 0x20 then decControl f
  else if f.op < 0x38 then decVecInt f x
  else if f.op < 0x50 then decFloat f x
  else if f.op < 0x60 then decSpecial f x
  else if f.op < 0x70 then decMem f x
  else if f.op < 0x78 then decAtomicQueue f x
  else if f.op < 0x7C then decSync f
  else decEngine f x

/-- Length classes of R79. -/
inductive LenClass where
  | short
  | long
  | optional
  | unassigned
deriving DecidableEq, Repr

/-- The length class of an opcode; POOL counts as short (R79). -/
def lenClass (op : Nat) : LenClass :=
  if op = 0x03 ∨ op = 0x06 ∨ op = 0x26 ∨ op = 0x27 ∨ (0x33 ≤ op ∧ op ≤ 0x36) ∨ op = 0x3B ∨ op = 0x43 ∨ op = 0x46 ∨
      op = 0x48 ∨ op = 0x49 ∨ op = 0x4C ∨ (0x5C ≤ op ∧ op ≤ 0x5F) ∨ (0x70 ≤ op ∧ op ≤ 0x73) then .long
  else if (0x08 ≤ op ∧ op ≤ 0x0A) ∨ op = 0x37 ∨ (0x38 ≤ op ∧ op ≤ 0x3A) ∨ op = 0x45 ∨ op = 0x47 ∨ op = 0x4A ∨ op = 0x4B ∨
      (0x60 ≤ op ∧ op ≤ 0x6F) ∨ op = 0x7C then .optional
  else if (0x0D ≤ op ∧ op ≤ 0x0F) ∨ (0x1C ≤ op ∧ op ≤ 0x1F) ∨ (0x4D ≤ op ∧ op ≤ 0x4F) ∨ (0x53 ≤ op ∧ op ≤ 0x57) ∨
      op = 0x7B ∨ 0x7F ≤ op then .unassigned
  else .short

/-- Pipes of R59: S 0, V 1, X 2, M 3, E 4; none for NOP and POOL. -/
def pipeOf (op : Nat) : Option Nat :=
  if op = 0 ∨ op = 0x17 then none
  else if op < 0x18 then some 0
  else if op < 0x1A then some 1
  else if op = 0x1A then some 2
  else if op < 0x20 then some 0
  else if op < 0x50 then some 1
  else if op < 0x60 then some 2
  else if op < 0x78 then some 3
  else if op < 0x7E then some 4
  else some 0

/-- Bits 30:24 of a word (R57). -/
def wordOp (w : Nat) : Nat := w / 16777216 % 128
/-- Bit 31 of a word: C, or the bit that an extension word holds 0 (R57, R63). -/
def wordC (w : Nat) : Bool := w / 2147483648 % 2 == 1
def wordFld (w : Nat) : Fld := ⟨wordOp w, w / 262144 % 64, w / 4096 % 64, w / 64 % 64, w % 64⟩
def wordExt (w : Nat) : Ext := ⟨w / 262144 % 64, w / 4096 % 64, w / 64 % 64, w % 64⟩
/-- An extension word: bit 31 = 0 and OP = 0x7F (R63). -/
def isExtWord (w : Nat) : Bool := !wordC w && wordOp w == 0x7F

/-- The word of some fields and a chain bit. -/
def mkWord (c : Bool) (f : Fld) : Nat :=
  c.toNat * 2147483648 + f.op * 16777216 + f.f1 * 262144 + f.f2 * 4096 + f.f3 * 64 + f.f4
/-- The extension word of a payload (R63). -/
def mkExt (e : Ext) : Nat := 0x7F000000 + e.e1 * 262144 + e.e2 * 4096 + e.e3 * 64 + e.e4

/-- What an instruction encodes as: a team word and its extension, a coachman's opcode, body and payload, or nothing. -/
inductive Enc where
  | team (f : Fld) (x : Option Ext)
  | coach (op body : Nat) (pay : Option Nat)
  | nowhere
deriving DecidableEq, Repr

/-- The opcode, body and payload of a coachman instruction (R84, R236 to R254). -/
def CoachOp.enc : CoachOp → Enc
  | .mnop => .coach 0 (0) none
  | .msetz r => .coach 1 (r.z * 524288 + r.space * 131072 + r.fmt * 8192 + r.nr * 128 + r.nc * 2 + r.rel) (some (r.base * 1024 + r.stride))
  | .mzer z => .coach 2 (z * 524288) none
  | .mma o mf shr arank k => .coach 3 (o.zd * 524288 + o.za * 16384 + o.zb * 512 + o.fmt * 32 + o.acc * 4 + o.mode) (some (mf * 1048576 + shr.toNat * 524288 + arank * 65536 + k))
  | .mmag o mf zt gm k => .coach 4 (o.zd * 524288 + o.za * 16384 + o.zb * 512 + o.fmt * 32 + o.acc * 4 + o.mode) (some (mf * 1048576 + zt * 32768 + gm * 2048 + k))
  | .mmat o mf zm k => .coach 5 (o.zd * 524288 + o.za * 16384 + o.zb * 512 + o.fmt * 32 + o.acc * 4 + o.mode) (some (mf * 1048576 + zm * 32768 + k))
  | .mldw zw zs mf => .coach 6 (zw * 524288 + zs * 16384) (some (mf * 1048576))
  | .mdrn zd zs sh sat act tbl mf zero => .coach 7 (zd * 524288 + zs * 16384 + sh * 64 + sat.toNat * 32 + act.toNat * 16 + tbl * 4) (some (mf * 1048576 + zero.toNat * 524288))
  | .mbar n m => .coach 8 (n * 1048576 + m * 262144) none
  | .mwat k st off => .coach 9 (k * 65536 + st.toNat * 32768 + off) none
  | .mlop n cnt => .coach 10 (n * 4194304 + cnt) none
  | .mbra o => .coach 11 (o) none
  | .mbraLoop n o => .coach 11 (n * 4194304 + 2097152 + o) none
  | .mend => .coach 12 (0) none

/-- The encoding of an instruction (R65, R78 to R84); `nowhere` for the steps of the other agents, which no stream holds. -/
def Instr.enc : Instr → Enc
  | .nop => .team ⟨0, 0, 0, 0, 0⟩ none
  | .sadd d a b => .team ⟨1, d, a, b, 0⟩ none
  | .ssub d a b => .team ⟨1, d, a, b, 4⟩ none
  | .smul d a b => .team ⟨1, d, a, b, 8⟩ none
  | .smulh d a b => .team ⟨1, d, a, b, 12⟩ none
  | .sand d a b => .team ⟨1, d, a, b, 16⟩ none
  | .sor d a b => .team ⟨1, d, a, b, 20⟩ none
  | .sxor d a b => .team ⟨1, d, a, b, 24⟩ none
  | .sandn d a b => .team ⟨1, d, a, b, 28⟩ none
  | .sshl d a b => .team ⟨1, d, a, b, 32⟩ none
  | .sshr d a b => .team ⟨1, d, a, b, 36⟩ none
  | .ssar d a b => .team ⟨1, d, a, b, 40⟩ none
  | .smin d a b => .team ⟨1, d, a, b, 44⟩ none
  | .smax d a b => .team ⟨1, d, a, b, 48⟩ none
  | .sminu d a b => .team ⟨1, d, a, b, 52⟩ none
  | .smaxu d a b => .team ⟨1, d, a, b, 56⟩ none
  | .sclz d a => .team ⟨2, d, a, 0, 0⟩ none
  | .spopc d a => .team ⟨2, d, a, 0, 4⟩ none
  | .smov d a => .team ⟨2, d, a, 0, 8⟩ none
  | .smad d a b r => .team ⟨3, d, a, b, 0⟩ (some ⟨r, 0, 0, 0⟩)
  | .ssel d a b r => .team ⟨6, d, a, b, 0⟩ (some ⟨r, 0, 0, 0⟩)
  | .sbfx d a p l => .team ⟨4, d, a, p, l⟩ none
  | .sbfi d a p l => .team ⟨5, d, a, p, l⟩ none
  | .scmp d a b q => .team ⟨7, d, a, b, q * 4⟩ none
  | .sldi d i => .team ⟨8, d, 0, i / 64, i % 64⟩ none
  | .sldiLong d i => .team ⟨8, d, 0, i / 64 % 4, i % 64⟩ (some ⟨i / 67108864, i / 1048576 % 64, i / 16384 % 64, i / 256 % 64⟩)
  | .saddi d a i => .team ⟨9, d, a, i / 64, i % 64⟩ none
  | .saddiLong d a i => .team ⟨9, d, a, i / 64 % 4, i % 64⟩ (some ⟨i / 67108864, i / 1048576 % 64, i / 16384 % 64, i / 256 % 64⟩)
  | .sldl d a i => .team ⟨10, d, a, i / 64, i % 64⟩ none
  | .sldlLong d a i => .team ⟨10, d, a, i / 64 % 4, i % 64⟩ (some ⟨i / 67108864, i / 1048576 % 64, i / 16384 % 64, i / 256 % 64⟩)
  | .sget d n => .team ⟨11, d, 0, n / 64, n % 64⟩ none
  | .sgetRcv d n => .team ⟨11, d, 0, 0, 20 + n⟩ none
  | .ssetSnd a n => .team ⟨12, 0, a, 0, 16 + n⟩ none
  | .ssetSndcfg a n => .team ⟨12, 0, a, 0, 24 + n⟩ none
  | .ssetMask a => .team ⟨12, 0, a, 0, 9⟩ none
  | .ssetFpmode a => .team ⟨12, 0, a, 0, 10⟩ none
  | .ssetFpflags a => .team ⟨12, 0, a, 0, 11⟩ none
  | .ssetGreedy a => .team ⟨12, 0, a, 0, 12⟩ none
  | .bra o => .team ⟨16, 0, o / 4096, o / 64 % 64, o % 64⟩ none
  | .brc r q o => .team ⟨17, r, q * 16 + o / 4096, o / 64 % 64, o % 64⟩ none
  | .brm q o => .team ⟨18, 0, q * 16 + o / 4096, o / 64 % 64, o % 64⟩ none
  | .call k o => .team ⟨20, k, o / 4096, o / 64 % 64, o % 64⟩ none
  | .jmp a => .team ⟨19, 0, a, 0, 0⟩ none
  | .callr k a => .team ⟨19, k, a, 0, 4⟩ none
  | .ret k a => .team ⟨19, k, a, 0, 8⟩ none
  | .exit => .team ⟨19, 0, 0, 0, 12⟩ none
  | .yield => .team ⟨19, 0, 0, 0, 16⟩ none
  | .wait m => .team ⟨21, 0, 0, m / 64, m % 64⟩ none
  | .trap i => .team ⟨22, 0, 0, i / 64, i % 64⟩ none
  | .brk i => .team ⟨22, 1, 0, i / 64, i % 64⟩ none
  | .pand d a b => .team ⟨24, d, a, b, 0⟩ none
  | .por d a b => .team ⟨24, d, a, b, 4⟩ none
  | .pxor d a b => .team ⟨24, d, a, b, 8⟩ none
  | .pandn d a b => .team ⟨24, d, a, b, 12⟩ none
  | .pnot d a => .team ⟨24, d, a, 0, 16⟩ none
  | .pmov d a => .team ⟨24, d, a, 0, 20⟩ none
  | .pseti d v => .team ⟨25, d, v, 0, 0⟩ none
  | .pany d a => .team ⟨26, d, a, 0, 0⟩ none
  | .pall d a => .team ⟨26, d, a, 0, 4⟩ none
  | .pcnt d a => .team ⟨26, d, a, 0, 8⟩ none
  | .pfirst d a => .team ⟨26, d, a, 0, 12⟩ none
  | .mpush a => .team ⟨27, 0, a, 0, 0⟩ none
  | .melse => .team ⟨27, 0, 0, 0, 4⟩ none
  | .mpop => .team ⟨27, 0, 0, 0, 8⟩ none
  | .msave d => .team ⟨27, d, 0, 0, 12⟩ none
  | .mload a => .team ⟨27, 0, a, 0, 16⟩ none
  | .vadd o => .team ⟨32, o.d, o.a, o.b, o.g * 4 + o.t⟩ none
  | .vsub o => .team ⟨33, o.d, o.a, o.b, o.g * 4 + o.t⟩ none
  | .vadds o => .team ⟨34, o.d, o.a, o.b, o.g * 4 + o.t⟩ none
  | .vsubs o => .team ⟨35, o.d, o.a, o.b, o.g * 4 + o.t⟩ none
  | .vmul o => .team ⟨36, o.d, o.a, o.b, o.g * 4 + o.t⟩ none
  | .vmulh o => .team ⟨37, o.d, o.a, o.b, o.g * 4 + o.t⟩ none
  | .vmad o r => .team ⟨38, o.d, o.a, o.b, o.g * 4 + o.t⟩ (some ⟨r, 0, 0, 0⟩)
  | .vdot4 o r sat => .team ⟨39, o.d, o.a, o.b, o.g * 4 + o.t⟩ (some ⟨r, sat.toNat * 4, 0, 0⟩)
  | .vand o => .team ⟨40, o.d, o.a, o.b, o.g * 4 + o.t⟩ none
  | .vor o => .team ⟨41, o.d, o.a, o.b, o.g * 4 + o.t⟩ none
  | .vxor o => .team ⟨42, o.d, o.a, o.b, o.g * 4 + o.t⟩ none
  | .vshl o => .team ⟨43, o.d, o.a, o.b, o.g * 4 + o.t⟩ none
  | .vshr o => .team ⟨44, o.d, o.a, o.b, o.g * 4 + o.t⟩ none
  | .vsar o => .team ⟨45, o.d, o.a, o.b, o.g * 4 + o.t⟩ none
  | .vmin o => .team ⟨46, o.d, o.a, o.b, o.g * 4 + o.t⟩ none
  | .vmax o => .team ⟨47, o.d, o.a, o.b, o.g * 4 + o.t⟩ none
  | .vminu o => .team ⟨48, o.d, o.a, o.b, o.g * 4 + o.t⟩ none
  | .vmaxu o => .team ⟨49, o.d, o.a, o.b, o.g * 4 + o.t⟩ none
  | .vabs o => .team ⟨50, o.d, o.a, 0, o.g * 4 + o.t⟩ none
  | .vneg o => .team ⟨50, o.d, o.a, 1, o.g * 4 + o.t⟩ none
  | .vclz o => .team ⟨50, o.d, o.a, 2, o.g * 4 + o.t⟩ none
  | .vpopc o => .team ⟨50, o.d, o.a, 3, o.g * 4 + o.t⟩ none
  | .vmov o => .team ⟨50, o.d, o.a, 4, o.g * 4 + o.t⟩ none
  | .vlane d g => .team ⟨50, d, 0, 5, g * 4⟩ none
  | .vbcs o => .team ⟨50, o.d, o.a, 6, o.g * 4 + o.t⟩ none
  | .vbfx o p l => .team ⟨51, o.d, o.a, 0, o.g * 4 + o.t⟩ (some ⟨0, (p * 64 + l) / 4096, (p * 64 + l) / 64 % 64, (p * 64 + l) % 64⟩)
  | .vbfi o p l => .team ⟨52, o.d, o.a, 0, o.g * 4 + o.t⟩ (some ⟨0, (p * 64 + l) / 4096, (p * 64 + l) / 64 % 64, (p * 64 + l) % 64⟩)
  | .vsel o r => .team ⟨53, o.d, o.a, o.b, o.g * 4 + o.t⟩ (some ⟨r, 0, 0, 0⟩)
  | .vcmp o q => .team ⟨54, o.d, o.a, o.b, o.g * 4 + o.t⟩ (some ⟨0, q / 4096, q / 64 % 64, q % 64⟩)
  | .vldi d i => .team ⟨55, d, 0, i / 64, i % 64⟩ none
  | .vldiLong d i => .team ⟨55, d, 0, i / 64 % 4, i % 64⟩ (some ⟨i / 67108864, i / 1048576 % 64, i / 16384 % 64, i / 256 % 64⟩)
  | .fadd o => .team ⟨56, o.d, o.a, o.b, o.g * 4 + o.t⟩ none
  | .faddLong o rm => .team ⟨56, o.d, o.a, o.b, o.g * 4 + o.t⟩ (some ⟨0, rm * 8, 0, 0⟩)
  | .fsub o => .team ⟨57, o.d, o.a, o.b, o.g * 4 + o.t⟩ none
  | .fsubLong o rm => .team ⟨57, o.d, o.a, o.b, o.g * 4 + o.t⟩ (some ⟨0, rm * 8, 0, 0⟩)
  | .fmul o => .team ⟨58, o.d, o.a, o.b, o.g * 4 + o.t⟩ none
  | .fmulLong o rm => .team ⟨58, o.d, o.a, o.b, o.g * 4 + o.t⟩ (some ⟨0, rm * 8, 0, 0⟩)
  | .ffma o r rm => .team ⟨59, o.d, o.a, o.b, o.g * 4 + o.t⟩ (some ⟨r, rm * 8, 0, 0⟩)
  | .fmin o => .team ⟨60, o.d, o.a, o.b, o.g * 4 + o.t⟩ none
  | .fmax o => .team ⟨61, o.d, o.a, o.b, o.g * 4 + o.t⟩ none
  | .fminp o => .team ⟨62, o.d, o.a, o.b, o.g * 4 + o.t⟩ none
  | .fmaxp o => .team ⟨63, o.d, o.a, o.b, o.g * 4 + o.t⟩ none
  | .fabs o => .team ⟨64, o.d, o.a, 0, o.g * 4 + o.t⟩ none
  | .fneg o => .team ⟨65, o.d, o.a, 0, o.g * 4 + o.t⟩ none
  | .fcps o => .team ⟨66, o.d, o.a, o.b, o.g * 4 + o.t⟩ none
  | .fcmp o q => .team ⟨67, o.d, o.a, o.b, o.g * 4 + o.t⟩ (some ⟨0, q / 4096, q / 64 % 64, q % 64⟩)
  | .fcls o => .team ⟨68, o.d, o.a, 0, o.g * 4 + o.t⟩ none
  | .fscl o => .team ⟨69, o.d, o.a, o.b, o.g * 4 + o.t⟩ none
  | .fsclLong o rm => .team ⟨69, o.d, o.a, o.b, o.g * 4 + o.t⟩ (some ⟨0, rm * 8, 0, 0⟩)
  | .fcvt o sf df rm sat => .team ⟨70, o.d, o.a, 0, o.g * 4 + o.t⟩ (some ⟨0, rm * 8 + sat.toNat * 4 + (sf * 16 + df) / 4096, (sf * 16 + df) / 64 % 64, (sf * 16 + df) % 64⟩)
  | .frnd o => .team ⟨71, o.d, o.a, 0, o.g * 4 + o.t⟩ none
  | .frndLong o rm => .team ⟨71, o.d, o.a, 0, o.g * 4 + o.t⟩ (some ⟨0, rm * 8, 0, 0⟩)
  | .fcvi o ity rm sat => .team ⟨72, o.d, o.a, 0, o.g * 4 + o.t⟩ (some ⟨0, rm * 8 + sat.toNat * 4 + ity / 4096, ity / 64 % 64, ity % 64⟩)
  | .fciv o ity rm => .team ⟨73, o.d, o.a, 0, o.g * 4 + o.t⟩ (some ⟨0, rm * 8 + ity / 4096, ity / 64 % 64, ity % 64⟩)
  | .fdiv o => .team ⟨74, o.d, o.a, o.b, o.g * 4 + o.t⟩ none
  | .fdivLong o rm => .team ⟨74, o.d, o.a, o.b, o.g * 4 + o.t⟩ (some ⟨0, rm * 8, 0, 0⟩)
  | .fsqrt o => .team ⟨75, o.d, o.a, 0, o.g * 4 + o.t⟩ none
  | .fsqrtLong o rm => .team ⟨75, o.d, o.a, 0, o.g * 4 + o.t⟩ (some ⟨0, rm * 8, 0, 0⟩)
  | .fdot2 o r rm => .team ⟨76, o.d, o.a, o.b, o.g * 4 + o.t⟩ (some ⟨r, rm * 8, 0, 0⟩)
  | .frcp o => .team ⟨80, o.d, o.a, 0, o.g * 4 + o.t⟩ none
  | .frsq o => .team ⟨80, o.d, o.a, 1, o.g * 4 + o.t⟩ none
  | .fexp2 o => .team ⟨80, o.d, o.a, 2, o.g * 4 + o.t⟩ none
  | .flog2 o => .team ⟨80, o.d, o.a, 3, o.g * 4 + o.t⟩ none
  | .fsin o => .team ⟨80, o.d, o.a, 4, o.g * 4 + o.t⟩ none
  | .fcos o => .team ⟨80, o.d, o.a, 5, o.g * 4 + o.t⟩ none
  | .ftanh o => .team ⟨80, o.d, o.a, 6, o.g * 4 + o.t⟩ none
  | .fsigm o => .team ⟨80, o.d, o.a, 7, o.g * 4 + o.t⟩ none
  | .ftab d a n g => .team ⟨81, d, a, n, g * 4⟩ none
  | .tabld n s f => .team ⟨82, n, 63, s * 4 + f / 4, f % 4 * 16 + 15⟩ none
  | .shfl o => .team ⟨88, o.d, o.a, o.b, o.g * 4 + o.t⟩ none
  | .shfu d a n => .team ⟨89, d, a, 0, n⟩ none
  | .shfd d a n => .team ⟨89, d, a, 16, n⟩ none
  | .shfx d a n => .team ⟨89, d, a, 32, n⟩ none
  | .vbcl d a n => .team ⟨89, d, a, 48, n⟩ none
  | .vred o q => .team ⟨90, o.d, o.a, 0 + q, o.g * 4 + o.t⟩ none
  | .vscn o q => .team ⟨90, o.d, o.a, 32 + q, o.g * 4 + o.t⟩ none
  | .fred o q => .team ⟨90, o.d, o.a, 16 + q, o.g * 4 + o.t⟩ none
  | .fscn o q => .team ⟨90, o.d, o.a, 48 + q, o.g * 4 + o.t⟩ none
  | .ball d a g => .team ⟨91, d, a, 0, g * 4⟩ none
  | .vmtc o => .team ⟨91, o.d, o.a, 1, o.g * 4 + o.t⟩ none
  | .vcpt o => .team ⟨91, o.d, o.a, 2, o.g * 4 + o.t⟩ none
  | .vhq o r q => .team ⟨92, o.d, o.a, o.b, o.g * 4 + o.t⟩ (some ⟨r, q / 4096, q / 64 % 64, q % 64⟩)
  | .vq8 o r q rm sat => .team ⟨93, o.d, o.a, 0, o.g * 4 + o.t⟩ (some ⟨r, rm * 8 + sat.toNat * 4 + q / 4096, q / 64 % 64, q % 64⟩)
  | .vdq o r q => .team ⟨94, o.d, o.a, 0, o.g * 4 + o.t⟩ (some ⟨r, q / 4096, q / 64 % 64, q % 64⟩)
  | .vbsd o r q rm => .team ⟨95, o.d, o.a, o.b, o.g * 4 + o.t⟩ (some ⟨r, rm * 8 + q / 4096, q / 64 % 64, q % 64⟩)
  | .ldg8 o => .team ⟨96, o.d, o.a, o.s * 4 + o.f / 4, o.f % 4 * 16 + o.g⟩ none
  | .ldg8Long o off => .team ⟨96, o.d, o.a, o.s * 4 + o.f / 4, o.f % 4 * 16 + o.g⟩ (some ⟨off / 262144, off / 4096 % 64, off / 64 % 64, off % 64⟩)
  | .ldg16 o => .team ⟨97, o.d, o.a, o.s * 4 + o.f / 4, o.f % 4 * 16 + o.g⟩ none
  | .ldg16Long o off => .team ⟨97, o.d, o.a, o.s * 4 + o.f / 4, o.f % 4 * 16 + o.g⟩ (some ⟨off / 262144, off / 4096 % 64, off / 64 % 64, off % 64⟩)
  | .ldg32 o => .team ⟨98, o.d, o.a, o.s * 4 + o.f / 4, o.f % 4 * 16 + o.g⟩ none
  | .ldg32Long o off => .team ⟨98, o.d, o.a, o.s * 4 + o.f / 4, o.f % 4 * 16 + o.g⟩ (some ⟨off / 262144, off / 4096 % 64, off / 64 % 64, off % 64⟩)
  | .ldg64 o => .team ⟨99, o.d, o.a, o.s * 4 + o.f / 4, o.f % 4 * 16 + o.g⟩ none
  | .ldg64Long o off => .team ⟨99, o.d, o.a, o.s * 4 + o.f / 4, o.f % 4 * 16 + o.g⟩ (some ⟨off / 262144, off / 4096 % 64, off / 64 % 64, off % 64⟩)
  | .stg8 o => .team ⟨100, o.d, o.a, o.s * 4 + 3, 48 + o.g⟩ none
  | .stg8Long o off => .team ⟨100, o.d, o.a, o.s * 4 + 3, 48 + o.g⟩ (some ⟨off / 262144, off / 4096 % 64, off / 64 % 64, off % 64⟩)
  | .stg16 o => .team ⟨101, o.d, o.a, o.s * 4 + 3, 48 + o.g⟩ none
  | .stg16Long o off => .team ⟨101, o.d, o.a, o.s * 4 + 3, 48 + o.g⟩ (some ⟨off / 262144, off / 4096 % 64, off / 64 % 64, off % 64⟩)
  | .stg32 o => .team ⟨102, o.d, o.a, o.s * 4 + 3, 48 + o.g⟩ none
  | .stg32Long o off => .team ⟨102, o.d, o.a, o.s * 4 + 3, 48 + o.g⟩ (some ⟨off / 262144, off / 4096 % 64, off / 64 % 64, off % 64⟩)
  | .stg64 o => .team ⟨103, o.d, o.a, o.s * 4 + 3, 48 + o.g⟩ none
  | .stg64Long o off => .team ⟨103, o.d, o.a, o.s * 4 + 3, 48 + o.g⟩ (some ⟨off / 262144, off / 4096 % 64, off / 64 % 64, off % 64⟩)
  | .ldl32 o => .team ⟨104, o.d, o.a, o.s * 4 + o.f / 4, o.f % 4 * 16 + o.g⟩ none
  | .ldl32Long o off => .team ⟨104, o.d, o.a, o.s * 4 + o.f / 4, o.f % 4 * 16 + o.g⟩ (some ⟨off / 262144, off / 4096 % 64, off / 64 % 64, off % 64⟩)
  | .ldl64 o => .team ⟨105, o.d, o.a, o.s * 4 + o.f / 4, o.f % 4 * 16 + o.g⟩ none
  | .ldl64Long o off => .team ⟨105, o.d, o.a, o.s * 4 + o.f / 4, o.f % 4 * 16 + o.g⟩ (some ⟨off / 262144, off / 4096 % 64, off / 64 % 64, off % 64⟩)
  | .stl32 o => .team ⟨106, o.d, o.a, o.s * 4 + 3, 48 + o.g⟩ none
  | .stl32Long o off => .team ⟨106, o.d, o.a, o.s * 4 + 3, 48 + o.g⟩ (some ⟨off / 262144, off / 4096 % 64, off / 64 % 64, off % 64⟩)
  | .stl64 o => .team ⟨107, o.d, o.a, o.s * 4 + 3, 48 + o.g⟩ none
  | .stl64Long o off => .team ⟨107, o.d, o.a, o.s * 4 + 3, 48 + o.g⟩ (some ⟨off / 262144, off / 4096 % 64, off / 64 % 64, off % 64⟩)
  | .ldx o => .team ⟨108, o.d, o.a, o.s * 4 + o.f / 4, o.f % 4 * 16 + o.g⟩ none
  | .ldxLong o off => .team ⟨108, o.d, o.a, o.s * 4 + o.f / 4, o.f % 4 * 16 + o.g⟩ (some ⟨off / 262144, off / 4096 % 64, off / 64 % 64, off % 64⟩)
  | .stx o => .team ⟨109, o.d, o.a, o.s * 4 + 3, 48 + o.g⟩ none
  | .stxLong o off => .team ⟨109, o.d, o.a, o.s * 4 + 3, 48 + o.g⟩ (some ⟨off / 262144, off / 4096 % 64, off / 64 % 64, off % 64⟩)
  | .ldk32 d s => .team ⟨110, d, 62, s * 4 + 3, 63⟩ none
  | .ldk32Long d s off => .team ⟨110, d, 62, s * 4 + 3, 63⟩ (some ⟨off / 262144, off / 4096 % 64, off / 64 % 64, off % 64⟩)
  | .ldk64 d s => .team ⟨110, d, 63, s * 4 + 3, 63⟩ none
  | .ldk64Long d s off => .team ⟨110, d, 63, s * 4 + 3, 63⟩ (some ⟨off / 262144, off / 4096 % 64, off / 64 % 64, off % 64⟩)
  | .tld s f => .team ⟨111, 0, 63, s * 4 + f / 4, f % 4 * 16 + 15⟩ none
  | .tldLong s f off => .team ⟨111, 0, 63, s * 4 + f / 4, f % 4 * 16 + 15⟩ (some ⟨off / 262144, off / 4096 % 64, off / 64 % 64, off % 64⟩)
  | .tst s f => .team ⟨111, 1, 63, s * 4 + f / 4, f % 4 * 16 + 15⟩ none
  | .tstLong s f off => .team ⟨111, 1, 63, s * 4 + f / 4, f % 4 * 16 + 15⟩ (some ⟨off / 262144, off / 4096 % 64, off / 64 % 64, off % 64⟩)
  | .pfg a s g => .team ⟨111, 2, a, s * 4 + 3, 48 + g⟩ none
  | .pfgLong a s g off => .team ⟨111, 2, a, s * 4 + 3, 48 + g⟩ (some ⟨off / 262144, off / 4096 % 64, off / 64 % 64, off % 64⟩)
  | .xmap s => .team ⟨111, 3, 63, s * 4 + 3, 63⟩ none
  | .xmapLong s off => .team ⟨111, 3, 63, s * 4 + 3, 63⟩ (some ⟨off / 262144, off / 4096 % 64, off / 64 % 64, off % 64⟩)
  | .xunmap s => .team ⟨111, 4, 63, s * 4 + 3, 63⟩ none
  | .xwb s => .team ⟨111, 5, 63, s * 4 + 3, 63⟩ none
  | .xinv s => .team ⟨111, 6, 63, s * 4 + 3, 63⟩ none
  | .atg o => .team ⟨112, o.s, o.v, o.f * 4 + o.scope / 2, o.scope % 2 * 32 + o.kind * 4 + o.mode⟩ (some ⟨o.cr, (o.d * 256 + o.g * 16 + o.op) / 4096, (o.d * 256 + o.g * 16 + o.op) / 64 % 64, (o.d * 256 + o.g * 16 + o.op) % 64⟩)
  | .atl o => .team ⟨114, o.s, o.v, o.f * 4 + o.scope / 2, o.scope % 2 * 32 + o.kind * 4 + o.mode⟩ (some ⟨o.cr, (o.d * 256 + o.g * 16 + o.op) / 4096, (o.d * 256 + o.g * 16 + o.op) / 64 % 64, (o.d * 256 + o.g * 16 + o.op) % 64⟩)
  | .redg o => .team ⟨113, o.s, o.v, 15 * 4 + o.scope / 2, o.scope % 2 * 32 + o.kind * 4 + o.mode⟩ (some ⟨o.cr, (o.g * 16 + o.op) / 4096, (o.g * 16 + o.op) / 64 % 64, (o.g * 16 + o.op) % 64⟩)
  | .redl o => .team ⟨115, o.s, o.v, 15 * 4 + o.scope / 2, o.scope % 2 * 32 + o.kind * 4 + o.mode⟩ (some ⟨o.cr, (o.g * 16 + o.op) / 4096, (o.g * 16 + o.op) / 64 % 64, (o.g * 16 + o.op) % 64⟩)
  | .enq s v f m => .team ⟨116, s, v, f * 4, m⟩ none
  | .deq s v f m => .team ⟨117, s, v, f * 4, m⟩ none
  | .qlen s v => .team ⟨118, s, v, 60, 0⟩ none
  | .qcls s => .team ⟨118, s, 0, 60, 4⟩ none
  | .grab s v => .team ⟨119, s, v, 60, 0⟩ none
  | .fence p m => .team ⟨120, 0, 0, 60 + p / 2, p % 2 * 32 + 0 + m⟩ none
  | .acq s p m => .team ⟨120, s, 0, 60 + p / 2, p % 2 * 32 + 4 + m⟩ none
  | .rel s p => .team ⟨120, s, 0, 60 + p / 2, p % 2 * 32 + 8⟩ none
  | .teth s v p => .team ⟨120, s, v, 60 + p / 2, p % 2 * 32 + 12⟩ none
  | .unte s v p => .team ⟨120, s, v, 60 + p / 2, p % 2 * 32 + 16⟩ none
  | .barv s v p => .team ⟨121, s, v, 60 + p / 2, p % 2 * 32 + 0⟩ none
  | .bwat s v p => .team ⟨121, s, v, 60 + p / 2, p % 2 * 32 + 4⟩ none
  | .bsyn v p => .team ⟨121, 0, v, 60 + p / 2, p % 2 * 32 + 8⟩ none
  | .bmsk s v p m => .team ⟨121, s, v, 60 + p / 2, p % 2 * 32 + 12 + m⟩ none
  | .aini s v => .team ⟨122, s, v, 60, 0⟩ none
  | .aarv s v p m => .team ⟨122, s, v, 60 + p / 2, p % 2 * 32 + 4 + m⟩ none
  | .awat s v p => .team ⟨122, s, v, 60 + p / 2, p % 2 * 32 + 8⟩ none
  | .wadr s v p m => .team ⟨122, s, v, 60 + p / 2, p % 2 * 32 + 12 + m⟩ none
  | .dcpy o => .team ⟨124, o.x, o.y, o.f * 4 + 0, 0 + o.g⟩ none
  | .dcpyLong o aoff => .team ⟨124, o.x, o.y, o.f * 4 + 0, 0 + o.g⟩ (some ⟨aoff / 262144, aoff / 4096 % 64, aoff / 64 % 64, aoff % 64⟩)
  | .dgth o => .team ⟨124, o.x, o.y, o.f * 4 + 0, 16 + o.g⟩ none
  | .dgthLong o aoff => .team ⟨124, o.x, o.y, o.f * 4 + 0, 16 + o.g⟩ (some ⟨aoff / 262144, aoff / 4096 % 64, aoff / 64 % 64, aoff % 64⟩)
  | .dsct o => .team ⟨124, o.x, o.y, o.f * 4 + 0, 32 + o.g⟩ none
  | .dsctLong o aoff => .team ⟨124, o.x, o.y, o.f * 4 + 0, 32 + o.g⟩ (some ⟨aoff / 262144, aoff / 4096 % 64, aoff / 64 % 64, aoff % 64⟩)
  | .dmcs o => .team ⟨124, o.x, o.y, o.f * 4 + 0, 48 + o.g⟩ none
  | .dmcsLong o aoff => .team ⟨124, o.x, o.y, o.f * 4 + 0, 48 + o.g⟩ (some ⟨aoff / 262144, aoff / 4096 % 64, aoff / 64 % 64, aoff % 64⟩)
  | .dcmt o => .team ⟨124, o.x, o.y, o.f * 4 + 1, 0 + o.g⟩ none
  | .dcmtLong o aoff => .team ⟨124, o.x, o.y, o.f * 4 + 1, 0 + o.g⟩ (some ⟨aoff / 262144, aoff / 4096 % 64, aoff / 64 % 64, aoff % 64⟩)
  | .dfil o => .team ⟨124, o.x, o.y, o.f * 4 + 1, 16 + o.g⟩ none
  | .dfilLong o aoff => .team ⟨124, o.x, o.y, o.f * 4 + 1, 16 + o.g⟩ (some ⟨aoff / 262144, aoff / 4096 % 64, aoff / 64 % 64, aoff % 64⟩)
  | .dcol o => .team ⟨124, o.x, o.y, o.f * 4 + 1, 32 + o.g⟩ none
  | .dcolLong o aoff => .team ⟨124, o.x, o.y, o.f * 4 + 1, 32 + o.g⟩ (some ⟨aoff / 262144, aoff / 4096 % 64, aoff / 64 % 64, aoff % 64⟩)
  | .dsts x => .team ⟨124, x, 0, 61, 63⟩ none
  | .dfnc y => .team ⟨124, 0, y, 62, 15⟩ none
  | .pdnew x y => .team ⟨125, x, y, 60, 15⟩ none
  | .pdatt x y f => .team ⟨125, x, y, f * 4, 31⟩ none
  | .pddet x => .team ⟨125, x, 0, 60, 47⟩ none
  | .pdevi x y => .team ⟨125, x, y, 60, 63⟩ none
  | .pdqry x => .team ⟨125, x, 0, 61, 15⟩ none
  | .csrr d n => .team ⟨126, d, n / 64, n % 64, 0⟩ none
  | .csrw a n => .team ⟨126, a, n / 64, n % 64, 1⟩ none
  | .csrwTinj a => .team ⟨126, a, 33, 0, 1⟩ none
  | .eret => .team ⟨126, 0, 0, 0, 2⟩ none
  | .tlbi a k => .team ⟨126, a, 0, k, 3⟩ none
  | .sread p => .team ⟨126, p, 0, 0, 4⟩ none
  | .halt => .team ⟨126, 0, 0, 0, 5⟩ none
  | .mnop => CoachOp.enc .mnop
  | .msetz r => CoachOp.enc (.msetz r)
  | .mzer z => CoachOp.enc (.mzer z)
  | .mma o mf shr arank k => CoachOp.enc (.mma o mf shr arank k)
  | .mmag o mf zt gm k => CoachOp.enc (.mmag o mf zt gm k)
  | .mmat o mf zm k => CoachOp.enc (.mmat o mf zm k)
  | .mldw zw zs mf => CoachOp.enc (.mldw zw zs mf)
  | .mdrn zd zs sh sat act tbl mf zero => CoachOp.enc (.mdrn zd zs sh sat act tbl mf zero)
  | .mbar n m => CoachOp.enc (.mbar n m)
  | .mwat k st off => CoachOp.enc (.mwat k st off)
  | .mlop n cnt => CoachOp.enc (.mlop n cnt)
  | .mbra o => CoachOp.enc (.mbra o)
  | .mbraLoop n o => CoachOp.enc (.mbraLoop n o)
  | .mend => CoachOp.enc .mend
  | .tableSwap _ _ => .nowhere
  | .drayJobStop _ => .nowhere
  | .drayJobComplete _ => .nowhere
  | .paddockWritebackComplete _ => .nowhere
  | .paddockFillComplete _ => .nowhere
  | .arrayDispatch _ => .nowhere
  | .matrixOpComplete _ => .nowhere
  | .loadComplete _ => .nowhere
  | .storeAck _ => .nowhere
  | .atomicComplete _ => .nowhere
  | .sliceLoad _ => .nowhere
  | .sliceStore _ => .nowhere
  | .sliceAtomic _ => .nowhere
  | .sliceReduce _ => .nowhere
  | .sliceLineFill _ _ => .nowhere
  | .tileLockAcquired _ => .nowhere
  | .tileComplete _ => .nowhere
  | .enqAtHome _ => .nowhere
  | .deqAtHome _ => .nowhere
  | .deqWaitServed _ => .nowhere
  | .grabAtHome _ => .nowhere
  | .queueReply _ => .nowhere
  | .queueRefillMove _ => .nowhere
  | .prodsDecrement _ => .nowhere
  | .guardRequestAtHome _ => .nowhere
  | .guardGrant _ => .nowhere
  | .guardReleaseAtHome _ => .nowhere
  | .reinFlitDeliver _ _ => .nowhere
  | .faultRecordEnqueue _ => .nowhere
  | .pageWalkComplete _ => .nowhere
  | .distributorEvaluate _ => .nowhere
  | .maxbClaimReply _ => .nowhere
  | .hitchRequest _ => .nowhere
  | .hitchReserve _ _ => .nowhere
  | .hitchResponse _ => .nowhere
  | .hitchCommit _ _ => .nowhere
  | .hitchCancel _ _ => .nowhere
  | .blockRetire _ => .nowhere
  | .completionEventEnqueue _ => .nowhere
  | .launchComplete _ => .nowhere
  | .whiffletreeSample _ => .nowhere
  | .whiffletreeTableWrite _ => .nowhere
  | .sliceExpiry _ => .nowhere
  | .drainComplete _ => .nowhere
  | .partitionSaved _ => .nowhere
  | .hbmAgeCapExpiry _ => .nowhere
  | .hbmRefresh _ => .nowhere
  | .reqFrame _ => .nowhere
  | .rspFrame _ => .nowhere
  | .fwdFrame _ => .nowhere
  | .sumFrame _ => .nowhere
  | .mcdFrame _ => .nowhere
  | .mcrFrame _ => .nowhere
  | .colFrame _ => .nowhere
  | .collectiveComplete _ => .nowhere
  | .ackFrame _ _ => .nowhere
  | .nakFrame _ _ _ => .nowhere
  | .retransmitTimeout _ => .nowhere
  | .routeTimeout _ => .nowhere
  | .partnerLinkLoss _ => .nowhere
  | .sumTimer _ => .nowhere
  | .portFrameTime _ => .nowhere
  | .heldRecordsMove _ _ => .nowhere
  | .tailWrite _ _ => .nowhere
  | .flpop _ => .nowhere
  | .rdmaWrite _ => .nowhere
  | .rdmaRead _ => .nowhere
  | .fetchAdd _ => .nowhere
  | .cmpSwap _ => .nowhere
  | .hostRetryExhausted _ _ => .nowhere
  | .nopPacket _ => .nowhere
  | .write _ => .nowhere
  | .writeSignal _ => .nowhere
  | .waitMem _ => .nowhere
  | .waitMemRetest _ => .nowhere
  | .waitMemPoll _ => .nowhere
  | .pred _ => .nowhere
  | .indirect _ => .nowhere
  | .loop _ => .nowhere
  | .launchGraph _ => .nowhere
  | .fetchFence _ => .nowhere
  | .link _ => .nowhere
  | .segmentReturn _ _ => .nowhere
  | .collective _ => .nowhere
  | .event _ => .nowhere
  | .timestamp _ => .nowhere
  | .commandLineFetch _ _ _ => .nowhere
  | .wqConfig _ => .nowhere
  | .wqStop _ => .nowhere
  | .wqResume _ => .nowhere
  | .unitResume _ => .nowhere
  | .unitTerminate _ => .nowhere
  | .unitHalt _ => .nowhere
  | .graphRemove _ => .nowhere
  | .sliceSet _ => .nowhere
  | .stateRead _ => .nowhere
  | .stateWrite _ => .nowhere
  | .ctxSet _ => .nowhere
  | .ctxDel _ => .nowhere
  | .imgLoad _ => .nowhere
  | .attest _ => .nowhere
  | .keyRetain _ => .nowhere
  | .partSet _ => .nowhere
  | .ownXfer _ => .nowhere
  | .claim _ => .nowhere
  | .release _ => .nowhere
  | .setId _ => .nowhere
  | .coldReset => .nowhere
  | .warmReset => .nowhere
  | .pinsReleased => .nowhere
  | .trainComplete _ _ => .nowhere
  | .clearComplete => .nowhere
  | .ostlerIntegrityError => .nowhere
  | .rasEvent _ => .nowhere
  | .powerLimit _ => .nowhere
  | .powerLimitLifted _ => .nowhere
  | .connectionExchange _ => .nowhere
  | .geldyLinkTraining _ => .nowhere
  | .congestionNotification _ _ => .nowhere

/-- The words of an encoding; c is the chain bit of a team instruction (R57). -/
def Enc.words (c : Bool) : Enc → List Nat
  | .team f none => [mkWord c f]
  | .team f (some e) => [mkWord c f, mkExt e]
  | .coach op body none => [op * 16777216 + body]
  | .coach op body (some pay) => [op * 16777216 + body, 0x7F000000 + pay]
  | .nowhere => []

/-- The words of an instruction, with the chain bit c; empty for what no stream holds. -/
def encode (c : Bool) (i : Instr) : List Nat := i.enc.words c

/-- One instruction of a checked packet: its slot, its words, its chain bit and its opcode. -/
structure Issue where
  slot : Nat
  size : Nat
  chain : Bool
  op : Nat
  word : Nat
  instr : Instr
deriving DecidableEq, Repr

/-- One instruction of a checked coachman packet. -/
structure CoachIssue where
  slot : Nat
  size : Nat
  word : Nat
  op : CoachOp
deriving DecidableEq, Repr

/-- Decode the instruction in the first of the words that remain at slot k, in the order of R68. -/
def decodeAt (k : Nat) (w : Nat) (rest : List Nat) : Except DecodeErr Issue :=
  let f := wordFld w
  let mk (n : Nat) (x : Option Ext) : Except DecodeErr Issue :=
    match decodeFields f x with
    | .ok i => .ok ⟨k, n, wordC w, f.op, w, i⟩
    | .error e => .error e
  if f.op = 0x17 then .error (if k = 0 then .poolExecution else .illegalPacket)
  else
    match lenClass f.op with
    | .unassigned => .error .illegalOpcode
    | .short => mk 1 none
    | .long =>
      match rest with
      | [] => .error .illegalPacket
      | e :: _ =>
        if isExtWord e ∧ ¬ (k = 1 ∧ wordC w = true) then mk 2 (some (wordExt e)) else .error .illegalPacket
    | .optional =>
      match rest with
      | [] => mk 1 none
      | e :: _ =>
        if isExtWord e then
          if k = 1 ∧ wordC w = true then .error .illegalPacket else mk 2 (some (wordExt e))
        else mk 1 none

/-- The packet check of R68 up to the chain rules: the instructions of the words that remain at slot k, or the slot and
the cause of the first fault. `chk` is the part of CheckFields that rests on the team. -/
def decodeFrom (chk : Issue → Option Nat) : Nat → Nat → List Nat → Except (Nat × Nat) (List Issue)
  | 0, _, _ => .ok []
  | _ + 1, _, [] => .ok []
  | n + 1, k, w :: rest =>
    match decodeAt k w rest with
    | .error e => .error (k, e.code false)
    | .ok i =>
      match chk i with
      | some c => .error (k, c)
      | none =>
        match decodeFrom chk n (k + i.size) (rest.drop (i.size - 1)) with
        | .error e => .error e
        | .ok is => .ok (i :: is)

/-- Bits of a coachman body. -/
def bits (x lo n : Nat) : Nat := x / 2 ^ lo % 2 ^ n

/-- A region or MMA-family word (R243). -/
def mmaFields (b : Nat) : MmaOp := ⟨bits b 19 5, bits b 14 5, bits b 9 5, bits b 5 4, bits b 2 3, bits b 0 2⟩

/-- CheckFields of the coachman (R73, R84, R85): body b, payload p of a long form. -/
def decodeCoachFields (op b p : Nat) : Except DecodeErr CoachOp :=
  let rej (b : Bool) (e : DecodeErr) (k : Except DecodeErr CoachOp) : Except DecodeErr CoachOp := if b then .error e else k
  match op with
  | 0x00 => rej (b != 0) (.reservedField 5) (.ok .mnop)
  | 0x01 =>
    rej (!(regFmtOk (bits b 17 2) (bits b 13 4))) (.illegalOperand 5) <|
      .ok (.msetz ⟨bits b 19 5, bits b 17 2, bits b 13 4, bits b 7 6, bits b 1 6, bits b 0 1, bits p 10 14, bits p 0 10⟩)
  | 0x02 => rej (bits b 0 19 != 0) (.reservedField 5) <| .ok (.mzer (bits b 19 5))
  | 0x03 =>
    rej (bits p 9 7 != 0) (.reservedField 5) <| rej (!mfOk (bits p 20 4)) (.illegalOperand 5) <|
      .ok (.mma (mmaFields b) (bits p 20 4) (bits p 19 1 == 1) (bits p 16 3) (bits p 0 9))
  | 0x04 =>
    rej (bits p 9 2 != 0 || (bits b 0 2 == 0 && bits p 15 5 != 0)) (.reservedField 5) <|
      rej (!mfOk (bits p 20 4)) (.illegalOperand 5) <|
      .ok (.mmag (mmaFields b) (bits p 20 4) (bits p 15 5) (bits p 11 4) (bits p 0 9))
  | 0x05 =>
    rej (bits p 9 6 != 0 || (bits b 0 2 == 0 && bits p 15 5 != 0)) (.reservedField 5) <|
      rej (!mfOk (bits p 20 4)) (.illegalOperand 5) <|
      .ok (.mmat (mmaFields b) (bits p 20 4) (bits p 15 5) (bits p 0 9))
  | 0x06 =>
    rej (bits b 0 14 != 0 || bits p 0 20 != 0) (.reservedField 5) <| rej (!mfOk (bits p 20 4)) (.illegalOperand 5) <|
      .ok (.mldw (bits b 19 5) (bits b 14 5) (bits p 20 4))
  | 0x07 =>
    rej (bits b 0 2 != 0 || bits p 0 19 != 0) (.reservedField 5) <| rej (!mfOk (bits p 20 4)) (.illegalOperand 5) <|
      .ok (.mdrn (bits b 19 5) (bits b 14 5) (bits b 6 8) (bits b 5 1 == 1) (bits b 4 1 == 1) (bits b 2 2) (bits p 20 4)
        (bits p 19 1 == 1))
  | 0x08 =>
    rej (bits b 18 2 == 3) (.reservedSubOp 5) <| rej (bits b 0 18 != 0) (.reservedField 5) <|
      .ok (.mbar (bits b 20 4) (bits b 18 2))
  | 0x09 =>
    rej (bits b 15 1 == 0 && bits b 0 15 != 0) (.reservedField 5) <|
      .ok (.mwat (bits b 16 8) (bits b 15 1 == 1) (bits b 0 15))
  | 0x0A => rej (bits b 0 22 == 0) (.illegalOperand 5) <| .ok (.mlop (bits b 22 2) (bits b 0 22))
  | 0x0B =>
    rej (bits b 16 5 != 0 || (bits b 21 1 == 0 && bits b 22 2 != 0)) (.reservedField 5) <|
      if bits b 21 1 = 1 then .ok (.mbraLoop (bits b 22 2) (bits b 0 16)) else .ok (.mbra (bits b 0 16))
  | 0x0C => rej (b != 0) (.reservedField 5) (.ok .mend)
  | _ => .error .illegalOpcode

/-- Coachman opcodes that take an extension word (R84). -/
def coachLong (op : Nat) : Bool := op == 1 || (decide (3 ≤ op) && decide (op ≤ 7))

/-- Decode the coachman instruction in the first of the words that remain at slot k, in the order of R73. -/
def decodeCoachAt (k : Nat) (w : Nat) (rest : List Nat) : Except DecodeErr CoachIssue :=
  let op := wordOp w
  let mk (n p : Nat) : Except DecodeErr CoachIssue :=
    if wordC w then .error (.reservedField 5)
    else
      match decodeCoachFields op (w % 16777216) p with
      | .ok i => .ok ⟨k, n, w, i⟩
      | .error e => .error e
  if 0x0D ≤ op then .error .illegalOpcode
  else if coachLong op then
    match rest with
    | [] => .error .illegalPacket
    | e :: _ => if isExtWord e then mk 2 (e % 16777216) else .error .illegalPacket
  else mk 1 0

/-- The coachman packet check of R73. -/
def decodeCoachFrom : Nat → Nat → List Nat → Except (Nat × Nat) (List CoachIssue)
  | 0, _, _ => .ok []
  | _ + 1, _, [] => .ok []
  | n + 1, k, w :: rest =>
    match decodeCoachAt k w rest with
    | .error e => .error (k, e.code true)
    | .ok i =>
      match decodeCoachFrom n (k + i.size) (rest.drop (i.size - 1)) with
      | .error e => .error e
      | .ok is => .ok (i :: is)

/-- A 32-bit word from its bytes, lowest first (R2). -/
def wordOfBytes : List Byte → Nat
  | [] => 0
  | b :: bs => b.toNat + 256 * wordOfBytes bs

/-- The bytes of a word, lowest first (R2). -/
def bytesOfWord (n w : Nat) : List Byte :=
  match n with
  | 0 => []
  | n + 1 => BitVec.ofNat 8 w :: bytesOfWord n (w / 256)

/-- The three words of a packet of 12 bytes (R58). -/
def packetWords (bs : List Byte) : List Nat :=
  [wordOfBytes (bs.take 4), wordOfBytes ((bs.drop 4).take 4), wordOfBytes ((bs.drop 8).take 4)]

/-- The 12 bytes of a packet of three words. -/
def packetBytes (w : List Nat) : List Byte := (w.map (bytesOfWord 4)).flatten

/-- The instruction in the first slot of the words, as a team reads it. -/
def decodeTeamWords (ws : List Nat) : Option Instr :=
  match ws with
  | [] => none
  | w :: rest =>
    match decodeAt 0 w rest with
    | .ok i => some i.instr
    | .error _ => none

/-- The instruction in the first slot of the words, as the coachman reads it. -/
def decodeCoachWords (ws : List Nat) : Option CoachOp :=
  match ws with
  | [] => none
  | w :: rest =>
    match decodeCoachAt 0 w rest with
    | .ok i => some i.op
    | .error _ => none

/-- The words of an instruction whose bits are w, first word in the low bits, every bit at or above nbits 0. -/
def tableWords (nbits w : Nat) : List Nat :=
  packetWords (bytesOfWord 12 (w % 2 ^ nbits))

/-- The instruction the decoder reads from an instruction whose bits are w. The team map is tried first: words of the two
maps coincide, and a table word does not say which stream holds it. -/
noncomputable def decodeTableWord (nbits w : Nat) : Option Instr :=
  match decodeTeamWords (tableWords nbits w) with
  | some i => some i
  | none => (decodeCoachWords (tableWords nbits w)).map CoachOp.instr

end Sys2Proof
end

