-- ==== Sys2Proof/Config.lean ====
section
/-! DEFINITION. What the manual leaves open: free values and the constants of one package. None has a body, so
no proof can learn a value. Each is named in the assumption log. -/

namespace Sys2Proof.Config

/-- A value the manual calls unspecified (R4): the first argument is the model's counter `fresh`, the second tells apart
several values of one step. -/
opaque freeWord : Nat → Nat → BitVec 64

/-- A choice the manual leaves to the hardware (which of several agents moves, which way a fill takes, whether a host fails: R178,
R371, R367, R362): the counter `fresh` and a number that tells apart the choices of one step. -/
opaque freeChoice : Nat → Nat → Nat

/-- How many cycles one step takes, less one (timing is out of scope). -/
opaque freeTick : Nat → Nat

/-- The choice between the two faithful results of a special function (R126): function number, argument bits. -/
opaque specialPick : Nat → Nat → Bool

/-- SLH-DSA-SHA2-128s verification (FIPS 205; R382): public key bytes, message bytes, signature bytes. -/
opaque verify : List Nat → List Nat → List Nat → Bool

/-- SLH-DSA-SHA2-128s signature of a message with the device attestation key (R385). -/
opaque sign : List Nat → List Nat

/-- The device identity DEVID, 32 bytes (R385). -/
opaque devid : List Nat

/-- The fused maker public key (R383). -/
opaque makerKey : List Nat

/-- Where table number k of a partition's fabric configuration area lies, relative to FCFG (R346). -/
opaque fabricTable : Nat → Nat

/-- Fields of fabric table entries whose layout the manual does not give (R346, R349, R364): table kind, field, entry bytes. -/
opaque fabricField : Nat → Nat → List Nat → Nat

/-- Entries of a partition's peer grant table (R349: the manual gives no count). -/
opaque grantCount : Nat

/-- Whether a Geldy port is wired to a package (R392). -/
opaque wiredTo : Nat → Nat → Bool

/-- Words of the state map whose layout the manual does not give (R395): area and item, and what the word holds. -/
opaque mapWord : Nat → List Nat → BitVec 64

end Sys2Proof.Config
end

