-- ==== Sys2Proof/Machine/Chain.lean ====
section
/-! DEFINITION. Which instructions of a packet form a chain (R60), and where execution goes on behind one (R292). -/

namespace Sys2Proof.Machine

/-- An issue is followed by another of its chain: C of its last word. Only a one-word issue, or a long form at slots 0 and 1,
can carry it on. -/
def chainsOn (i : Issue) : Bool := i.chain

/-- Chains of a packet: its issues grouped by their chain bits, in slot order. -/
def chainsOf : List Issue → List (List Issue)
  | [] => []
  | i :: is =>
    match chainsOn i, chainsOf is with
    | true, c :: cs => (i :: c) :: cs
    | _, cs => [i] :: cs

/-- The issues of a packet that is in issue. -/
def issuesOf (ws : List Nat) : List Issue :=
  match decodeFrom (fun _ => none) 3 0 ws with
  | .ok is => is
  | .error _ => []

/-- The members of the chain that holds slot k. -/
def chainAt (ws : List Nat) (k : Nat) : List Issue :=
  ((chainsOf (issuesOf ws)).find? fun c => c.any fun i => decide (i.slot ≤ k) && decide (k < i.slot + i.size)).getD []

/-- The slot behind a chain. -/
def chainEnd (c : List Issue) : Nat := c.foldl (fun n i => max n (i.slot + i.size)) 0

/-- The first slot behind the chain that holds slot k of packet p, as packet and slot (R292); of words that are no packet, the slot
behind k. -/
def behindChain (ws : List Nat) (p k : Nat) : Nat × Nat :=
  let c := chainAt ws k
  let e := if c.isEmpty then k + 1 else chainEnd c
  if e < 3 then (p, e) else (p + 1, 0)

end Sys2Proof.Machine
end

