-- ==== Sys2Proof/Machine/State.lean ====
section
/-! DEFINITION. The state of one package, as plain data: everything the manual gives the machine, and the model's own few
fields. Tables list only what differs from reset; their defaults are in `Ops`. -/

namespace Sys2Proof.Machine

/-! ## Units, packets, traps -/

/-- A unit that issues instructions: a team of a block, or the block's coachman (R13, R233). -/
structure UnitId where
  core : Nat
  bslot : Nat
  team : Nat
  coach : Bool
deriving DecidableEq, Repr

/-- How the last instruction of the current unit ended; the step reads it to advance the program counter (log 1). -/
inductive Fate where
  /-- it is done: the unit goes on at the next slot -/
  | completed
  /-- it has set the program counter itself (R62) -/
  | transferred
  /-- it raised a cause, and the trap entry or the escalation has been performed -/
  | trapped
  /-- it cannot finish yet and is tried again (R23) -/
  | stalled
  /-- the unit has ended (EXIT, MEND) -/
  | ended
deriving DecidableEq, Repr

/-- Whether a unit runs (R28, R287). -/
inductive UnitStatus where
  | running
  | stopped
  | exited
  | terminated
deriving DecidableEq, Repr

/-- What a cause carries into ECAUSE, EADDR and EINFO (R282). -/
structure Cause where
  code : Nat
  lane : Nat
  imm : Nat
  flag : Nat
  wd : Bool
  after : Bool
  ovf : Bool
  inj : Bool
  addr : Nat
  info : Nat
deriving DecidableEq, Repr

/-- A fault recorded under a flag for delivery at WAIT (R283, R286). -/
structure FaultRec where
  code : Nat
  addr : Nat
  info : Nat
  lane : Nat
  ovf : Bool
deriving DecidableEq, Repr

/-- One completion flag: outstanding operations and the recorded fault (R69, R286). -/
structure FlagState where
  count : Nat
  record : Option FaultRec
deriving DecidableEq, Repr

/-- The fault record of a stopped unit (R287), and whether it has been enqueued. -/
structure StopRec where
  words : List DWord
  /-- where a resumption goes on: packet and slot of the instruction, or what follows its chain (R287) -/
  pkt : Nat
  slot : Nat
  sent : Bool
deriving DecidableEq, Repr

/-- A destination of a flagged operation in flight (R70): the register class, its logical number, the lanes written, the
flag, and the lanes that stay unspecified after the WAIT: every lane once another instruction has written the register, else
those that met a fault. Classes: 0 vector, 1 scalar, 2 predicate. -/
structure PendDest where
  cls : Nat
  reg : Nat
  lanes : Lanes
  flag : Nat
  op : Nat
  spoiled : Lanes
deriving DecidableEq, Repr

/-- Registers left unspecified until they are written (R70, R21). -/
structure UnspecDest where
  cls : Nat
  reg : Nat
  lanes : Lanes
deriving DecidableEq, Repr

/-- One entry of the mask stack (R105). -/
structure MaskEntry where
  saved : Lanes
  els : Lanes
deriving DecidableEq, Repr

/-- One entry of the held-guard table (R206). -/
structure HeldGuard where
  addr : Nat
  mode : Nat
  scope : Nat
deriving DecidableEq, Repr

/-- What a unit waits for besides its flags (R23). -/
inductive Wait where
  | none
  /-- the operation it issued with no flag, still in flight -/
  | op (id : Nat)
  /-- that operation is complete, with the fault it met -/
  | done (fault : Option FaultRec)
  /-- the completion of generation gen of a barrier it arrived at -/
  | barrier (key gen : Nat)
  /-- a place in order among the readers of a rein FIFO -/
  | rcv (n : Nat)
  /-- asleep until GEN of the arrival object at window offset off differs from k (R203) -/
  | object (off k : Nat)
  /-- asleep until the word at window offset off meets condition m against c (R203) -/
  | word (off m c : Nat)
deriving DecidableEq, Repr

/-- One team (R13, R19, R314). -/
structure Team where
  status : UnitStatus
  /-- what the instruction at each slot waits for -/
  waits : Tab Wait
  /-- packet number, slot, and the packet's words when it is in issue (R58, R68) -/
  pkt : Nat
  slot : Nat
  ibuf : Option (List Nat)
  /-- s0 to s63, and the banked s56 to s63 of P mode at 64 to 71 (R281) -/
  sregs : Tab DWord
  /-- logical vector register × 1 024 + lane (R18) -/
  vregs : Tab Word
  pregs : Tab Lanes
  /-- flagged destinations not yet waited for (R70), and registers left unspecified (R70, R21) -/
  pend : List PendDest
  unspec : List UnspecDest
  mask : Lanes
  mstack : List MaskEntry
  winbase : Nat
  lo : Nat
  /-- f0 to f11, and 15 for the record of operations with no flag (R69, R283) -/
  flags : Tab FlagState
  /-- the record a WAIT has delivered: flag, and the WAIT's packet and slot (R71, R286) -/
  dlv : Option (Nat × Nat × Nat)
  /-- what is recorded under that flag after the delivery and before the record is cleared (R286, R288) -/
  dlvNext : Option FaultRec
  fpflags : BitVec 32
  /-- the flags raised since the packet began, which a write of `fpflags` in it keeps (R47) -/
  fpnew : BitVec 32
  fpmode : BitVec 32
  /-- writes in force from the next packet (R25, R47, R291): by CSR number, `fpmode` at 4 096, `greedy` at 4 097 -/
  pendw : Tab DWord
  greedy : Nat
  /-- issue policy: packets issued in a row, yielded mark, launch timestamp, register-file partition (R18, R24) -/
  consec : Nat
  yielded : Bool
  stamp : Nat
  rfpart : Nat
  /-- the last attempt stalled and nothing has moved since (log 1) -/
  blocked : Bool
  /-- TSTAT (R282) -/
  priv : Bool
  sstep : Bool
  skip : Bool
  epc : DWord
  ecause : DWord
  eaddr : DWord
  einfo : DWord
  efpf : DWord
  efpm : DWord
  bpc : Tab DWord
  wpa : Tab DWord
  wpc : Tab DWord
  /-- mask, mask stack and winbase saved at trap entry (R284) -/
  smask : Lanes
  smstack : List MaskEntry
  swin : Nat
  sndcfg : Tab DWord
  /-- send buffers, one flit each (R174) -/
  snd : Tab (BitVec 128)
  guards : List HeldGuard
  /-- a TINJ held for the next U-mode packet, and a halt request (R285, R289) -/
  tinj : Option Nat
  halt : Bool
  stop : Option StopRec
deriving DecidableEq, Repr

/-- A chain under way (R60): the team as it stood before the chain, and the slots of the members that have taken effect. -/
structure Chain where
  before : Team
  done : List Nat
deriving DecidableEq, Repr

/-! ## Blocks, kernels, coachmen -/

/-- The kernel a block runs, as its kernel record gives it (R260, R72), and its image as loaded (R88). -/
structure Kernel where
  code : Nat
  npkt : Nat
  mcode : Nat
  mpkt : Nat
  pools : List (Nat × Nat)
  image : List Host.Cell
deriving DecidableEq, Repr

/-- A stage entry (R261). -/
structure Stage where
  kidx : Nat
  w : Nat
  lanes : Nat
  teams : Nat
  nreg : Nat
  spill : Nat
  win : Nat
  accr : Nat
  wbr : Nat
  weight : Nat
  maxb : Nat
  hitch : Nat
  onepc : Bool
  joins : Nat
  joinp : Nat
  budget : Nat
  inq : Nat
  outq : List Nat
  /-- (FILL, paddock table index) of each valid PADk -/
  pads : List (Bool × Nat)
deriving DecidableEq, Repr

/-- Where a translated address lies (R318, R320): page kind (0 NORMAL, 1 PEER, 2 HOST), peer package or host window,
physical address or window offset, home attribute, and the context whose hash applies. -/
structure Loc where
  kind : Nat
  dest : Nat
  addr : Nat
  home : Nat
  homeid : Nat
  part : Nat
  ctx : Nat
deriving DecidableEq, Repr

/-- Who stored last to a stash line. -/
structure StashMark where
  unit : UnitId
  va : Nat
  org : Nat
deriving DecidableEq, Repr

/-- One mapped stash range (R148, R149): global base, bytes, offset in the window, where each 64 KiB page of it lies, and by
offset in the range the lines filled, the dirty bytes and the poisoned 32-byte sectors. -/
structure StashSlot where
  base : Nat
  len : Nat
  off : Nat
  pages : List (Nat × Loc)
  filled : List Nat
  dirty : List Nat
  pois : List Nat
  /-- by line, the unit whose STX wrote it last, with that store's virtual address and instruction (R297) -/
  marks : Tab StashMark
deriving DecidableEq, Repr

/-- A paddock a block has attached (R211): name, offset in the block's address range, size, offset on the core. -/
structure Attached where
  name : Nat
  off : Nat
  size : Nat
  coreOff : Nat
deriving DecidableEq, Repr

/-- One block (R26). -/
structure Block where
  part : Nat
  ctx : Nat
  gslot : Nat
  stage : Nat
  serial : Nat
  /-- hitch: size code, rank and identity (R26, R30) -/
  hsize : Nat
  hrank : Nat
  hitch : Nat
  w : Nat
  lanes : Nat
  nreg : Nat
  spillGroups : Nat
  nteams : Nat
  kern : Kernel
  /-- offsets and sizes in bytes on the core (R26, R27, R21) -/
  winOff : Nat
  winSize : Nat
  spillOff : Nat
  accOff : Nat
  accSize : Nat
  wbOff : Nat
  wbSize : Nat
  /-- dequeue budget and records counted towards it (R28); records delivered (R33) -/
  budget : Nat
  counted : Nat
  recs : Nat
  joins : Nat
  joinp : Nat
  stash : Tab StashSlot
  attached : List Attached
  /-- FILL paddocks taken at launch (R210) -/
  launchPads : List Nat
  nextTicket : Nat
  /-- the 64 most recent dray statuses, by ticket (R225) -/
  tickets : Tab DWord
  killed : Bool
  /-- placed for a hitch that has not committed: its resources are set aside (R307, R308) -/
  aside : Bool
  /-- retired, but the slot waits for an entry of the event buffer (R33) -/
  retired : Bool
deriving DecidableEq, Repr

/-- One coachman (R233). -/
structure Coach where
  status : UnitStatus
  wait : Wait
  pkt : Nat
  slot : Nat
  ibuf : Option (List Nat)
  z : Tab (BitVec 48)
  l : Tab Nat
  /-- m0 to m7, and 15 (R235, R252) -/
  flags : Tab FlagState
  mfl : BitVec 7
  pool : BitVec 1024
  /-- progress of the MLDW that stopped for want of chunks: groups done, in order (R242) -/
  progress : Nat
  /-- generation of the latest arrival at each barrier, until it completes (R251) -/
  arrived : Tab Nat
  stop : Option StopRec
  /-- the last attempt stalled and nothing has moved since (log 1) -/
  blocked : Bool
deriving DecidableEq, Repr

/-! ## Global memory: locations, L1, requests, operations in flight -/

/-- One 32-byte sector of a core's L1 (R144): its bytes are valid, or only those of the dirty mask are. -/
structure L1Sector where
  core : Nat
  loc : Loc
  valid : Bool
  data : BitVec 256
  dirty : BitVec 32
  pois : Bool
  owner : Nat
  /-- the unit whose store was merged last, and that store's virtual address and instruction -/
  unit : UnitId
  va : Nat
  org : Nat
deriving DecidableEq, Repr

/-- One line of a slice with its tag (R366): `line` is bits 38:7 of the physical address; sector masks have 4 bits. -/
structure Line where
  line : Nat
  ctxp : Nat
  own : Nat
  pois : BitVec 4
  dirty : BitVec 4
  valid : BitVec 4
  rdp : Bool
  lock : Bool
  pin : Bool
  data : LineData
deriving DecidableEq, Repr

/-- One lane of a load: where it reads, how many bytes, which of them it has, their value, and whether it met a fault
(R143, R145). -/
structure LaneLoad where
  lane : Nat
  loc : Loc
  ea : Nat
  n : Nat
  have_ : Nat
  val : Nat
  bad : Bool
deriving DecidableEq, Repr

/-- One lane of an atomic (R160): source, expected value, and the old value once it is applied. -/
structure LaneAtom where
  lane : Nat
  loc : Loc
  ea : Nat
  src : Nat
  exp : Nat
  old : Nat
  pois : Bool
deriving DecidableEq, Repr

/-- What a line request does at its home (R365). `half` tells the two halves of a packed atomic apart (R161): 0 whole,
1 low, 2 high. -/
inductive ReqKind where
  | load (sectors : Nat)
  | store (bytes : List (Nat × Byte))
  | atomic (op kind half : Nat) (lanes : List LaneAtom)
  | reduce (op kind half : Nat) (lanes : List LaneAtom) (det : Bool)
deriving DecidableEq, Repr

/-- Where a request stands. -/
inductive ReqStage where
  /-- on its way to the home slice, the peer or the host -/
  | sent
  /-- at the slice, waiting for its line or its turn -/
  | filling
  /-- an atomic of which n lanes have been applied (R161, R162) -/
  | applying (n : Nat)
  /-- performed; the reply is on its way -/
  | performed
  /-- failed with a cause code -/
  | failed (code : Nat)
deriving DecidableEq, Repr

/-- A line request in flight (R365, R370). -/
structure Req where
  op : Nat
  core : Nat
  unit : UnitId
  loc : Loc
  kind : ReqKind
  stage : ReqStage
  data : LineData
  pois : BitVec 4
  /-- an acquire has passed since it was sent, so its reply fills no L1 sector (R182) -/
  nofill : Bool
  owner : Nat
  /-- issue order; and the order of arrival at the slice, then of performance there -/
  stamp : Nat
  arrive : Nat
  /-- virtual address and instruction of a posted store -/
  va : Nat
  org : Nat
deriving DecidableEq, Repr

/-- A range of a core's local memory that an operation in flight reads or writes (R191). Spaces: 0 scratchpad,
1 accumulator store, 2 weight buffer. -/
structure Foot where
  space : Nat
  start : Nat
  len : Nat
  write : Bool
deriving DecidableEq, Repr

/-- What an operation in flight is. Vector destinations are logical registers. -/
inductive OpKind where
  /-- LDG, LDX: destination, 64-bit pair, lanes, 1 when it is an LDX -/
  | load (dst : Nat) (wide : Bool) (lanes : List LaneLoad) (stash : Nat)
  /-- ATG and ATL: destination, pair, lanes with their old values when applied, and whether it is an acquire -/
  | atomic (dst : Nat) (wide : Bool) (lanes : List LaneAtom) (acq : Bool)
  /-- TLD and TST: the pieces of its rows at their home with length and virtual address, data of a TST, scope, and whether
  the lines are locked (R154) -/
  | tile (store : Bool) (rows : List (Loc × Nat × Nat)) (data : List Byte) (scope : Nat) (locked : Bool)
  /-- ENQ: queue, all or nothing, predicate, scalar group, record bytes by lane, count and status once answered -/
  | enq (q : Loc) (all : Bool) (pa x : Nat) (recs : List (Nat × List Byte)) (act : Lanes) (reply : Option (Nat × Nat))
  /-- DEQ: queue, whether it waits, predicate, scalar group, record bytes, lanes, whether it counts towards the budget,
  records and status once answered -/
  | deq (q : Loc) (wait : Bool) (pa x rec : Nat) (act : Lanes) (inq : Bool) (reply : Option (List (List Byte) × Nat))
  /-- GRAB: queue, scalar group, destination, lanes, whether it counts, coordinates and status once answered -/
  | grab (q : Loc) (x dst : Nat) (act : Lanes) (inq : Bool) (reply : Option (List (Nat × Nat × Nat) × Nat))
  /-- ACQ of a guard: address, location, mode, scope, and the regions tethered at the grant -/
  | guardReq (addr : Nat) (loc : Loc) (mode scope : Nat) (granted : Option (List (Nat × Nat)))
  /-- REL of a guard held in a mode -/
  | guardRel (loc : Loc) (mode : Nat)
  /-- TABLD: table, header words and entries' offset on the core (R128) -/
  | tabld (t off n : Nat) (hdr : List Byte)
  /-- PDATT .FILL: paddock, physical scalar of the first result, offset in the block, and offset and size reserved on the core,
  0 when it joined a fill of its core -/
  | attach (name x off coreOff size : Nat)
  /-- PDEVI .WB: paddock -/
  | evict (name : Nat)
  /-- TLBI: waits for accesses that used a removed translation (R293) -/
  | tlbi
  /-- the core's wait of a retiring block for its outstanding operations (R33) -/
  | retire
deriving DecidableEq, Repr

/-- An operation in flight (R32, R69, R154). -/
structure Op where
  unit : UnitId
  part : Nat
  ctx : Nat
  flag : Nat
  pkt : Nat
  slot : Nat
  /-- issue timestamp (R154) and place in arrival order at the home slice -/
  stamp : Nat
  arrive : Nat
  kind : OpKind
  fault : Option FaultRec
  foot : List Foot
deriving DecidableEq, Repr

/-- A reduce-add held at a slice in deterministic mode (R361): location, operation, source identifier, issue order. -/
structure RedPend where
  loc : Loc
  op : Nat
  kind : Nat
  half : Nat
  lanes : List LaneAtom
  src : Nat
  stamp : Nat
  owner : Nat
  core : Nat
  /-- the dray job whose update it is, 0 for none (R227) -/
  job : Nat
deriving DecidableEq, Repr

/-! ## Translation -/

/-- One TLB entry (R324): the core or cluster that holds it, partition, context, virtual base, page bits and leaf. -/
structure TlbEntry where
  holder : Nat
  part : Nat
  ctx : Nat
  base : Nat
  pbits : Nat
  leaf : Nat
deriving DecidableEq, Repr

/-- One table pointer of a walk cache (R324): cluster, partition, context, level, address prefix, table address. -/
structure WalkPtr where
  cluster : Nat
  part : Nat
  ctx : Nat
  level : Nat
  pfx : Nat
  table : Nat
deriving DecidableEq, Repr

/-- A walk in flight (R324, R326): cluster, requesters that wait with their cores, partition, context, page address. -/
structure Walk where
  cluster : Nat
  reqs : List (Nat × Nat)
  part : Nat
  ctx : Nat
  va : Nat
deriving DecidableEq, Repr

/-- The result of a walk that no TLB may hold (R324): the requester that asked uses it once. -/
structure WalkMiss where
  req : Nat
  part : Nat
  ctx : Nat
  va : Nat
deriving DecidableEq, Repr

/-! ## Engines -/

/-- A dray job (R215 to R232): the command, S[X + 1] and S[X + 3], the layout records as numbers, origins and box by dimension,
and the index array as read at issue (none for a poisoned index). -/
structure Job where
  unit : UnitId
  part : Nat
  ctx : Nat
  flag : Nat
  pkt : Nat
  slot : Nat
  leader : Nat
  dray : Nat
  cmd : Nat
  ticket : Nat
  comp : DWord
  arg : DWord
  src : Nat
  dst : Nat
  sorg : List Nat
  dorg : List Nat
  box : List Nat
  idx : List (Option Nat)
  aoff : Option Nat
  /-- job offset or move reached, bytes read for the next piece with their poison, bytes of it written -/
  pos : Nat
  buf : List (Byte × Bool)
  put : Nat
  /-- the access to a peer or host it waits for -/
  ref : Option Nat
  /-- bytes still counted in OUT -/
  out : Nat
  /-- payload of a DMCS, its members, the targets, the responses heard (R229), and whether it has been sent -/
  data : List Byte
  members : List Nat
  targets : Nat
  acks : Nat
  refs : Nat
  negs : Nat
  sent : Bool
  /-- poison met: job offset, code, address, end of the line's portion (R224) -/
  pois : Option (Nat × Nat × Nat × Nat)
  /-- where and why it stopped: offset, CAUSE, and the fault to deliver -/
  stop : Option (Nat × Nat × FaultRec)
  ovr : Bool
  flags : Nat
  foot : List Foot
  stamp : Nat
  /-- pages translated, for reading or for writing, by virtual page number (R325) -/
  pages : List (Nat × Bool × Loc)
  /-- payload bytes still to be taken from IN of the arrival object (R200) -/
  inLeft : Nat
  /-- 201 when an update of the arrival object would have left its range (R195), else 0 -/
  objFault : Nat
  /-- an update was left to a peer's deterministic buffer, so that the flags it raises are not heard (R361) -/
  unheard : Bool
deriving DecidableEq, Repr

/-- A matrix instruction issued and not complete (R234): the op, the region registers it captured, and its stage. -/
structure MFly where
  core : Nat
  bslot : Nat
  op : CoachOp
  z : Tab (BitVec 48)
  mf : Nat
  pkt : Nat
  slot : Nat
  /-- 0 waits in the array, 1 dispatched and running -/
  stage : Nat
  /-- mask region or group table read at issue (R248, R249) -/
  table : List Byte
  /-- elements or groups done (R242, R256) -/
  resume : Nat
  fault : Option FaultRec
  foot : List Foot
  stamp : Nat
deriving DecidableEq, Repr

/-- One bank of a function table (R127): header bytes and entries. -/
structure Bank where
  n : Nat
  shift : Nat
  x0 : Nat
  entries : List Word
deriving DecidableEq, Repr

/-! ## Synchronisation -/

/-- One harness barrier (R196, R197): generation, members, arrived, departing members, and held changes by block. -/
structure Barrier where
  gen : Nat
  members : List UnitId
  arrived : List UnitId
  leaving : List UnitId
  held : List (Nat × List UnitId)
deriving DecidableEq, Repr

/-- One paddock of a registry (R209, R399). States: 1 evicted, 2 resident, 3 filling. -/
structure Paddock where
  name : Nat
  part : Nat
  ctx : Nat
  size : Nat
  back : Nat
  pin : Bool
  state : Nat
  core : Nat
  coreOff : Nat
  acnt : Nat
  /-- when it was last detached (R210) -/
  detached : Nat
  /-- attaches and evictions in flight, in registry order -/
  waiting : List Nat
  /-- the context under which it became resident, and with which its bytes leave the core (R314, R315) -/
  under : Nat
deriving DecidableEq, Repr

/-! ## Contexts, partitions, graphs, distribution -/

/-- A context of a partition (R282, R387). -/
structure Ctx where
  ptbase : Nat
  hseed : Nat
  tvec : Nat
  hbase : Nat
  hpkt : Nat
  redmode : Nat
  fltq : Nat
deriving DecidableEq, Repr

/-- A resident graph (R262, R298, R339). -/
structure Graph where
  part : Nat
  ctx : Nat
  record : Nat
  evq : Nat
  kernels : List Kernel
  queues : List Nat
  /-- whiffletree slot of each queue of the table, as its descriptor gave it at residency -/
  wslots : List Nat
  paddocks : List (Nat × Nat)
  stages : List Stage
  params : List Byte
  launchRec : Nat
  cval : DWord
  wq : Nat
  /-- launch serial counter (R33); blocks in flight by stage (R305); stages finished (R263) -/
  serial : Nat
  inflight : Tab Nat
  finished : List Nat
  /-- cores that have run one of its blocks (R34) -/
  ran : List Nat
  /-- being removed by GRAPH_REMOVE (R345) -/
  removing : Bool
deriving DecidableEq, Repr

/-- Where a core's save sequence stands (R313). -/
inductive SavePhase where
  | run
  | stop
  | drain
  | flush
  | save
  | idle
  | load
deriving DecidableEq, Repr

/-- A completion event that waits for its block's operations or for room (R33): context, graph slot, stage, block key, whether
the block keeps its slot for it, whether it takes an entry of the event buffer, event queue address, the event. -/
structure HeldEvent where
  part : Nat
  ctx : Nat
  gslot : Nat
  stage : Nat
  blockKey : Nat
  slotHeld : Bool
  buffered : Bool
  evq : Nat
  event : BitVec 128
deriving DecidableEq, Repr

/-- One core's own state besides its arrays. -/
structure Core where
  phase : SavePhase
  /-- the distributor has something to evaluate (R304) -/
  evalDue : Bool
  /-- a claim on an in-flight count has been sent for (graph slot, stage) (R305) -/
  claim : Option (Nat × Nat)
  /-- stages excluded after a refused claim (R305) -/
  excluded : List (Nat × Nat)
  /-- its last evaluation found no eligible stage (R304) -/
  idle : Bool
  /-- graphs whose digests the core holds (R298) -/
  digests : List Nat
  events : List HeldEvent
  /-- units that wait at SGET of rcv0 to rcv3, in their order (R175) -/
  readers : Tab (List UnitId)
  rcv : Tab (List (BitVec 128))
  /-- flits of retired blocks still on their way: destination core, FIFO, flit (R174) -/
  flits : List (Nat × Nat × BitVec 128)
  /-- the block slot whose coachman the array took an instruction from last (R233) -/
  turn : Nat
deriving DecidableEq, Repr

/-- A hitch placement at a cluster's arbiter (R307). -/
structure HitchReq where
  core : Nat
  gslot : Nat
  stage : Nat
  members : List Nat
  grants : List Nat
  denies : List Nat
  sticky : Bool
  /-- 0 asked, 1 reserving, 2 committed, 3 cancelled -/
  phase : Nat
deriving DecidableEq, Repr

/-- What a context has saved of one core (R314). -/
structure Saved where
  teams : Tab Team
  blocks : Tab Block
  coaches : Tab Coach
  spad : List Host.Cell
  acc : List Host.Cell
  wbuf : List Host.Cell
  spadPois : List Nat
  accPois : List Nat
  wbufPois : List Nat
  tables : Tab Bank
  tabCur : Tab Nat
  rcv : Tab (List (BitVec 128))
  readers : Tab (List UnitId)
  flits : List (Nat × Nat × BitVec 128)
  events : List HeldEvent
  barriers : Tab Barrier
  mops : Tab MFly
  chains : Tab Chain
  resend : Tab Op
deriving DecidableEq, Repr

/-! ## The ostler -/

/-- One level of a work queue's stack (R336): kind (0 the stream, 1 INDIRECT, 2 LOOP), where its bytes lie and how many, the
position of its next packet, passes left, and the bytes by which its return moves the level below. -/
structure Level where
  kind : Nat
  base : Nat
  len : Nat
  pos : Nat
  passes : Nat
  ret : Nat
deriving DecidableEq, Repr

/-- A 64-byte command line fetched ahead (R341): depth of its level, its address by 64, its bytes (at level 0 those below TAIL
at the fetch), poison code or 0. -/
structure FetchedLine where
  level : Nat
  line : Nat
  bytes : List Byte
  pois : Nat
deriving DecidableEq, Repr

/-- What a queue in STATE 3 or 4 waits for (R338, R339, R340). -/
inductive WqWait where
  | none
  | mem
  | slot
  | launch (gslot : Nat)
  | collective (id : Nat)
  | drain
  /-- the answers of peers or hosts to its accesses (R335, R338) -/
  | remote
deriving DecidableEq, Repr

/-- One work queue (R330). -/
structure WorkQueue where
  evt : Nat
  headp : Nat
  tail : Nat
  base : Nat
  evidx : Nat
  free : List Nat
  flov : Bool
  err : Nat
  ecode : Nat
  erradr : Nat
  state : Nat
  en : Bool
  seglog : Nat
  ctx : Nat
  part : Nat
  /-- innermost level first, level 0 last; CURSEG is the base of level 0 -/
  levels : List Level
  lines : List FetchedLine
  wait : WqWait
  /-- state to return to when the context runs again (R343) -/
  paused : Nat
  /-- launches and collectives of the queue not yet complete (R340) -/
  pending : Nat
  /-- a packet is under way that a switch waits for (R337, R344), and the steps of it that are done -/
  busy : Bool
  step : Nat
  /-- packets of the innermost level still to be skipped (R338) -/
  skip : Nat
  /-- segments left by LINK with RET whose packets have not all completed (R333) -/
  leaving : List Nat
  /-- a stop was asked for (R345) -/
  stopReq : Bool
  /-- where the signal of a WRITE_SIGNAL goes that waits for its data: translated before they were written (R335) -/
  kept : List (Loc × Nat)
deriving DecidableEq, Repr

/-! ## The fabric and the hosts -/

/-- What leaves the package. Frames carry the port they leave by. -/
inductive OutMsg where
  | req (f : ReqFrame)
  | rsp (f : RspFrame)
  | fwd (f : FwdFrame)
  | sum (f : SumFrame)
  | mcd (f : McdFrame)
  | mcr (f : McrFrame)
  | col (f : ColFrame)
  | ack (port seq : Nat)
  | nak (port seq : Nat) (busy : Bool)
  | notReady (port : Nat)
  /-- RDMA to a host (R363): queue pair, host address, key; the number of the access -/
  | rdmaWrite (part qp addr rkey : Nat) (data : List Nat) (ref : Nat)
  | rdmaRead (part qp addr rkey len : Nat) (ref : Nat)
  /-- answers to inbound RDMA (R364): data, or a remote access NAK, or RNR NAK (R392) -/
  | rdmaReply (part qp : Nat) (data : List Nat)
  | rdmaNak (part qp : Nat)
  | rnr (part qp : Nat)
  /-- a management reply: OP, RESULT, TAG and q1 (R345) -/
  | mgmt (part op result tag : Nat) (q1 : Nat)
  | accept (part qp : Nat)
  | reject (part qp : Nat)
deriving DecidableEq, Repr

/-- A records' remainder held in a port's frame store (R354): send index, records. -/
structure HeldFrame where
  pidx : Nat
  src : Nat
  close : Bool
  recs : List (List Nat)
deriving DecidableEq, Repr

/-- One Geldy port (R347, R348, R351, R354). -/
structure Port where
  up : Bool
  /-- the identity it was trained with (R386) -/
  ident : Nat
  nextSeq : Nat
  expSeq : Nat
  unacked : List (Nat × OutMsg)
  goBacks : Nat
  /-- B_remote of each send entry, by index (R268) -/
  bRemote : Tab Nat
  store : List HeldFrame
  /-- bindings lost (R354): index, and whether the index is of a send entry -/
  lost : List Nat
  /-- close marks sent, by index (R353) -/
  closed : List Nat
  /-- a frame refused busy is sent again later (R354) -/
  resend : List OutMsg
deriving DecidableEq, Repr

/-- An access waiting on a peer or a host, by the number it carries: the request it belongs to, the peer package or queue
pair, and for accesses of the ostler and the drays their owner. -/
structure Remote where
  req : Nat
  peer : Nat
  host : Bool
  qp : Nat
  part : Nat
  /-- 0 a line request, 1 a tile, 2 a dray job, 3 a work queue, 4 a guard request, 5 a peer's guard request waiting here,
  6 a dray command's record, 7 nothing waits for its answer, 8 a command-line fetch, 9 a management write -/
  owner : Nat
  id : Nat
  data : List Nat
  status : Nat
  answered : Bool
deriving DecidableEq, Repr

/-- A multicast payload being assembled at this package (R356). -/
structure McastIn where
  src : Nat
  core : Nat
  bslot : Nat
  ticket : Nat
  gid : Nat
  mask : Nat
  data : List Nat
deriving DecidableEq, Repr

/-- A collective at this participant (R358): record address, the record's fields, and the contributions heard. -/
structure Collective where
  part : Nat
  ctx : Nat
  gid : Nat
  collid : Nat
  issued : Bool
  recAddr : Nat
  q : Nat
  comp : Nat
  val : DWord
  op : Nat
  fmt : Nat
  eop : Nat
  count : Nat
  rank : Nat
  nsrc : Nat
  sstr : Nat
  dst : Nat
  src : Nat
  members : List Nat
  sync : Bool
  /-- (origin rank, shard, arrays) heard so far, this participant's own among them -/
  heard : List (Nat × Nat × List (List Nat))
deriving DecidableEq, Repr

/-- A host queue pair (R362). -/
structure HostQp where
  open_ : Bool
  port : Nat
  reduced : Bool
  peer : Nat
  /-- its latest atomics, by packet sequence number, with what they were answered: RoCE v2's replay (R331) -/
  replay : List (Nat × List Nat)
deriving DecidableEq, Repr

/-! ## Package -/

/-- Bring-up states (R391). -/
inductive ResetPhase where
  | hold
  | farrier
  | train
  | clear
  | ready
deriving DecidableEq, Repr

/-- One record of a RAS log (R393). -/
structure RasRec where
  time : DWord
  addr : DWord
  count : Nat
  ctx : Nat
  part : Nat
  inst : Nat
  code : Nat
deriving DecidableEq, Repr

/-- One RAS log (R394): index of the oldest unconsumed record, of the next to be written, records lost, and the ring. -/
structure RasLog where
  head : Nat
  tail : Nat
  lost : Nat
  recs : Tab RasRec
deriving DecidableEq, Repr

/-- An owner key slot (R380): V, RETAIN, PART, and the number of the key it holds; keys themselves never appear. -/
structure KeySlot where
  v : Bool
  retain : Bool
  part : Nat
  key : Nat
deriving DecidableEq, Repr

/-- A management reply that waits (R345): partition, the graph slot whose removal it reports (slot + 1, or 0), the number of
the answered request's accesses to peers (or 0), and the reply. -/
structure Reply where
  part : Nat
  gslot : Nat
  id : Nat
  msg : OutMsg
deriving DecidableEq, Repr

/-- An HBM channel's queue (R372): requests waiting, oldest first, as slice × 2^32 + line, and whether the oldest reached
AGECAP. -/
structure Channel where
  queue : List Nat
  capped : Bool
deriving DecidableEq, Repr

/-- An image in the boot flash (R382): its bytes. -/
structure FlashImage where
  header : List Nat
  body : List Nat
  makerSig : List Nat
  ownerSig : List Nat
deriving DecidableEq, Repr

/-- Why the machine stops. No rule of the manual stops it: every access the manual describes has a stated outcome. -/
inductive Fault where
  /-- raised by nothing in this model: kept for an address the manual says does not exist. Safe. -/
  | noSuchAddress
deriving DecidableEq, Repr

/-- Why an instruction has no meaning. -/
inductive Refusal where
  /-- raised by `exec` for an instruction whose meaning is not written yet. Safe. -/
  | notModelled (mnemonic : String)
deriving DecidableEq, Repr

/-- The machine: one Rhautus package. Keys of the tables: a core by `coreid`; a block or coachman by core × 16 + slot; a
team by core × 1 024 + slot × 64 + team; scratchpad bytes by core × 2^20 + offset; accumulator and weight-buffer bytes by
core × 2^18 + offset; lines by slice × 8 192 + place; contexts by partition × 64 + number. -/
structure State where
  /-- the model's own (log 1 to log 4) -/
  cur : UnitId
  fate : Fate
  snap : Option Team
  /-- chains of which a member waits, by team -/
  chains : Tab Chain
  fresh : Nat
  inputs : List Instr
  outbox : List OutMsg
  nextOp : Nat
  nextStamp : Nat
  /-- units (R13, R26, R233) -/
  teams : Tab Team
  blocks : Tab Block
  coaches : Tab Coach
  /-- cores: the arrays, sector lists of poison, owner tags (R8, R376) -/
  cores : Tab Core
  spad : List Host.Cell
  acc : List Host.Cell
  wbuf : List Host.Cell
  spadPois : List Nat
  accPois : List Nat
  wbufPois : List Nat
  spadOwn : Tab Nat
  l1 : List L1Sector
  tables : Tab Bank
  tabCur : Tab Nat
  curTeam : Tab Nat
  /-- operations in flight (R32) and line requests -/
  ops : Tab Op
  reqs : Tab Req
  jobs : Tab Job
  mops : Tab MFly
  remotes : Tab Remote
  /-- frames for which no port has room or a route: destination package and frame -/
  unsent : List (Nat × OutMsg)
  /-- translation -/
  tlb : List TlbEntry
  ctlb : List TlbEntry
  wcache : List WalkPtr
  walks : Tab Walk
  misses : List WalkMiss
  /-- memory system -/
  mem : List Host.Cell
  memPois : List Nat
  memKey : Tab Nat
  l2 : Tab Line
  redbuf : Tab (List RedPend)
  redOvf : List Nat
  channels : Tab Channel
  hbmctl : Tab DWord
  /-- synchronisation and placement -/
  barriers : Tab Barrier
  paddocks : List Paddock
  graphs : Tab Graph
  hitches : Tab (List HitchReq)
  cancels : Tab Nat
  nextHitch : Nat
  /-- whiffletree (R300, R301) -/
  wtree : Tab (Tab (BitVec 24))
  wport : Tab (BitVec 24)
  wsample : List (Nat × Tab (BitVec 24))
  /-- queue descriptors whose home slice has served a step of them, and so reports them where WEN is set (R300) -/
  queueLocs : List Loc
  /-- the frame pair sampled next (R301) -/
  wnext : Nat
  wstarted : Bool
  /-- contexts and partitions -/
  ctxs : Tab Ctx
  saved : Tab Saved
  running : Tab Nat
  switching : Tab Nat
  sliceLen : Tab Nat
  /-- when the running context of a partition was restored (R343) -/
  sliceAt : Tab Nat
  /-- the slice length in force since then -/
  sliceNow : Tab Nat
  parts : Tab (BitVec 512)
  /-- ostler -/
  ostler : Bool
  wqs : Tab WorkQueue
  /-- fabric -/
  ports : Tab Port
  reqNum : Tab Nat
  reqSeen : Tab Nat
  mcastIn : List McastIn
  colls : Tab Collective
  /-- queues whose refill is under way, and decrements of PRODS on their way (R168, R263) -/
  refills : Tab Loc
  prodMsgs : Tab Loc
  hostqps : Tab HostQp
  /-- management replies in request order that are not sent yet (R345) -/
  replies : List Reply
  /-- package -/
  phase : ResetPhase
  clock : Nat
  raslogs : Tab RasLog
  /-- limits now reached (R398): HBM stacks 0 to 7, 8 the package -/
  power : List Nat
  /-- HBM stacks that failed training (R391) -/
  stacksDown : List Nat
  /-- secure store and firmware (R379 to R389) -/
  owned : Bool
  ownerKh : List Nat
  ownerKey : List Nat
  seqCtr : Nat
  minver : Tab Nat
  epoch : Nat
  pkgIdent : Option Nat
  identNow : Option Nat
  keys : Tab KeySlot
  nextKey : Nat
  bootm : List Nat
  partm : Tab (List Nat)
  flash : Tab FlashImage
deriving DecidableEq, Repr

/-- The state right after reset (R390, R391): HOLD, every array zero, nothing running. Values the manual does not give are named in
logs 1 to 6 and 14. -/
def State.reset : State where
  cur := ⟨0, 0, 0, false⟩
  fate := .completed
  snap := none
  chains := []
  fresh := 0
  inputs := []
  outbox := []
  nextOp := 1
  nextStamp := 1
  teams := []
  blocks := []
  coaches := []
  cores := []
  spad := []
  acc := []
  wbuf := []
  spadPois := []
  accPois := []
  wbufPois := []
  spadOwn := []
  l1 := []
  tables := []
  tabCur := []
  curTeam := []
  ops := []
  reqs := []
  jobs := []
  mops := []
  remotes := []
  unsent := []
  tlb := []
  ctlb := []
  wcache := []
  walks := []
  misses := []
  mem := []
  memPois := []
  memKey := []
  l2 := []
  redbuf := []
  redOvf := []
  channels := []
  hbmctl := []
  barriers := []
  paddocks := []
  graphs := []
  hitches := []
  cancels := []
  nextHitch := 1
  wtree := []
  wport := []
  wsample := []
  queueLocs := []
  wnext := 0
  wstarted := false
  ctxs := []
  saved := []
  running := []
  switching := []
  sliceLen := []
  sliceAt := []
  sliceNow := []
  parts := []
  ostler := false
  wqs := []
  ports := []
  reqNum := []
  reqSeen := []
  mcastIn := []
  colls := []
  refills := []
  prodMsgs := []
  hostqps := []
  replies := []
  phase := .hold
  clock := 0
  raslogs := []
  power := []
  stacksDown := []
  owned := false
  ownerKh := []
  ownerKey := []
  seqCtr := 0
  minver := []
  epoch := 0
  pkgIdent := none
  identNow := none
  keys := []
  nextKey := 1
  bootm := List.replicate 32 0
  partm := []
  flash := []

end Sys2Proof.Machine
end

