-- ==== Sys2Proof/Machine/Tab.lean ====
section
/-! DEFINITION. Sparse tables and byte memories: entries by strictly rising key. A byte memory lists no byte that reads as
an unlisted one does, zero, so equal memories are equal lists. -/

namespace Sys2Proof.Machine

/-- The entry of key k. -/
def tget {α : Type} : Tab α → Nat → Option α
  | [], _ => none
  | (k', v) :: t, k => if k = k' then some v else tget t k

/-- The table with entry v at key k. -/
def tset {α : Type} : Tab α → Nat → α → Tab α
  | [], k, v => [(k, v)]
  | (k', v') :: t, k, v =>
    if k = k' then (k, v) :: t else if k < k' then (k, v) :: (k', v') :: t else (k', v') :: tset t k v

/-- The table with no entry at key k. -/
def tdel {α : Type} : Tab α → Nat → Tab α
  | [], _ => []
  | (k', v') :: t, k => if k = k' then tdel t k else (k', v') :: tdel t k

/-- Keys rise strictly, all above `lo`. -/
def risesFrom {α : Type} : Nat → Tab α → Bool
  | _, [] => true
  | lo, (k, _) :: t => decide (lo ≤ k) && risesFrom (k + 1) t

/-- A word of a table of words: an unlisted one reads as zero. -/
def wget {n : Nat} (t : Tab (BitVec n)) (k : Nat) : BitVec n := (tget t k).getD 0

/-- The entries whose keys lie in [lo, lo + n). -/
def tslice {α : Type} (t : Tab α) (lo n : Nat) : Tab α := t.filter fun p => decide (lo ≤ p.1) && decide (p.1 < lo + n)

/-- The entries whose keys do not. -/
def tcut {α : Type} (t : Tab α) (lo n : Nat) : Tab α := t.filter fun p => !(decide (lo ≤ p.1) && decide (p.1 < lo + n))

/-! ## Byte memories -/

/-- What an unlisted byte reads as: zero (R390, R391 for the arrays; log 5 for HBM). -/
def unlistedByte : Byte := 0

/-- The byte at address a. -/
def mget (m : List Host.Cell) (a : Nat) : Byte := (tget m a).getD unlistedByte

/-- The memory with byte b at address a. -/
def mset (m : List Host.Cell) (a : Nat) (b : Byte) : List Host.Cell :=
  if b = unlistedByte then tdel m a else tset m a b

/-- The canonical form of a memory: strictly rising addresses, no byte equal to an unlisted one. -/
def Memory.wf (m : List Host.Cell) : Bool := risesFrom 0 m && m.all fun c => !(c.2 == unlistedByte)

/-- n bytes from address a up. -/
def mread (m : List Host.Cell) (a : Nat) : Nat → List Byte
  | 0 => []
  | n + 1 => mget m a :: mread m (a + 1) n

/-- Bytes bs from address a up. -/
def mwrite (m : List Host.Cell) (a : Nat) : List Byte → List Host.Cell
  | [] => m
  | b :: bs => mwrite (mset m a b) (a + 1) bs

/-- Zeros from address a up, n bytes. -/
def mzero (m : List Host.Cell) (a n : Nat) : List Host.Cell := tcut m a n

/-! ## Bytes and numbers, least significant first (R2) -/

/-- The number that bytes stand for. -/
def leNat : List Byte → Nat
  | [] => 0
  | b :: bs => b.toNat + 256 * leNat bs

/-- The n low bytes of a number. -/
def natLe : Nat → Nat → List Byte
  | 0, _ => []
  | n + 1, x => BitVec.ofNat 8 x :: natLe n (x / 256)

/-- Numbers and byte lists of frames and packets, whose bytes are plain numbers. -/
def toBytes (xs : List Nat) : List Byte := xs.map (BitVec.ofNat 8)
def ofBytes (xs : List Byte) : List Nat := xs.map BitVec.toNat

/-- A 64-bit quadword at offset o of a byte list. -/
def quad (bs : List Byte) (o : Nat) : Nat := leNat ((bs.drop o).take 8)

/-- Bits hi..lo of a number. -/
def fld (x lo n : Nat) : Nat := x / 2 ^ lo % 2 ^ n

/-- Sign extension of an n-bit number to an integer. -/
def sgn (n x : Nat) : Int := if x % 2 ^ n < 2 ^ (n - 1) then (x % 2 ^ n : Nat) else (x % 2 ^ n : Nat) - (2 : Int) ^ n

/-- Sign extension of an n-bit number to 64 bits. -/
def sext64 (n x : Nat) : DWord := BitVec.ofInt 64 (sgn n x)

/-- Membership of a number in a list of numbers. -/
def inList (x : Nat) (l : List Nat) : Bool := l.any (· == x)

/-- A list of numbers with x added once. -/
def addOnce (x : Nat) (l : List Nat) : List Nat := if inList x l then l else l ++ [x]

/-- Strictly rising insertion into a list of numbers. -/
def insertNat (x : Nat) : List Nat → List Nat
  | [] => [x]
  | y :: l => if x = y then y :: l else if x < y then x :: y :: l else y :: insertNat x l

/-- The ranges [a, a + m) and [b, b + n) share a byte. -/
def overlaps (a m b n : Nat) : Bool := decide (a < b + n) && decide (b < a + m)

/-- Rounded up to a multiple of k. -/
def roundUp (x k : Nat) : Nat := (x + k - 1) / k * k

end Sys2Proof.Machine
end

