-- ==== Sys2Proof/Machine/Ops.lean ====
section
/-! DEFINITION. The named operations over the state: units and their registers, masks, completion flags, taking an exception
and returning from it, escalation, the RAS logs. Meanings are written over these. -/

namespace Sys2Proof.Machine

/-! ## Units -/

def teamKey (u : UnitId) : Nat := u.core * 1024 + u.bslot * 64 + u.team
def blockKey (u : UnitId) : Nat := u.core * 16 + u.bslot

/-- The lanes below n. -/
def lanesBelow (n : Nat) : Lanes := BitVec.ofNat 1024 (2 ^ n - 1)

/-- The lanes of a mask, ascending, of a team of n lanes. -/
def lanesOf (m : Lanes) (n : Nat) : List Nat := (List.range n).filter fun i => m.getLsbD i

/-- The mask of some lanes. -/
def maskOf (ls : List Nat) : Lanes := ls.foldl (fun m i => m ||| BitVec.ofNat 1024 (2 ^ i)) 0

/-- A team as a launch leaves it (R19, R282). -/
def Team.init (lanes rfpart stamp : Nat) : Team where
  status := .running
  waits := []
  pkt := 0
  slot := 0
  ibuf := none
  sregs := []
  vregs := []
  pregs := []
  pend := []
  unspec := []
  mask := lanesBelow lanes
  mstack := []
  winbase := 0
  lo := 0
  flags := []
  dlv := none
  dlvNext := none
  fpflags := 0
  fpnew := 0
  fpmode := 0
  pendw := []
  greedy := 1024
  consec := 0
  yielded := false
  stamp := stamp
  rfpart := rfpart
  blocked := false
  priv := false
  sstep := false
  skip := false
  epc := 0
  ecause := 0x3C00
  eaddr := 0
  einfo := 0
  efpf := 0
  efpm := 0
  bpc := []
  wpa := []
  wpc := []
  smask := 0
  smstack := []
  swin := 0
  sndcfg := []
  snd := []
  guards := []
  tinj := none
  halt := false
  stop := none

def Kernel.empty : Kernel := ⟨0, 0, 0, 0, [], []⟩

/-- What a block key with no block stands for: one team of 16 lanes and 64 registers, no window. -/
def Block.empty : Block where
  part := 0
  ctx := 0
  gslot := 0
  stage := 0
  serial := 0
  hsize := 0
  hrank := 0
  hitch := 0
  w := 16
  lanes := 16
  nreg := 64
  spillGroups := 0
  nteams := 1
  kern := Kernel.empty
  winOff := 0
  winSize := 0
  spillOff := 0
  accOff := 0
  accSize := 0
  wbOff := 0
  wbSize := 0
  budget := 0
  counted := 0
  recs := 0
  joins := 0
  joinp := 0
  stash := []
  attached := []
  launchPads := []
  nextTicket := 0
  tickets := []
  killed := false
  aside := false
  retired := false

/-- A coachman as a launch leaves it (R233). -/
def Coach.init : Coach where
  status := .running
  wait := .none
  pkt := 0
  slot := 0
  ibuf := none
  z := []
  l := []
  flags := []
  mfl := 0
  pool := 0
  progress := 0
  arrived := []
  stop := none
  blocked := false

/-- A core with nothing on it. -/
def Core.init : Core where
  phase := .run
  evalDue := false
  claim := none
  excluded := []
  idle := false
  digests := []
  events := []
  readers := []
  rcv := []
  flits := []
  turn := 15

namespace State

/-- The current unit's team. -/
def team (s : State) : Team := (tget s.teams (teamKey s.cur)).getD (Team.init 16 0 0)

/-- The team whose registers are read: inside a chain, as it stood before the chain (R60). -/
def src (s : State) : Team := s.snap.getD s.team

def block (s : State) : Block := (tget s.blocks (blockKey s.cur)).getD Block.empty
def coach (s : State) : Coach := (tget s.coaches (blockKey s.cur)).getD Coach.init
def core (s : State) (c : Nat) : Core := (tget s.cores c).getD Core.init
def ctx (s : State) (part c : Nat) : Ctx := (tget s.ctxs (part * 64 + c)).getD ⟨0, 0, 0, 0, 0, 0, 0⟩

/-- The context of the current unit's block. -/
def myCtx (s : State) : Ctx := s.ctx s.block.part s.block.ctx

def setTeam (s : State) (t : Team) : State := { s with teams := tset s.teams (teamKey s.cur) t }
def modTeam (s : State) (f : Team → Team) : State := s.setTeam (f s.team)
def modBlock (s : State) (f : Block → Block) : State := { s with blocks := tset s.blocks (blockKey s.cur) (f s.block) }
def modCoach (s : State) (f : Coach → Coach) : State := { s with coaches := tset s.coaches (blockKey s.cur) (f s.coach) }
def modCore (s : State) (c : Nat) (f : Core → Core) : State := { s with cores := tset s.cores c (f (s.core c)) }
def withFate (s : State) (f : Fate) : State := { s with fate := f }

/-- Change a team that an operation belongs to, if it is still there; `coach` marks an operation whose team is gone. -/
def modUnit (s : State) (u : UnitId) (f : Team → Team) : State :=
  if u.coach then s else
  match tget s.teams (teamKey u) with
  | none => s
  | some t => { s with teams := tset s.teams (teamKey u) (f t) }

def modBlockAt (s : State) (k : Nat) (f : Block → Block) : State :=
  match tget s.blocks k with
  | none => s
  | some b => { s with blocks := tset s.blocks k (f b) }

/-- The owner key slot of a partition (R376, R379): KSLOT of its entry. -/
def owner (s : State) (part : Nat) : Nat := fld (wget s.parts part).toNat 8 4

end State

/-! ## Registers -/

/-- Where scalar n lives: in P mode s56 to s63 are banked (R281). -/
def physS (t : Team) (n : Nat) : Nat := if t.priv && decide (56 ≤ n) then n + 8 else n

/-- Lanes of a register that read as unspecified values: a flagged destination not yet waited for, or one left so
(R70, R21). Classes: 0 vector, 1 scalar, 2 predicate. -/
def Team.unknown (t : Team) (cls reg : Nat) : Lanes :=
  t.unspec.foldl (fun m u => if u.cls == cls && u.reg == reg then m ||| u.lanes else m)
    (t.pend.foldl (fun m p => if p.cls == cls && p.reg == reg then m ||| (p.lanes ||| p.spoiled) else m) 0)

/-- What writing lanes of a register does to its unspecified state (R70): a destination of a flagged operation becomes unspecified
in every lane. -/
def Team.touch (t : Team) (cls reg : Nat) (ls : Lanes) : Team :=
  { t with
    pend := t.pend.map fun p =>
      if p.cls == cls && p.reg == reg && ls != 0 then { p with spoiled := -1 } else p
    unspec := (t.unspec.map fun u =>
      if u.cls == cls && u.reg == reg then { u with lanes := u.lanes &&& ~~~ls } else u).filter fun u => u.lanes != 0 }

/-- The scalar as it stands in the register file. -/
def Team.sreg (t : Team) (n : Nat) : DWord := wget t.sregs (physS t n)

/-- S[n] (R86). -/
def readS (s : State) (n : Nat) : DWord :=
  if (s.src.unknown 1 (physS s.src n)).getLsbD 0 then Config.freeWord s.fresh (physS s.src n) else s.src.sreg n

/-- A write of scalar n in a team. -/
def Team.putS (t : Team) (p : Nat) (v : DWord) : Team := { t.touch 1 p 1 with sregs := tset t.sregs p v }

/-- S[n] := v. -/
def writeS (s : State) (n : Nat) (v : DWord) : State := s.modTeam fun t => t.putS (physS s.src n) v

/-- The number of logical register vk (R20). -/
def logV (s : State) (k : Nat) : Nat := s.src.winbase + k

/-- V[k][i] (R6, R20). -/
def readV (s : State) (k i : Nat) : Word :=
  if (s.src.unknown 0 (logV s k)).getLsbD i then
    (Config.freeWord s.fresh (65536 + logV s k * 1024 + i)).truncate 32
  else wget s.src.vregs (logV s k * 1024 + i)

/-- The pair V[k], V[k + 1] of lane i as 64 bits (R20). -/
def readV64 (s : State) (k i : Nat) : DWord := readV s (k + 1) i ++ readV s k i

/-- Words written to lanes of logical register r, as the register file takes them. -/
def Team.storeV (t : Team) (r : Nat) (xs : List (Nat × Word)) : Team :=
  { t with vregs := xs.foldl (fun v x => tset v (r * 1024 + x.1) x.2) t.vregs }

/-- A write of lanes of logical register r. -/
def Team.putV (t : Team) (r : Nat) (xs : List (Nat × Word)) : Team :=
  (t.touch 0 r (maskOf (xs.map Prod.fst))).storeV r xs

/-- V[k][i] := w for each (i, w). -/
def writeV (s : State) (k : Nat) (xs : List (Nat × Word)) : State := s.modTeam fun t => t.putV (logV s k) xs

/-- The pair V[k], V[k + 1] written with 64-bit values. -/
def writeV64 (s : State) (k : Nat) (xs : List (Nat × DWord)) : State :=
  writeV (writeV s k (xs.map fun (x : Nat × DWord) => (x.1, x.2.truncate 32))) (k + 1)
    (xs.map fun (x : Nat × DWord) => (x.1, (x.2 >>> 32).truncate 32))

/-- 1 024 unspecified bits. -/
def freeLanes (s : State) (tag : Nat) : Lanes :=
  (List.range 16).foldl (fun m j => m ||| ((Config.freeWord s.fresh (tag + j)).zeroExtend 1024 <<< (64 * j))) 0

/-- P[p] of every lane (R103). -/
def readP (s : State) (p : Nat) : Lanes :=
  if s.src.unknown 2 p = 0 then wget s.src.pregs p
  else (wget s.src.pregs p &&& ~~~(s.src.unknown 2 p)) ||| (freeLanes s (1024 + p * 16) &&& s.src.unknown 2 p)

def Team.putP (t : Team) (p : Nat) (m v : Lanes) : Team :=
  { t.touch 2 p m with pregs := tset t.pregs p ((wget t.pregs p &&& ~~~m) ||| (v &&& m)) }

/-- P[p][i] := bit i of v, for the team's lanes of m. -/
def writeP (s : State) (p : Nat) (m v : Lanes) : State := s.modTeam fun t => t.putP p (m &&& lanesBelow s.block.lanes) v

/-! ## Lanes (R6, R13, R15) -/

/-- The mask narrowed by guard g, 15 for none (R66). -/
def guarded (s : State) (g : Nat) : Lanes := if g < 15 then s.src.mask &&& readP s g else s.src.mask

/-- Active, under guard g, in ascending lane order. -/
def active (s : State) (g : Nat) : List Nat := lanesOf (guarded s g) s.block.lanes

/-- The lanes the mask has, in ascending order. -/
def activeAll (s : State) : List Nat := lanesOf s.src.mask s.block.lanes

/-- Sections of the current team. -/
def sections (s : State) : Nat := s.block.lanes / s.block.w

/-- The section-present word of a mask (R15). -/
def presentWord (w n : Nat) (m : Lanes) : Nat :=
  (List.range n).foldl (fun x j => if m.toNat / 2 ^ (j * w) % 2 ^ w = 0 then x else x + 2 ^ j) 0

/-! ## Completion flags (R69, R286) -/

def Team.flag (t : Team) (f : Nat) : FlagState := (tget t.flags f).getD ⟨0, none⟩

/-- The flag counts one more operation; 15 counts none. -/
def Team.flagUp (t : Team) (f : Nat) : Team :=
  if f < 12 then { t with flags := tset t.flags f { t.flag f with count := (t.flag f).count + 1 } } else t

/-- One operation of the flag has completed. -/
def Team.flagDown (t : Team) (f : Nat) : Team :=
  if f < 12 then { t with flags := tset t.flags f { t.flag f with count := (t.flag f).count - 1 } } else t

/-- A fault recorded under a flag: the first stays, a later one sets OVF (R286). -/
def FlagState.add (e : FlagState) (r : FaultRec) : FlagState :=
  match e.record with
  | none => ⟨e.count, some r⟩
  | some r0 => ⟨e.count, some { r0 with ovf := true }⟩

/-- A fault is recorded under flag f; while a delivered record stands there, it waits behind it (R286, R288). -/
def Team.recordFault (t : Team) (f : Nat) (r : FaultRec) : Team :=
  if (t.dlv.map Prod.fst) = some f then
    { t with dlvNext := ((⟨0, t.dlvNext⟩ : FlagState).add r).record }
  else { t with flags := tset t.flags f ((t.flag f).add r) }

/-- The operation completes: its flag falls, and its fault, if any, is recorded (R69, R283). -/
def Team.complete (t : Team) (f : Nat) (r : Option FaultRec) : Team :=
  match r with
  | none => t.flagDown f
  | some x => (t.recordFault f x).flagDown f

/-- A waited-for flag: destinations become readable, those spoiled stay unspecified until written again (R70). -/
def Team.waited (t : Team) (f : Nat) : Team :=
  { t with
    unspec := t.unspec ++ ((t.pend.filter fun p => p.flag == f && p.spoiled != 0).map fun p => ⟨p.cls, p.reg, p.spoiled⟩)
    pend := t.pend.filter fun p => !(p.flag == f) }

/-- A flagged operation in flight has the register as a destination (R70). -/
def Team.inFlight (t : Team) (cls reg : Nat) : Bool := t.pend.any fun p => p.cls == cls && p.reg == reg

/-- A flagged destination enters flight (R70): a second one on the same register spoils both; what was unspecified in its lanes is
so no longer once it has been waited for. -/
def Team.addPend (t : Team) (d : PendDest) : Team :=
  let u := t.touch d.cls d.reg d.lanes
  { u with pend := u.pend ++ [if d.lanes != 0 && t.inFlight d.cls d.reg then { d with spoiled := -1 } else d] }

/-- Lanes of an operation's destinations whose values are unspecified after the WAIT: its faulting lanes (R143). -/
def Team.spoil (t : Team) (op : Nat) (ls : Lanes) : Team :=
  { t with pend := t.pend.map fun p => if p.op == op then { p with spoiled := p.spoiled ||| (ls &&& p.lanes) } else p }

/-! ## Waiting -/

/-- What the instruction at the current slot waits for. -/
def Team.wait (t : Team) : Wait := (tget t.waits t.slot).getD .none

/-- A team (its key) is inside a packet: behind its first slot, or with its first instruction or chain issued (R311). -/
def midPacket (s : State) (k : Nat) (t : Team) : Bool :=
  t.slot != 0 || t.waits.any (fun w => w.2 != .none) || (tget s.chains k).isSome

/-- The wait of the current instruction, team or coachman. -/
def myWait (s : State) : Wait := if s.cur.coach then s.coach.wait else s.team.wait

def setWait (s : State) (w : Wait) : State :=
  if s.cur.coach then s.modCoach fun c => { c with wait := w }
  else s.modTeam fun t => { t with waits := tset t.waits t.slot w }

/-- The instruction is tried again later (R23). -/
def stall (s : State) : State := s.withFate .stalled

/-! ## RAS logs (R393, R394) -/

def emptyLog : RasLog := ⟨0, 0, 0, []⟩

/-- An event enters log n (0 to 7 a partition, 8 the package): counted with the newest unconsumed record when it repeats it,
lost when the ring is full. Head and tail count up without end; a record's place is its index modulo 256. -/
def logRas (s : State) (n code inst addr ctx : Nat) : State :=
  let l := (tget s.raslogs n).getD emptyLog
  let last := tget l.recs ((l.tail - 1) % 256)
  let l' :=
    match decide (l.head < l.tail), last with
    | true, some r =>
      if r.code = code ∧ r.inst = inst ∧ r.addr = BitVec.ofNat 64 addr then
        { l with recs := tset l.recs ((l.tail - 1) % 256) { r with count := min (r.count + 1) 0xFFFFFFFF } }
      else if l.tail - l.head = 256 then { l with lost := l.lost + 1 }
      else { l with tail := l.tail + 1
                    recs := tset l.recs (l.tail % 256)
                      ⟨BitVec.ofNat 64 s.clock, BitVec.ofNat 64 addr, 1, ctx, if n = 8 then 15 else n, inst, code⟩ }
    | _, _ => { l with tail := l.tail + 1
                       recs := tset l.recs (l.tail % 256)
                         ⟨BitVec.ofNat 64 s.clock, BitVec.ofNat 64 addr, 1, ctx, if n = 8 then 15 else n, inst, code⟩ }
  { s with raslogs := tset s.raslogs n l' }

/-! ## Control and status registers that take effect with the next packet -/

/-- The bits of EPC, ECAUSE, EINFO, BPC and WPC that are no reserved ones (R3, R282). -/
def epcBits : DWord := 0x3FFFFFFFFF
def ecauseBits : DWord := 0xFFF0FFFFDFF
def einfoBits : DWord := 0xFFFF003FFFFFFFFF
def bpcBits : DWord := 0xC000000FFFFFFFFF
def wpcBits : DWord := 0xE00000000000000F

/-- A write of a team CSR: reserved bits stay zero (R3, R282, R291), of `fpmode` at 4 096 (R47), of `greedy` at 4 097 (R25). -/
def Team.putCsr (t : Team) (n : Nat) (v : DWord) : Team :=
  if n = 0x800 then { t with sstep := v.getLsbD 1, skip := v.getLsbD 2 }
  else if n = 0x808 then { t with epc := v &&& epcBits }
  else if n = 0x809 then { t with ecause := v &&& ecauseBits }
  else if n = 0x80A then { t with eaddr := v }
  else if n = 0x80B then { t with einfo := v &&& einfoBits }
  else if n = 0x80C then { t with efpf := v &&& 0x7F }
  else if n = 0x80D then { t with efpm := v &&& 0x7F07 }
  else if 0x810 ≤ n ∧ n < 0x818 then t.putS (56 + (n - 0x810)) v
  else if 0x830 ≤ n ∧ n < 0x834 then { t with bpc := tset t.bpc (n - 0x830) (v &&& bpcBits) }
  else if 0x838 ≤ n ∧ n < 0x83A then { t with wpa := tset t.wpa (n - 0x838) v }
  else if 0x83A ≤ n ∧ n < 0x83C then { t with wpc := tset t.wpc (n - 0x83A) (v &&& wpcBits) }
  else if n = 4096 then { t with fpmode := v.truncate 32 }
  else if n = 4097 then { t with greedy := v.toNat }
  else t

/-- The writes that wait for the next packet take effect. -/
def Team.settle (t : Team) : Team := { t.pendw.foldl (fun t x => t.putCsr x.1 x.2) t with pendw := [] }

/-! ## Taking an exception (R283 to R288) -/

/-- A cause with nothing but its code; flag 15 stands for none (R282). -/
def causeOf (code : Nat) : Cause := ⟨code, 0, 0, 15, false, false, false, false, 0, 0⟩

/-- ECAUSE (R282). -/
def Cause.word (c : Cause) : DWord :=
  BitVec.ofNat 64 (c.code % 512 + c.flag % 16 * 2 ^ 10 + (if c.wd then 2 ^ 14 else 0) + (if c.after then 2 ^ 15 else 0) +
    (if c.ovf then 2 ^ 16 else 0) + (if c.inj then 2 ^ 17 else 0) + c.lane % 1024 * 2 ^ 18 + c.imm % 4096 * 2 ^ 32)

/-- The origin of an operation as EINFO gives it: OOFF and OSLOT, and a dray's ticket (R282). -/
def originWord (ticket pkt slot : Nat) : Nat := pkt * 12 % 2 ^ 36 + slot % 4 * 2 ^ 36 + ticket * 2 ^ 48

/-- The EPC layout (R282). -/
def epcWord (pkt slot : Nat) : DWord := BitVec.ofNat 64 (pkt * 12 % 2 ^ 36 + slot % 4 * 2 ^ 36)

/-- The words of packet p of the current block's kernel; none outside the image. -/
def kernelWords (s : State) (p : Nat) : List Nat :=
  if p < s.block.kern.npkt then packetWords (mread s.block.kern.image (p * 12) 12) else []

/-- The words of the packet a team is at: those in issue, else, in U mode, those of the kernel. -/
def wordsAt (s : State) (t : Team) : List Nat :=
  match t.ibuf with
  | some ws => ws
  | none => if t.priv then [] else kernelWords s t.pkt

/-- The first word of the instruction at a slot; 0 outside the image. -/
def firstWord (ws : List Nat) (slot : Nat) : Nat := ws.getD slot 0

/-- EINFO: for class 0 the instruction's first word, else what the cause carries (R282). -/
def Cause.einfo (c : Cause) (w : Nat) : DWord := BitVec.ofNat 64 (if c.code < 64 ∧ c.wd = false then w else c.info)

/-- Trap entry of a team (R284): tv is TVEC, w the first word of the instruction. -/
def Team.enter (t : Team) (c : Cause) (tv w : Nat) : Team :=
  { t with
    epc := epcWord t.pkt t.slot
    ecause := c.word
    eaddr := BitVec.ofNat 64 c.addr
    einfo := c.einfo w
    efpf := t.fpflags.zeroExtend 64
    efpm := t.fpmode.zeroExtend 64
    fpflags := 0
    fpnew := 0
    fpmode := 0
    smask := t.mask
    smstack := t.mstack
    swin := t.winbase
    mask := 1
    mstack := []
    priv := true
    pkt := tv % 2 ^ 32
    slot := 0
    ibuf := none
    waits := [] }

/-- The fault record of a stopping unit (R287), low quadword first. -/
def faultWords (s : State) (c : Cause) (pkt slot word : Nat) (privm : Bool) : List DWord :=
  let u := s.cur
  [BitVec.ofNat 64 (u.core + u.bslot * 2 ^ 14 + (if u.coach then 0 else u.team) * 2 ^ 18 + (if u.coach then 2 ^ 24 else 0) +
      (if privm then 2 ^ 25 else 0) + s.block.ctx * 2 ^ 26 + s.block.gslot * 2 ^ 32),
   0, 0, c.word, epcWord pkt slot, BitVec.ofNat 64 c.addr, c.einfo word, BitVec.ofNat 64 s.clock]

/-- Escalation (R287): the unit stops with its record, and the stop is logged; the enqueue comes later. -/
def escalate (c : Cause) (s : State) : State :=
  let s1 :=
    if s.cur.coach then
      s.modCoach fun k => { k with
        status := .stopped, wait := .none, ibuf := none
        stop := some ⟨faultWords s c k.pkt k.slot (firstWord (k.ibuf.getD []) k.slot) false, k.pkt, k.slot, false⟩ }
    else
      s.modTeam fun t =>
        let ws := wordsAt s t
        let p := if c.after then behindChain ws t.pkt t.slot else (t.pkt, t.slot)
        { t.settle with
          status := .stopped, waits := [], ibuf := none
          stop := some ⟨faultWords s c t.pkt t.slot (firstWord ws t.slot) t.priv, p.1, p.2, false⟩ }
  (logRas s1 s.block.part c.code s.cur.core 0 s.block.ctx).withFate .trapped

/-- A handler is installed: TVEC.EN (R282). -/
def handlerSet (s : State) : Bool := s.myCtx.tvec / 2 ^ 63 % 2 == 1

/-- A cause of the current unit is delivered: trap entry, or escalation (R284, R287). -/
def raise (c : Cause) (s : State) : State :=
  if s.cur.coach || s.team.priv || !handlerSet s then escalate c s
  else (s.modTeam fun t => t.settle.enter c s.myCtx.tvec (firstWord (wordsAt s t) t.slot)).withFate .trapped

/-- A precise cause with nothing but its code. -/
def raiseCode (code : Nat) (s : State) : State := raise (causeOf code) s

/-- A precise cause of a lane at an address (R141). -/
def raiseAt (code lane addr : Nat) (s : State) : State := raise { causeOf code with lane := lane, addr := addr } s

/-- A cause found when a flagged operation completes, delivered at WAIT or EXIT (R283). -/
def raiseRecord (f : Nat) (r : FaultRec) (s : State) : State :=
  raise { causeOf r.code with lane := r.lane, flag := f, wd := true, ovf := r.ovf, addr := r.addr, info := r.info } s

/-- Run k unless a check gives a cause. -/
def checked (chk : Option Nat) (s : State) (k : State → State) : State :=
  match chk with
  | some c => raiseCode c s
  | none => k s

/-! ## The program counter -/

/-- Packets of the image the team runs: the kernel's, or in P mode the handler's (R92, R281). -/
def imagePackets (s : State) : Nat := if s.src.priv then s.myCtx.hpkt else s.block.kern.npkt

/-- The base of that image. -/
def imageBase (s : State) : Nat := if s.src.priv then s.myCtx.hbase else s.block.kern.code

/-- A code-relative byte address is a legal transfer target (R92). -/
def legalTarget (s : State) (a : Nat) : Bool := a % 12 == 0 && decide (a / 12 < imagePackets s)

/-- Control passes to slot 0 of packet p. -/
def jumpTo (s : State) (p : Nat) : State :=
  (s.modTeam fun t => { t with pkt := p, slot := 0, ibuf := none, waits := [] }).withFate .transferred

/-- The delivered record is cleared when control returns to the WAIT that delivered it, and what was recorded after it takes its place;
where control goes elsewhere it stays, with OVF for what came after (R71, R286, R288). -/
def Team.returned (t : Team) (pkt slot : Nat) : Team :=
  match t.dlv with
  | some (f, p, k) =>
    let e := t.flag f
    { t with
      flags := tset t.flags f ⟨e.count,
        if p = pkt ∧ k = slot then t.dlvNext
        else if t.dlvNext.isSome then e.record.map fun r => { r with ovf := true } else e.record⟩
      dlv := none
      dlvNext := none }
  | none => t

/-- Return from the handler (R292): the team continues at a slot of a packet. -/
def Team.leave (t : Team) (pkt slot : Nat) : Team :=
  { t.returned pkt slot with
    fpflags := t.efpf.truncate 32
    fpnew := 0
    fpmode := t.efpm.truncate 32
    mask := t.smask
    mstack := t.smstack
    pendw := tdel t.pendw 4096
    priv := false
    pkt := pkt
    slot := slot
    ibuf := none
    waits := [] }

/-- `fpflags` gains flags (R46). -/
def orFlags (s : State) (f : BitVec 32) : State :=
  s.modTeam fun t => { t with fpflags := t.fpflags ||| f, fpnew := t.fpnew ||| f }

/-- A state-changing step with no fault and no refusal. -/
abbrev Result := Host.Outcome State Fault Refusal

end Sys2Proof.Machine
end

