-- ==== Sys2Proof/Machine/Operands.lean ====
section
/-! DEFINITION. Operands that depend on the team that issues: the register window, pairs, privilege; what an instruction
writes; the packet check over them. -/

namespace Sys2Proof.Machine

/-- The window's width in registers (R20). -/
def windowWidth (s : State) : Nat := min s.block.nreg 64

/-- A cause unless the condition holds. -/
def need (ok : Bool) (code : Nat) : Option Nat := if ok then none else some code

/-- Register k, or the even pair that starts at it, lies within the window (R20). -/
def vecOk (s : State) (k : Nat) (pair : Bool) : Bool :=
  if pair then k % 2 == 0 && decide (k + 1 < windowWidth s) else decide (k < windowWidth s)

/-- Vector registers an instruction names, pairs marked: the cause when one is not in the window. -/
def vecUse (s : State) (code : Nat) (rs : List (Nat × Bool)) : Option Nat :=
  need (rs.all fun r => vecOk s r.1 r.2) code

/-- The vector offset register of form M and Y: 63 names none (R140, R157). -/
def offReg (a : Nat) : List (Nat × Bool) := if a = 63 then [] else [(a, false)]

def vecDest (d : Nat) (pair : Bool) : List (Nat × Nat) := if pair then [(0, d), (0, d + 1)] else [(0, d)]
def flagDest (f : Nat) : List (Nat × Nat) := if f < 12 then [(3, f)] else []

/-- The operand and privilege checks of the packet check that depend on the team: a register beyond the window, an odd first
register of a pair, a lane position a section of this width does not have, and privilege (R20, R83, R85). -/
def operandCause (i : Instr) (s : State) : Option Nat :=
  match i with
  | .nop => none
  | .sadd _ _ _ => none
  | .ssub _ _ _ => none
  | .smul _ _ _ => none
  | .smulh _ _ _ => none
  | .sand _ _ _ => none
  | .sor _ _ _ => none
  | .sxor _ _ _ => none
  | .sandn _ _ _ => none
  | .sshl _ _ _ => none
  | .sshr _ _ _ => none
  | .ssar _ _ _ => none
  | .smin _ _ _ => none
  | .smax _ _ _ => none
  | .sminu _ _ _ => none
  | .smaxu _ _ _ => none
  | .sclz _ _ => none
  | .spopc _ _ => none
  | .smov _ _ => none
  | .smad _ _ _ _ => none
  | .ssel _ _ _ _ => none
  | .sbfx _ _ _ _ => none
  | .sbfi _ _ _ _ => none
  | .scmp _ _ _ _ => none
  | .sldi _ _ => none
  | .sldiLong _ _ => none
  | .saddi _ _ _ => none
  | .saddiLong _ _ _ => none
  | .sldl _ _ _ => none
  | .sldlLong _ _ _ => none
  | .sget d n => if n < 2 then vecUse s 3 [(d, false)] else none
  | .sgetRcv _ _ => none
  | .ssetSnd _ _ => none
  | .ssetSndcfg _ _ => none
  | .ssetMask _ => none
  | .ssetFpmode _ => none
  | .ssetFpflags _ => none
  | .ssetGreedy _ => none
  | .bra _ => none
  | .brc _ _ _ => none
  | .brm _ _ => none
  | .call _ _ => none
  | .jmp _ => none
  | .callr _ _ => none
  | .ret _ _ => none
  | .exit => none
  | .yield => none
  | .wait _ => none
  | .trap _ => none
  | .brk _ => none
  | .pand _ _ _ => none
  | .por _ _ _ => none
  | .pxor _ _ _ => none
  | .pandn _ _ _ => none
  | .pnot _ _ => none
  | .pmov _ _ => none
  | .pseti _ _ => none
  | .pany _ _ => none
  | .pall _ _ => none
  | .pcnt _ _ => none
  | .pfirst _ _ => none
  | .mpush _ => none
  | .melse => none
  | .mpop => none
  | .msave _ => none
  | .mload _ => none
  | .vadd o => vecUse s 11 [(o.d, o.t == 3), (o.a, o.t == 3), (o.b, o.t == 3)]
  | .vsub o => vecUse s 11 [(o.d, o.t == 3), (o.a, o.t == 3), (o.b, o.t == 3)]
  | .vadds o => vecUse s 11 [(o.d, o.t == 3), (o.a, o.t == 3), (o.b, o.t == 3)]
  | .vsubs o => vecUse s 11 [(o.d, o.t == 3), (o.a, o.t == 3), (o.b, o.t == 3)]
  | .vmul o => vecUse s 11 [(o.d, o.t == 3), (o.a, o.t == 3), (o.b, o.t == 3)]
  | .vmulh o => vecUse s 11 [(o.d, o.t == 3), (o.a, o.t == 3), (o.b, o.t == 3)]
  | .vmad o r => vecUse s 11 [(o.d, o.t == 3), (o.a, o.t == 3), (o.b, o.t == 3), (r, o.t == 3)]
  | .vdot4 o r _ => vecUse s 11 [(o.d, false), (o.a, false), (o.b, false), (r, false)]
  | .vand o => vecUse s 11 [(o.d, o.t == 3), (o.a, o.t == 3), (o.b, o.t == 3)]
  | .vor o => vecUse s 11 [(o.d, o.t == 3), (o.a, o.t == 3), (o.b, o.t == 3)]
  | .vxor o => vecUse s 11 [(o.d, o.t == 3), (o.a, o.t == 3), (o.b, o.t == 3)]
  | .vshl o => vecUse s 11 [(o.d, o.t == 3), (o.a, o.t == 3), (o.b, o.t == 3)]
  | .vshr o => vecUse s 11 [(o.d, o.t == 3), (o.a, o.t == 3), (o.b, o.t == 3)]
  | .vsar o => vecUse s 11 [(o.d, o.t == 3), (o.a, o.t == 3), (o.b, o.t == 3)]
  | .vmin o => vecUse s 11 [(o.d, o.t == 3), (o.a, o.t == 3), (o.b, o.t == 3)]
  | .vmax o => vecUse s 11 [(o.d, o.t == 3), (o.a, o.t == 3), (o.b, o.t == 3)]
  | .vminu o => vecUse s 11 [(o.d, o.t == 3), (o.a, o.t == 3), (o.b, o.t == 3)]
  | .vmaxu o => vecUse s 11 [(o.d, o.t == 3), (o.a, o.t == 3), (o.b, o.t == 3)]
  | .vabs o => vecUse s 11 [(o.d, o.t == 3), (o.a, o.t == 3)]
  | .vneg o => vecUse s 11 [(o.d, o.t == 3), (o.a, o.t == 3)]
  | .vclz o => vecUse s 11 [(o.d, o.t == 3), (o.a, o.t == 3)]
  | .vpopc o => vecUse s 11 [(o.d, o.t == 3), (o.a, o.t == 3)]
  | .vmov o => vecUse s 11 [(o.d, o.t == 3), (o.a, o.t == 3)]
  | .vlane d _ => vecUse s 11 [(d, false)]
  | .vbcs o => vecUse s 11 [(o.d, o.t == 3)]
  | .vbfx o _ _ => vecUse s 11 [(o.d, o.t == 3), (o.a, o.t == 3)]
  | .vbfi o _ _ => vecUse s 11 [(o.d, o.t == 3), (o.a, o.t == 3)]
  | .vsel o _ => vecUse s 11 [(o.d, o.t == 3), (o.a, o.t == 3), (o.b, o.t == 3)]
  | .vcmp o _ => vecUse s 11 [(o.a, o.t == 3), (o.b, o.t == 3)]
  | .vldi d _ => vecUse s 11 [(d, false)]
  | .vldiLong d _ => vecUse s 11 [(d, false)]
  | .fadd o => vecUse s 11 [(o.d, o.t == 3), (o.a, o.t == 3), (o.b, o.t == 3)]
  | .faddLong o _ => vecUse s 11 [(o.d, o.t == 3), (o.a, o.t == 3), (o.b, o.t == 3)]
  | .fsub o => vecUse s 11 [(o.d, o.t == 3), (o.a, o.t == 3), (o.b, o.t == 3)]
  | .fsubLong o _ => vecUse s 11 [(o.d, o.t == 3), (o.a, o.t == 3), (o.b, o.t == 3)]
  | .fmul o => vecUse s 11 [(o.d, o.t == 3), (o.a, o.t == 3), (o.b, o.t == 3)]
  | .fmulLong o _ => vecUse s 11 [(o.d, o.t == 3), (o.a, o.t == 3), (o.b, o.t == 3)]
  | .ffma o r _ => vecUse s 11 [(o.d, o.t == 3), (o.a, o.t == 3), (o.b, o.t == 3), (r, o.t == 3)]
  | .fmin o => vecUse s 11 [(o.d, o.t == 3), (o.a, o.t == 3), (o.b, o.t == 3)]
  | .fmax o => vecUse s 11 [(o.d, o.t == 3), (o.a, o.t == 3), (o.b, o.t == 3)]
  | .fminp o => vecUse s 11 [(o.d, o.t == 3), (o.a, o.t == 3), (o.b, o.t == 3)]
  | .fmaxp o => vecUse s 11 [(o.d, o.t == 3), (o.a, o.t == 3), (o.b, o.t == 3)]
  | .fabs o => vecUse s 11 [(o.d, o.t == 3), (o.a, o.t == 3)]
  | .fneg o => vecUse s 11 [(o.d, o.t == 3), (o.a, o.t == 3)]
  | .fcps o => vecUse s 11 [(o.d, o.t == 3), (o.a, o.t == 3), (o.b, o.t == 3)]
  | .fcmp o _ => vecUse s 11 [(o.a, o.t == 3), (o.b, o.t == 3)]
  | .fcls o => vecUse s 11 [(o.d, false), (o.a, o.t == 3)]
  | .fscl o => vecUse s 11 [(o.d, o.t == 3), (o.a, o.t == 3), (o.b, false)]
  | .fsclLong o _ => vecUse s 11 [(o.d, o.t == 3), (o.a, o.t == 3), (o.b, false)]
  | .fcvt o sf df _ _ => vecUse s 11 [(o.d, df == 3), (o.a, sf == 3)]
  | .frnd o => vecUse s 11 [(o.d, o.t == 3), (o.a, o.t == 3)]
  | .frndLong o _ => vecUse s 11 [(o.d, o.t == 3), (o.a, o.t == 3)]
  | .fcvi o ity _ _ => vecUse s 11 [(o.d, o.t == 3), (o.a, (ity == 2 || ity == 3))]
  | .fciv o ity _ => vecUse s 11 [(o.d, (ity == 2 || ity == 3)), (o.a, o.t == 3)]
  | .fdiv o => vecUse s 11 [(o.d, o.t == 3), (o.a, o.t == 3), (o.b, o.t == 3)]
  | .fdivLong o _ => vecUse s 11 [(o.d, o.t == 3), (o.a, o.t == 3), (o.b, o.t == 3)]
  | .fsqrt o => vecUse s 11 [(o.d, o.t == 3), (o.a, o.t == 3)]
  | .fsqrtLong o _ => vecUse s 11 [(o.d, o.t == 3), (o.a, o.t == 3)]
  | .fdot2 o r _ => vecUse s 11 [(o.d, false), (o.a, false), (o.b, false), (r, false)]
  | .frcp o => vecUse s 19 [(o.d, false), (o.a, false)]
  | .frsq o => vecUse s 19 [(o.d, false), (o.a, false)]
  | .fexp2 o => vecUse s 19 [(o.d, false), (o.a, false)]
  | .flog2 o => vecUse s 19 [(o.d, false), (o.a, false)]
  | .fsin o => vecUse s 19 [(o.d, false), (o.a, false)]
  | .fcos o => vecUse s 19 [(o.d, false), (o.a, false)]
  | .ftanh o => vecUse s 19 [(o.d, false), (o.a, false)]
  | .fsigm o => vecUse s 19 [(o.d, false), (o.a, false)]
  | .ftab d a _ _ => vecUse s 19 [(d, false), (a, false)]
  | .tabld _ _ _ => none
  | .shfl o => vecUse s 19 [(o.d, o.t == 3), (o.a, o.t == 3), (o.b, false)]
  | .shfu d a _ => vecUse s 19 [(d, false), (a, false)]
  | .shfd d a _ => vecUse s 19 [(d, false), (a, false)]
  | .shfx d a n => (vecUse s 19 [(d, false), (a, false)]).or (need (decide (n < s.block.w)) 19)
  | .vbcl d a n => (vecUse s 19 [(d, false), (a, false)]).or (need (decide (n < s.block.w)) 19)
  | .vred o _ => vecUse s 19 [(o.d, o.t == 3), (o.a, o.t == 3)]
  | .vscn o _ => vecUse s 19 [(o.d, o.t == 3), (o.a, o.t == 3)]
  | .fred o _ => vecUse s 19 [(o.d, o.t == 3), (o.a, o.t == 3)]
  | .fscn o _ => vecUse s 19 [(o.d, o.t == 3), (o.a, o.t == 3)]
  | .ball d _ _ => vecUse s 19 [(d, s.block.w == 64)]
  | .vmtc o => vecUse s 19 [(o.d, s.block.w == 64), (o.a, o.t == 3)]
  | .vcpt o => vecUse s 19 [(o.d, o.t == 3), (o.a, o.t == 3)]
  | .vhq o _ _ => (vecUse s 19 [(o.d, false), (o.a, false), (o.b, false)]).or (need (!(s.block.w == 16)) 19)
  | .vq8 o r _ _ _ => vecUse s 19 [(o.d, false), (o.a, false), (r, false)]
  | .vdq o r _ => vecUse s 19 [(o.d, false), (o.a, false), (r, false)]
  | .vbsd o r q _ => (vecUse s 19 [(o.d, false), (o.a, true), (o.b, true), (r, false)]).or (need (decide (q % 64 + s.block.w / 8 ≤ s.block.w)) 19)
  | .ldg8 o => vecUse s 27 ((o.d, false) :: offReg o.a)
  | .ldg8Long o _ => vecUse s 27 ((o.d, false) :: offReg o.a)
  | .ldg16 o => vecUse s 27 ((o.d, false) :: offReg o.a)
  | .ldg16Long o _ => vecUse s 27 ((o.d, false) :: offReg o.a)
  | .ldg32 o => vecUse s 27 ((o.d, false) :: offReg o.a)
  | .ldg32Long o _ => vecUse s 27 ((o.d, false) :: offReg o.a)
  | .ldg64 o => vecUse s 27 ((o.d, true) :: offReg o.a)
  | .ldg64Long o _ => vecUse s 27 ((o.d, true) :: offReg o.a)
  | .stg8 o => vecUse s 27 ((o.d, false) :: offReg o.a)
  | .stg8Long o _ => vecUse s 27 ((o.d, false) :: offReg o.a)
  | .stg16 o => vecUse s 27 ((o.d, false) :: offReg o.a)
  | .stg16Long o _ => vecUse s 27 ((o.d, false) :: offReg o.a)
  | .stg32 o => vecUse s 27 ((o.d, false) :: offReg o.a)
  | .stg32Long o _ => vecUse s 27 ((o.d, false) :: offReg o.a)
  | .stg64 o => vecUse s 27 ((o.d, true) :: offReg o.a)
  | .stg64Long o _ => vecUse s 27 ((o.d, true) :: offReg o.a)
  | .ldl32 o => vecUse s 27 ((o.d, false) :: offReg o.a)
  | .ldl32Long o _ => vecUse s 27 ((o.d, false) :: offReg o.a)
  | .ldl64 o => vecUse s 27 ((o.d, true) :: offReg o.a)
  | .ldl64Long o _ => vecUse s 27 ((o.d, true) :: offReg o.a)
  | .stl32 o => vecUse s 27 ((o.d, false) :: offReg o.a)
  | .stl32Long o _ => vecUse s 27 ((o.d, false) :: offReg o.a)
  | .stl64 o => vecUse s 27 ((o.d, true) :: offReg o.a)
  | .stl64Long o _ => vecUse s 27 ((o.d, true) :: offReg o.a)
  | .ldx o => vecUse s 27 ((o.d, false) :: offReg o.a)
  | .ldxLong o _ => vecUse s 27 ((o.d, false) :: offReg o.a)
  | .stx o => vecUse s 27 ((o.d, false) :: offReg o.a)
  | .stxLong o _ => vecUse s 27 ((o.d, false) :: offReg o.a)
  | .ldk32 _ _ => none
  | .ldk32Long _ _ _ => none
  | .ldk64 _ _ => none
  | .ldk64Long _ _ _ => none
  | .tld _ _ => none
  | .tldLong _ _ _ => none
  | .tst _ _ => none
  | .tstLong _ _ _ => none
  | .pfg a _ _ => vecUse s 27 (offReg a)
  | .pfgLong a _ _ _ => vecUse s 27 (offReg a)
  | .xmap _ => none
  | .xmapLong _ _ => none
  | .xunmap _ => none
  | .xwb _ => none
  | .xinv _ => none
  | .atg o => vecUse s 27 ([(o.d, o.kind == 1), (o.cr, o.kind == 1)] ++ offReg o.v)
  | .atl o => vecUse s 27 ([(o.d, o.kind == 1), (o.cr, o.kind == 1)] ++ offReg o.v)
  | .redg o => vecUse s 27 ((o.cr, o.kind == 1) :: offReg o.v)
  | .redl o => vecUse s 27 ((o.cr, o.kind == 1) :: offReg o.v)
  | .enq _ _ _ _ => none
  | .deq _ _ _ _ => none
  | .qlen _ _ => none
  | .qcls _ => none
  | .grab _ v => vecUse s 27 [(v, false), (v + 1, false), (v + 2, false)]
  | .fence _ _ => none
  | .acq _ _ _ => none
  | .rel _ _ => none
  | .teth _ _ _ => none
  | .unte _ _ _ => none
  | .barv _ _ _ => none
  | .bwat _ _ _ => none
  | .bsyn _ _ => none
  | .bmsk _ _ _ _ => none
  | .aini _ _ => none
  | .aarv _ _ _ _ => none
  | .awat _ _ _ => none
  | .wadr _ _ _ _ => none
  | .dcpy o => vecUse s 35 [(o.y, false)]
  | .dcpyLong o _ => vecUse s 35 [(o.y, false)]
  | .dgth o => vecUse s 35 [(o.y, false)]
  | .dgthLong o _ => vecUse s 35 [(o.y, false)]
  | .dsct o => vecUse s 35 [(o.y, false)]
  | .dsctLong o _ => vecUse s 35 [(o.y, false)]
  | .dmcs o => vecUse s 35 [(o.y, false)]
  | .dmcsLong o _ => vecUse s 35 [(o.y, false)]
  | .dcmt o => vecUse s 35 [(o.y, false)]
  | .dcmtLong o _ => vecUse s 35 [(o.y, false)]
  | .dfil o => vecUse s 35 [(o.y, false)]
  | .dfilLong o _ => vecUse s 35 [(o.y, false)]
  | .dcol o => vecUse s 35 [(o.y, false)]
  | .dcolLong o _ => vecUse s 35 [(o.y, false)]
  | .dsts _ => none
  | .dfnc _ => none
  | .pdnew _ _ => none
  | .pdatt _ _ _ => none
  | .pddet _ => none
  | .pdevi _ _ => none
  | .pdqry _ => none
  | .csrr _ n => need (s.src.priv || decide (n < 0x800)) 5
  | .csrw _ n => need (s.src.priv || decide (n < 0x800)) 5
  | .csrwTinj _ => need s.src.priv 5
  | .eret => need s.src.priv 5
  | .tlbi _ _ => need s.src.priv 5
  | .sread _ => need s.src.priv 5
  | .halt => need s.src.priv 5
  | .mnop => none
  | .msetz _ => none
  | .mzer _ => none
  | .mma _ _ _ _ _ => none
  | .mmag _ _ _ _ _ => none
  | .mmat _ _ _ _ => none
  | .mldw _ _ _ => none
  | .mdrn _ _ _ _ _ _ _ _ => none
  | .mbar _ _ => none
  | .mwat _ _ _ => none
  | .mlop _ _ => none
  | .mbra _ => none
  | .mbraLoop _ _ => none
  | .mend => none
  | .tableSwap _ _ => none
  | .drayJobStop _ => none
  | .drayJobComplete _ => none
  | .paddockWritebackComplete _ => none
  | .paddockFillComplete _ => none
  | .arrayDispatch _ => none
  | .matrixOpComplete _ => none
  | .loadComplete _ => none
  | .storeAck _ => none
  | .atomicComplete _ => none
  | .sliceLoad _ => none
  | .sliceStore _ => none
  | .sliceAtomic _ => none
  | .sliceReduce _ => none
  | .sliceLineFill _ _ => none
  | .tileLockAcquired _ => none
  | .tileComplete _ => none
  | .enqAtHome _ => none
  | .deqAtHome _ => none
  | .deqWaitServed _ => none
  | .grabAtHome _ => none
  | .queueReply _ => none
  | .queueRefillMove _ => none
  | .prodsDecrement _ => none
  | .guardRequestAtHome _ => none
  | .guardGrant _ => none
  | .guardReleaseAtHome _ => none
  | .reinFlitDeliver _ _ => none
  | .faultRecordEnqueue _ => none
  | .pageWalkComplete _ => none
  | .distributorEvaluate _ => none
  | .maxbClaimReply _ => none
  | .hitchRequest _ => none
  | .hitchReserve _ _ => none
  | .hitchResponse _ => none
  | .hitchCommit _ _ => none
  | .hitchCancel _ _ => none
  | .blockRetire _ => none
  | .completionEventEnqueue _ => none
  | .launchComplete _ => none
  | .whiffletreeSample _ => none
  | .whiffletreeTableWrite _ => none
  | .sliceExpiry _ => none
  | .drainComplete _ => none
  | .partitionSaved _ => none
  | .hbmAgeCapExpiry _ => none
  | .hbmRefresh _ => none
  | .reqFrame _ => none
  | .rspFrame _ => none
  | .fwdFrame _ => none
  | .sumFrame _ => none
  | .mcdFrame _ => none
  | .mcrFrame _ => none
  | .colFrame _ => none
  | .collectiveComplete _ => none
  | .ackFrame _ _ => none
  | .nakFrame _ _ _ => none
  | .retransmitTimeout _ => none
  | .routeTimeout _ => none
  | .partnerLinkLoss _ => none
  | .sumTimer _ => none
  | .portFrameTime _ => none
  | .heldRecordsMove _ _ => none
  | .tailWrite _ _ => none
  | .flpop _ => none
  | .rdmaWrite _ => none
  | .rdmaRead _ => none
  | .fetchAdd _ => none
  | .cmpSwap _ => none
  | .hostRetryExhausted _ _ => none
  | .nopPacket _ => none
  | .write _ => none
  | .writeSignal _ => none
  | .waitMem _ => none
  | .waitMemRetest _ => none
  | .waitMemPoll _ => none
  | .pred _ => none
  | .indirect _ => none
  | .loop _ => none
  | .launchGraph _ => none
  | .fetchFence _ => none
  | .link _ => none
  | .segmentReturn _ _ => none
  | .collective _ => none
  | .event _ => none
  | .timestamp _ => none
  | .commandLineFetch _ _ _ => none
  | .wqConfig _ => none
  | .wqStop _ => none
  | .wqResume _ => none
  | .unitResume _ => none
  | .unitTerminate _ => none
  | .unitHalt _ => none
  | .graphRemove _ => none
  | .sliceSet _ => none
  | .stateRead _ => none
  | .stateWrite _ => none
  | .ctxSet _ => none
  | .ctxDel _ => none
  | .imgLoad _ => none
  | .attest _ => none
  | .keyRetain _ => none
  | .partSet _ => none
  | .ownXfer _ => none
  | .claim _ => none
  | .release _ => none
  | .setId _ => none
  | .coldReset => none
  | .warmReset => none
  | .pinsReleased => none
  | .trainComplete _ _ => none
  | .clearComplete => none
  | .ostlerIntegrityError => none
  | .rasEvent _ => none
  | .powerLimit _ => none
  | .powerLimitLifted _ => none
  | .connectionExchange _ => none
  | .geldyLinkTraining _ => none
  | .congestionNotification _ _ => none

/-- What an instruction writes, for the chain rule (R60): class and register. Classes: 0 vector, 1 scalar, 2 predicate,
3 completion flag, 4 special register. w is the section width. -/
def destsOf (w : Nat) (i : Instr) : List (Nat × Nat) :=
  match i with
  | .nop => []
  | .sadd d _ _ => [(1, d)]
  | .ssub d _ _ => [(1, d)]
  | .smul d _ _ => [(1, d)]
  | .smulh d _ _ => [(1, d)]
  | .sand d _ _ => [(1, d)]
  | .sor d _ _ => [(1, d)]
  | .sxor d _ _ => [(1, d)]
  | .sandn d _ _ => [(1, d)]
  | .sshl d _ _ => [(1, d)]
  | .sshr d _ _ => [(1, d)]
  | .ssar d _ _ => [(1, d)]
  | .smin d _ _ => [(1, d)]
  | .smax d _ _ => [(1, d)]
  | .sminu d _ _ => [(1, d)]
  | .smaxu d _ _ => [(1, d)]
  | .sclz d _ => [(1, d)]
  | .spopc d _ => [(1, d)]
  | .smov d _ => [(1, d)]
  | .smad d _ _ _ => [(1, d)]
  | .ssel d _ _ _ => [(1, d)]
  | .sbfx d _ _ _ => [(1, d)]
  | .sbfi d _ _ _ => [(1, d)]
  | .scmp d _ _ _ => [(1, d)]
  | .sldi d _ => [(1, d)]
  | .sldiLong d _ => [(1, d)]
  | .saddi d _ _ => [(1, d)]
  | .saddiLong d _ _ => [(1, d)]
  | .sldl d _ _ => [(1, d)]
  | .sldlLong d _ _ => [(1, d)]
  | .sget d n => if n < 2 then vecDest d false else [(1, d)]
  | .sgetRcv d _ => [(1, d), (1, d + 1)]
  | .ssetSnd _ n => [(4, 16 + n)]
  | .ssetSndcfg _ n => [(4, 24 + n)]
  | .ssetMask _ => [(4, 9)]
  | .ssetFpmode _ => [(4, 10)]
  | .ssetFpflags _ => [(4, 11)]
  | .ssetGreedy _ => [(4, 12)]
  | .bra _ => []
  | .brc _ _ _ => []
  | .brm _ _ => []
  | .call _ _ => [(1, 63)]
  | .jmp _ => []
  | .callr _ _ => [(1, 63)]
  | .ret _ _ => []
  | .exit => []
  | .yield => []
  | .wait _ => []
  | .trap _ => []
  | .brk _ => []
  | .pand d _ _ => [(2, d)]
  | .por d _ _ => [(2, d)]
  | .pxor d _ _ => [(2, d)]
  | .pandn d _ _ => [(2, d)]
  | .pnot d _ => [(2, d)]
  | .pmov d _ => [(2, d)]
  | .pseti d _ => [(2, d)]
  | .pany d _ => [(1, d)]
  | .pall d _ => [(1, d)]
  | .pcnt d _ => [(1, d)]
  | .pfirst d _ => [(1, d)]
  | .mpush _ => []
  | .melse => []
  | .mpop => []
  | .msave d => [(2, d)]
  | .mload _ => []
  | .vadd o => vecDest o.d (o.t == 3)
  | .vsub o => vecDest o.d (o.t == 3)
  | .vadds o => vecDest o.d (o.t == 3)
  | .vsubs o => vecDest o.d (o.t == 3)
  | .vmul o => vecDest o.d (o.t == 3)
  | .vmulh o => vecDest o.d (o.t == 3)
  | .vmad o _ => vecDest o.d (o.t == 3)
  | .vdot4 o _ _ => vecDest o.d false
  | .vand o => vecDest o.d (o.t == 3)
  | .vor o => vecDest o.d (o.t == 3)
  | .vxor o => vecDest o.d (o.t == 3)
  | .vshl o => vecDest o.d (o.t == 3)
  | .vshr o => vecDest o.d (o.t == 3)
  | .vsar o => vecDest o.d (o.t == 3)
  | .vmin o => vecDest o.d (o.t == 3)
  | .vmax o => vecDest o.d (o.t == 3)
  | .vminu o => vecDest o.d (o.t == 3)
  | .vmaxu o => vecDest o.d (o.t == 3)
  | .vabs o => vecDest o.d (o.t == 3)
  | .vneg o => vecDest o.d (o.t == 3)
  | .vclz o => vecDest o.d (o.t == 3)
  | .vpopc o => vecDest o.d (o.t == 3)
  | .vmov o => vecDest o.d (o.t == 3)
  | .vlane d _ => vecDest d false
  | .vbcs o => vecDest o.d (o.t == 3)
  | .vbfx o _ _ => vecDest o.d (o.t == 3)
  | .vbfi o _ _ => vecDest o.d (o.t == 3)
  | .vsel o _ => vecDest o.d (o.t == 3)
  | .vcmp o _ => [(2, o.d)]
  | .vldi d _ => vecDest d false
  | .vldiLong d _ => vecDest d false
  | .fadd o => vecDest o.d (o.t == 3)
  | .faddLong o _ => vecDest o.d (o.t == 3)
  | .fsub o => vecDest o.d (o.t == 3)
  | .fsubLong o _ => vecDest o.d (o.t == 3)
  | .fmul o => vecDest o.d (o.t == 3)
  | .fmulLong o _ => vecDest o.d (o.t == 3)
  | .ffma o _ _ => vecDest o.d (o.t == 3)
  | .fmin o => vecDest o.d (o.t == 3)
  | .fmax o => vecDest o.d (o.t == 3)
  | .fminp o => vecDest o.d (o.t == 3)
  | .fmaxp o => vecDest o.d (o.t == 3)
  | .fabs o => vecDest o.d (o.t == 3)
  | .fneg o => vecDest o.d (o.t == 3)
  | .fcps o => vecDest o.d (o.t == 3)
  | .fcmp o _ => [(2, o.d)]
  | .fcls o => vecDest o.d false
  | .fscl o => vecDest o.d (o.t == 3)
  | .fsclLong o _ => vecDest o.d (o.t == 3)
  | .fcvt o _ df _ _ => vecDest o.d (df == 3)
  | .frnd o => vecDest o.d (o.t == 3)
  | .frndLong o _ => vecDest o.d (o.t == 3)
  | .fcvi o _ _ _ => vecDest o.d (o.t == 3)
  | .fciv o ity _ => vecDest o.d (ity == 2 || ity == 3)
  | .fdiv o => vecDest o.d (o.t == 3)
  | .fdivLong o _ => vecDest o.d (o.t == 3)
  | .fsqrt o => vecDest o.d (o.t == 3)
  | .fsqrtLong o _ => vecDest o.d (o.t == 3)
  | .fdot2 o _ _ => vecDest o.d false
  | .frcp o => vecDest o.d false
  | .frsq o => vecDest o.d false
  | .fexp2 o => vecDest o.d false
  | .flog2 o => vecDest o.d false
  | .fsin o => vecDest o.d false
  | .fcos o => vecDest o.d false
  | .ftanh o => vecDest o.d false
  | .fsigm o => vecDest o.d false
  | .ftab d _ _ _ => vecDest d false
  | .tabld _ _ f => flagDest f
  | .shfl o => vecDest o.d (o.t == 3)
  | .shfu d _ _ => vecDest d false
  | .shfd d _ _ => vecDest d false
  | .shfx d _ _ => vecDest d false
  | .vbcl d _ _ => vecDest d false
  | .vred o _ => vecDest o.d (o.t == 3)
  | .vscn o _ => vecDest o.d (o.t == 3)
  | .fred o _ => vecDest o.d (o.t == 3)
  | .fscn o _ => vecDest o.d (o.t == 3)
  | .ball d _ _ => vecDest d (w == 64)
  | .vmtc o => vecDest o.d (w == 64)
  | .vcpt o => vecDest o.d (o.t == 3)
  | .vhq o _ _ => vecDest o.d false
  | .vq8 o _ _ _ _ => vecDest o.d false
  | .vdq o _ _ => vecDest o.d false
  | .vbsd o _ _ _ => vecDest o.d false
  | .ldg8 o => vecDest o.d false ++ flagDest o.f
  | .ldg8Long o _ => vecDest o.d false ++ flagDest o.f
  | .ldg16 o => vecDest o.d false ++ flagDest o.f
  | .ldg16Long o _ => vecDest o.d false ++ flagDest o.f
  | .ldg32 o => vecDest o.d false ++ flagDest o.f
  | .ldg32Long o _ => vecDest o.d false ++ flagDest o.f
  | .ldg64 o => vecDest o.d true ++ flagDest o.f
  | .ldg64Long o _ => vecDest o.d true ++ flagDest o.f
  | .stg8 _ => []
  | .stg8Long _ _ => []
  | .stg16 _ => []
  | .stg16Long _ _ => []
  | .stg32 _ => []
  | .stg32Long _ _ => []
  | .stg64 _ => []
  | .stg64Long _ _ => []
  | .ldl32 o => vecDest o.d false ++ flagDest o.f
  | .ldl32Long o _ => vecDest o.d false ++ flagDest o.f
  | .ldl64 o => vecDest o.d true ++ flagDest o.f
  | .ldl64Long o _ => vecDest o.d true ++ flagDest o.f
  | .stl32 _ => []
  | .stl32Long _ _ => []
  | .stl64 _ => []
  | .stl64Long _ _ => []
  | .ldx o => vecDest o.d false ++ flagDest o.f
  | .ldxLong o _ => vecDest o.d false ++ flagDest o.f
  | .stx _ => []
  | .stxLong _ _ => []
  | .ldk32 d _ => [(1, d)]
  | .ldk32Long d _ _ => [(1, d)]
  | .ldk64 d _ => [(1, d)]
  | .ldk64Long d _ _ => [(1, d)]
  | .tld _ f => flagDest f
  | .tldLong _ f _ => flagDest f
  | .tst _ f => flagDest f
  | .tstLong _ f _ => flagDest f
  | .pfg _ _ _ => []
  | .pfgLong _ _ _ _ => []
  | .xmap _ => []
  | .xmapLong _ _ => []
  | .xunmap _ => []
  | .xwb _ => []
  | .xinv _ => []
  | .atg o => vecDest o.d (o.kind == 1) ++ flagDest o.f
  | .atl o => vecDest o.d (o.kind == 1) ++ flagDest o.f
  | .redg _ => []
  | .redl _ => []
  | .enq s_ v f _ => [(2, v), (1, s_ + 2), (1, s_ + 3)] ++ flagDest f
  | .deq s_ v f _ => [(2, v), (1, s_ + 2), (1, s_ + 3)] ++ flagDest f
  | .qlen _ v => [(1, v)]
  | .qcls _ => []
  | .grab s_ v => [(0, v), (0, v + 1), (0, v + 2), (1, s_ + 2), (1, s_ + 3)]
  | .fence _ _ => []
  | .acq _ _ _ => []
  | .rel _ _ => []
  | .teth _ _ _ => []
  | .unte _ _ _ => []
  | .barv s_ _ _ => [(1, s_)]
  | .bwat _ _ _ => []
  | .bsyn _ _ => []
  | .bmsk _ _ _ _ => []
  | .aini _ _ => []
  | .aarv _ v _ _ => [(1, v)]
  | .awat _ _ _ => []
  | .wadr _ _ _ _ => []
  | .dcpy o => [(1, o.x + 2)] ++ flagDest o.f
  | .dcpyLong o _ => [(1, o.x + 2)] ++ flagDest o.f
  | .dgth o => [(1, o.x + 2)] ++ flagDest o.f
  | .dgthLong o _ => [(1, o.x + 2)] ++ flagDest o.f
  | .dsct o => [(1, o.x + 2)] ++ flagDest o.f
  | .dsctLong o _ => [(1, o.x + 2)] ++ flagDest o.f
  | .dmcs o => [(1, o.x + 2)] ++ flagDest o.f
  | .dmcsLong o _ => [(1, o.x + 2)] ++ flagDest o.f
  | .dcmt o => [(1, o.x + 2)] ++ flagDest o.f
  | .dcmtLong o _ => [(1, o.x + 2)] ++ flagDest o.f
  | .dfil o => [(1, o.x + 2)] ++ flagDest o.f
  | .dfilLong o _ => [(1, o.x + 2)] ++ flagDest o.f
  | .dcol o => [(1, o.x + 2)] ++ flagDest o.f
  | .dcolLong o _ => [(1, o.x + 2)] ++ flagDest o.f
  | .dsts x => [(1, x + 2)]
  | .dfnc _ => []
  | .pdnew x _ => [(1, x + 2), (1, x + 3)]
  | .pdatt x _ f => [(1, x + 2), (1, x + 3)] ++ flagDest f
  | .pddet _ => []
  | .pdevi _ _ => []
  | .pdqry x => [(1, x + 2), (1, x + 3)]
  | .csrr d _ => [(1, d)]
  | .csrw _ _ => []
  | .csrwTinj _ => []
  | .eret => []
  | .tlbi _ _ => []
  | .sread p => [(1, p + 1)]
  | .halt => []
  | .mnop => []
  | .msetz _ => []
  | .mzer _ => []
  | .mma _ _ _ _ _ => []
  | .mmag _ _ _ _ _ => []
  | .mmat _ _ _ _ => []
  | .mldw _ _ _ => []
  | .mdrn _ _ _ _ _ _ _ _ => []
  | .mbar _ _ => []
  | .mwat _ _ _ => []
  | .mlop _ _ => []
  | .mbra _ => []
  | .mbraLoop _ _ => []
  | .mend => []
  | .tableSwap _ _ => []
  | .drayJobStop _ => []
  | .drayJobComplete _ => []
  | .paddockWritebackComplete _ => []
  | .paddockFillComplete _ => []
  | .arrayDispatch _ => []
  | .matrixOpComplete _ => []
  | .loadComplete _ => []
  | .storeAck _ => []
  | .atomicComplete _ => []
  | .sliceLoad _ => []
  | .sliceStore _ => []
  | .sliceAtomic _ => []
  | .sliceReduce _ => []
  | .sliceLineFill _ _ => []
  | .tileLockAcquired _ => []
  | .tileComplete _ => []
  | .enqAtHome _ => []
  | .deqAtHome _ => []
  | .deqWaitServed _ => []
  | .grabAtHome _ => []
  | .queueReply _ => []
  | .queueRefillMove _ => []
  | .prodsDecrement _ => []
  | .guardRequestAtHome _ => []
  | .guardGrant _ => []
  | .guardReleaseAtHome _ => []
  | .reinFlitDeliver _ _ => []
  | .faultRecordEnqueue _ => []
  | .pageWalkComplete _ => []
  | .distributorEvaluate _ => []
  | .maxbClaimReply _ => []
  | .hitchRequest _ => []
  | .hitchReserve _ _ => []
  | .hitchResponse _ => []
  | .hitchCommit _ _ => []
  | .hitchCancel _ _ => []
  | .blockRetire _ => []
  | .completionEventEnqueue _ => []
  | .launchComplete _ => []
  | .whiffletreeSample _ => []
  | .whiffletreeTableWrite _ => []
  | .sliceExpiry _ => []
  | .drainComplete _ => []
  | .partitionSaved _ => []
  | .hbmAgeCapExpiry _ => []
  | .hbmRefresh _ => []
  | .reqFrame _ => []
  | .rspFrame _ => []
  | .fwdFrame _ => []
  | .sumFrame _ => []
  | .mcdFrame _ => []
  | .mcrFrame _ => []
  | .colFrame _ => []
  | .collectiveComplete _ => []
  | .ackFrame _ _ => []
  | .nakFrame _ _ _ => []
  | .retransmitTimeout _ => []
  | .routeTimeout _ => []
  | .partnerLinkLoss _ => []
  | .sumTimer _ => []
  | .portFrameTime _ => []
  | .heldRecordsMove _ _ => []
  | .tailWrite _ _ => []
  | .flpop _ => []
  | .rdmaWrite _ => []
  | .rdmaRead _ => []
  | .fetchAdd _ => []
  | .cmpSwap _ => []
  | .hostRetryExhausted _ _ => []
  | .nopPacket _ => []
  | .write _ => []
  | .writeSignal _ => []
  | .waitMem _ => []
  | .waitMemRetest _ => []
  | .waitMemPoll _ => []
  | .pred _ => []
  | .indirect _ => []
  | .loop _ => []
  | .launchGraph _ => []
  | .fetchFence _ => []
  | .link _ => []
  | .segmentReturn _ _ => []
  | .collective _ => []
  | .event _ => []
  | .timestamp _ => []
  | .commandLineFetch _ _ _ => []
  | .wqConfig _ => []
  | .wqStop _ => []
  | .wqResume _ => []
  | .unitResume _ => []
  | .unitTerminate _ => []
  | .unitHalt _ => []
  | .graphRemove _ => []
  | .sliceSet _ => []
  | .stateRead _ => []
  | .stateWrite _ => []
  | .ctxSet _ => []
  | .ctxDel _ => []
  | .imgLoad _ => []
  | .attest _ => []
  | .keyRetain _ => []
  | .partSet _ => []
  | .ownXfer _ => []
  | .claim _ => []
  | .release _ => []
  | .setId _ => []
  | .coldReset => []
  | .warmReset => []
  | .pinsReleased => []
  | .trainComplete _ _ => []
  | .clearComplete => []
  | .ostlerIntegrityError => []
  | .rasEvent _ => []
  | .powerLimit _ => []
  | .powerLimitLifted _ => []
  | .connectionExchange _ => []
  | .geldyLinkTraining _ => []
  | .congestionNotification _ _ => []

/-! ## Chains (R60) and the packet check (R68) -/

/-- No two numbers of the list are equal. -/
def distinct : List Nat → Bool
  | [] => true
  | x :: xs => !inList x xs && distinct xs

def chainPipes (c : List Issue) : List Nat := c.filterMap fun i => pipeOf i.op
def chainDests (w : Nat) (c : List Issue) : List Nat :=
  (c.map fun i => (destsOf w i.instr).map fun d => d.1 * 4096 + d.2).flatten

/-- The pipe and destination rules of R60. -/
def chainLegal (w : Nat) (c : List Issue) : Bool := distinct (chainPipes c) && distinct (chainDests w c)

/-- The slot of the first chain that breaks R60. -/
def badChain (w : Nat) : List (List Issue) → Option Nat
  | [] => none
  | c :: cs => if chainLegal w c then badChain w cs else some ((c.head?.map fun i => i.slot).getD 0)

/-- The packet check of R68 on the three words, after the image and pool checks: the issues, or the slot and the cause. -/
def checkPacket (s : State) (ws : List Nat) : Except (Nat × Nat) (List Issue) :=
  match decodeFrom (fun i => operandCause i.instr s) 3 0 ws with
  | .error e => .error e
  | .ok is =>
    if is.any fun i => i.slot + i.size == 3 && i.chain then .error (2, 52)
    else
      match badChain s.block.w (chainsOf is) with
      | some k => .error (k, 52)
      | none => .ok is

end Sys2Proof.Machine
end

