-- ==== Sys2Proof/Machine/Flags.lean ====
section
/-! DEFINITION. Elements of vector operands, and every flag computation: sticky flags, the enabled ones that trap, the
order in which causes are reported (R46 to R48, R106). -/

namespace Sys2Proof.Machine

/-! ## Flag bits of `fpflags` (R46) -/

def flagNV : Nat := 1
def flagDZ : Nat := 2
def flagOF : Nat := 4
def flagUF : Nat := 8
def flagNX : Nat := 16
def flagFIV : Nat := 32
def flagIOF : Nat := 64

/-- Union of two sets of flags. -/
def orNat (a b : Nat) : Nat := Nat.lor a b

/-- Kinds of arithmetic causes in the order they are reported, with the flag of each (R48): format-invalid stands for
invalid when an ill-formed scale or a reserved code raised it. -/
def trapOrder : List (Nat × Nat) :=
  [(flagFIV, 5), (flagNV, 0), (flagDZ, 1), (flagOF, 2), (flagUF, 3), (flagNX, 4), (flagIOF, 7)]

/-- What one lane computed: lane, result, flags raised. -/
abbrev LaneOut := Nat × Nat × Nat

/-- The lowest lane that raised flag bit f. -/
def firstLane (f : Nat) : List LaneOut → Option Nat
  | [] => none
  | (i, _, fl) :: xs => if Nat.land fl f = 0 then firstLane f xs else some i

/-- The first enabled flag raised, in the order of R48: its kind and the lowest lane that raised it. -/
def firstTrap (en : Nat) (out : List LaneOut) : List (Nat × Nat) → Option (Nat × Nat)
  | [] => none
  | (f, k) :: rest =>
    if Nat.land en f = 0 then firstTrap en out rest
    else
      match firstLane f out with
      | some i => some (k, i)
      | none => firstTrap en out rest

/-- The enables of `fpmode` in force (R47). -/
def enables (s : State) : Nat := s.src.fpmode.toNat / 256 % 128

/-- All flags raised by any lane. -/
def allFlags (out : List LaneOut) : Nat := out.foldl (fun a x => orNat a x.2.2) 0

/-- An instruction that may raise flags ends: an enabled one traps precisely with code 128 + 8 × unit + kind and nothing is
written; otherwise the results are written and the flags are ORed in (R46, R48). -/
def finish (s : State) (unit : Nat) (out : List LaneOut) (put : State → State) : State :=
  match firstTrap (enables s) out trapOrder with
  | some (k, i) => raiseAt (128 + 8 * unit + k) i 0 s
  | none => orFlags (put s) (BitVec.ofNat 32 (allFlags out))

/-- The rounding mode: an override, or `fpmode` for 7 (R43). -/
def roundMode (s : State) (rm : Nat) : Nat := if rm = 7 then s.src.fpmode.toNat % 8 else rm

/-! ## Elements (R106) -/

/-- Element width of integer type T (R66). -/
def intWidth (t : Nat) : Nat := if t = 0 then 32 else if t = 1 then 16 else if t = 2 then 8 else 64

/-- Element width of float type T (R66). -/
def floatWidth (t : Nat) : Nat := if t = 0 then 32 else if t = 3 then 64 else 16

/-- Elements of width w in an operand of type T. -/
def elemCount (t w : Nat) : Nat := if t = 0 ∨ t = 3 then 1 else 32 / w

/-- Element e of width w. -/
def elem (w x e : Nat) : Nat := x / 2 ^ (w * e) % 2 ^ w

/-- n elements of width w computed by f, put together, with their flags. -/
def buildElems (w : Nat) (f : Nat → Nat × Nat) : Nat → Nat × Nat
  | 0 => (0, 0)
  | n + 1 =>
    let (x, fl) := buildElems w f n
    let (y, fl') := f n
    (x + y % 2 ^ w * 2 ^ (w * n), orNat fl fl')

def elemwise1 (w n : Nat) (f : Nat → Nat × Nat) (a : Nat) : Nat × Nat := buildElems w (fun e => f (elem w a e)) n
def elemwise2 (w n : Nat) (f : Nat → Nat → Nat × Nat) (a b : Nat) : Nat × Nat :=
  buildElems w (fun e => f (elem w a e) (elem w b e)) n
def elemwise3 (w n : Nat) (f : Nat → Nat → Nat → Nat × Nat) (a b c : Nat) : Nat × Nat :=
  buildElems w (fun e => f (elem w a e) (elem w b e) (elem w c e)) n

/-- V[k] of a lane as a number: the pair when wide. -/
def readN (s : State) (wide : Bool) (k i : Nat) : Nat := if wide then (readV64 s k i).toNat else (readV s k i).toNat

/-- V[k][i] := x for each (i, x), the pair when wide. -/
def writeN (s : State) (wide : Bool) (k : Nat) (xs : List (Nat × Nat)) : State :=
  if wide then writeV64 s k (xs.map fun (x : Nat × Nat) => (x.1, BitVec.ofNat 64 x.2))
  else writeV s k (xs.map fun (x : Nat × Nat) => (x.1, BitVec.ofNat 32 x.2))

/-- The results of an instruction without their flags. -/
def resultsOf (out : List LaneOut) : List (Nat × Nat) := out.map fun x => (x.1, x.2.1)

/-- A vector instruction that raises no flag: V[d][i] := f i in its Active lanes. -/
def laneSet (s : State) (g : Nat) (wide : Bool) (d : Nat) (f : Nat → Nat) : State :=
  writeN s wide d ((active s g).map fun i => (i, f i))

/-- A vector instruction that writes V[d] in its Active lanes: f gives a lane's result and flags. -/
def laneOp (s : State) (unit g : Nat) (wide : Bool) (d : Nat) (f : Nat → Nat × Nat) : State :=
  let out := (active s g).map fun i => (i, f i)
  finish s unit out fun s => writeN s wide d (resultsOf out)

/-- A vector instruction that writes predicate d in its Active lanes. -/
def lanePred (s : State) (unit g d : Nat) (f : Nat → Bool × Nat) : State :=
  let out := (active s g).map fun i => (i, (if (f i).1 then 1 else 0), (f i).2)
  finish s unit out fun s => writeP s d (guarded s g) (maskOf ((out.filter fun x => x.2.1 == 1).map fun x => x.1))

end Sys2Proof.Machine
end

