-- ==== Sys2Proof/Machine/Local.lean ====
section
/-! DEFINITION. A core's local memories: scratchpad, accumulator store and weight buffer, with owner tags and poison; a
block's window and attached paddocks; sleepers on scratchpad words. -/

namespace Sys2Proof.Machine

/-! Spaces: 0 scratchpad, 1 accumulator store, 2 weight buffer. -/

/-- Bytes of a core's array (R8). -/
def localSize (space : Nat) : Nat := if space = 0 then 2 ^ 20 else 2 ^ 18

/-- The key of a byte of a core's array. -/
def localKey (space core off : Nat) : Nat := core * localSize space + off

def localMem (s : State) (space : Nat) : List Host.Cell := if space = 0 then s.spad else if space = 1 then s.acc else s.wbuf
def withLocal (s : State) (space : Nat) (m : List Host.Cell) : State :=
  if space = 0 then { s with spad := m } else if space = 1 then { s with acc := m } else { s with wbuf := m }
def localPois (s : State) (space : Nat) : List Nat :=
  if space = 0 then s.spadPois else if space = 1 then s.accPois else s.wbufPois
def withPois (s : State) (space : Nat) (p : List Nat) : State :=
  if space = 0 then { s with spadPois := p } else if space = 1 then { s with accPois := p } else { s with wbufPois := p }

/-! ## Owner tags (R376): one for each granule of 64 bytes, 0 standing for none -/

def granuleKey (space core off : Nat) : Nat := (space * 256 + core) * 16384 + off / 64
def granuleTag (s : State) (space core off : Nat) : Nat := (tget s.spadOwn (granuleKey space core off)).getD 0

/-- A byte as owner own reads it: zero in another owner's granule. -/
def readLocal1 (s : State) (space core own off : Nat) : Byte :=
  if granuleTag s space core off = own then mget (localMem s space) (localKey space core off) else 0

/-- n bytes as owner own reads them. -/
def readLocal (s : State) (space core own off n : Nat) : List Byte :=
  (List.range n).map fun i => readLocal1 s space core own (off + i)

/-- A granule taken over by a writer of another owner: what it held is gone. -/
def takeGranule (s : State) (space core own off : Nat) : State :=
  if granuleTag s space core off = own then s
  else
    { withPois (withLocal s space (mzero (localMem s space) (localKey space core (off / 64 * 64)) 64)) space
        ((localPois s space).filter fun k => !decide (localKey space core (off / 64 * 64) ≤ k ∧ k < localKey space core (off / 64 * 64) + 64)) with
      spadOwn := tset s.spadOwn (granuleKey space core off) own }

/-- One byte written by owner own. -/
def writeLocal1 (s : State) (space core own off : Nat) (b : Byte) : State :=
  let s := takeGranule s space core own off
  withLocal s space (mset (localMem s space) (localKey space core off) b)

/-- Bytes written by owner own. -/
def writeLocal (s : State) (space core own off : Nat) : List Byte → State
  | [] => s
  | b :: bs => writeLocal (writeLocal1 s space core own off b) space core own (off + 1) bs

/-! ## Poison (R142, R143) -/

/-- Some byte of [off, off + n) carries poison. -/
def poisoned (s : State) (space core off n : Nat) : Bool :=
  (localPois s space).any fun k => decide (localKey space core off ≤ k) && decide (k < localKey space core off + n)

/-- The bytes of [off, off + n) lose their poison. -/
def clearPois (s : State) (space core off n : Nat) : State :=
  withPois s space ((localPois s space).filter fun k =>
    !(decide (localKey space core off ≤ k) && decide (k < localKey space core off + n)))

/-- The bytes of [off, off + n) carry poison. -/
def setPois (s : State) (space core off n : Nat) : State :=
  withPois s space ((List.range n).foldl (fun l i => insertNat (localKey space core off + i) l) (localPois s space))

/-- Whole bytes replaced by clean ones: a copy of a tile, a dray or a fill. -/
def putLocal (s : State) (space core own off : Nat) (bs : List Byte) : State :=
  clearPois (writeLocal s space core own off bs) space core off bs.length

/-- Poison after one instruction's stores: a 32-byte sector is clean only when they cover all of it (R143). -/
def clearCovered (s : State) (space core : Nat) (written : List Nat) : State :=
  if localPois s space = [] then s
  else withPois s space ((localPois s space).filter fun k =>
    !((List.range 32).all fun j => inList (k / 32 * 32 + j) (written.map (localKey space core))))

/-! ## A block's window (R26, R211) -/

/-- Where a window offset lies on the core: in the declared window or in an attached paddock. -/
def winByte (b : Block) (off : Nat) : Option Nat :=
  if off < b.winSize then some (b.winOff + off)
  else (b.attached.find? fun p => decide (p.off ≤ off) && decide (off < p.off + p.size)).map fun p => p.coreOff + (off - p.off)

/-- All of [off, off + n) lies in the window or in attached paddocks. -/
def inWindow (b : Block) (off n : Nat) : Bool := (List.range n).all fun i => (winByte b (off + i)).isSome

/-- Some byte of [off, off + n) lies in a mapped stash range (R151). -/
def stashHit (b : Block) (off n : Nat) : Bool := b.stash.any fun e => overlaps off n e.2.off e.2.len

/-- [off, off + n) may be reached by LDL, STL and their like: in the window and in no mapped stash range. -/
def winOk (b : Block) (off n : Nat) : Bool := inWindow b off n && !stashHit b off n

/-- n bytes of the current block's window. -/
def readWin (s : State) (off n : Nat) : List Byte :=
  (List.range n).map fun i =>
    match winByte s.block (off + i) with
    | some o => readLocal1 s 0 s.cur.core (s.owner s.block.part) o
    | none => 0

/-- Bytes written to the current block's window. -/
def writeWin (s : State) (off : Nat) : List Byte → State
  | [] => s
  | x :: xs =>
    writeWin (match winByte s.block off with
      | some o => writeLocal1 s 0 s.cur.core (s.owner s.block.part) o x
      | none => s) (off + 1) xs

/-- Some byte of the window range carries poison. -/
def winPoisoned (s : State) (off n : Nat) : Bool :=
  (List.range n).any fun i =>
    match winByte s.block (off + i) with
    | some o => poisoned s 0 s.cur.core o 1
    | none => false

/-! ## Sleepers on scratchpad words (R203) -/

/-- GEN of an arrival object, and its reserved bits (R200). -/
def aoGen (x : Nat) : Nat := fld x 0 4
def aoBad (x : Nat) : Bool := fld x 124 4 != 0

/-- The conditions of WADR and WAIT_MEM: equal, not equal, at least, below. -/
def wordMeets (m x c : Nat) : Bool :=
  match m with
  | 0 => x == c
  | 1 => x != c
  | 2 => decide (c ≤ x)
  | _ => decide (x < c)

/-- The clean bytes of the current block's window from off meet a condition. -/
def winMeets (s : State) (off n : Nat) (p : Nat → Bool) : Bool := !winPoisoned s off n && p (leNat (readWin s off n))

/-- What a unit sleeps on holds now. -/
def sleepMet (s : State) (u : UnitId) (w : Wait) : Bool :=
  let s := { s with cur := u }
  match w with
  | .object off k => winMeets s off 16 fun x => !aoBad x && aoGen x != k
  | .word off m c => winMeets s off 4 fun x => wordMeets m x c
  | .none => false
  | .op _ => false
  | .done _ => false
  | .barrier _ _ => false
  | .rcv _ => false

/-- After a write every sleeper on the scratchpad tests its condition; one that finds it met has woken, whatever is written next (R203). -/
def wakeSleepers (s : State) : State :=
  { s with teams := s.teams.map fun (t : Nat × Team) =>
      if t.2.waits.any fun w => sleepMet s ⟨t.1 / 1024, t.1 / 64 % 16, t.1 % 64, false⟩ w.2 then
        (t.1, { t.2 with
          waits := t.2.waits.map fun w =>
            if sleepMet s ⟨t.1 / 1024, t.1 / 64 % 16, t.1 % 64, false⟩ w.2 then (w.1, .done none) else w
          blocked := false })
      else t }

/-- The core offsets of window bytes. -/
def winOffsets (b : Block) (off n : Nat) : List Nat := (List.range n).filterMap fun i => winByte b (off + i)

/-! ## Footprints (R191) -/

/-- The contiguous core ranges of a window range, as footprints. -/
def winFoot (b : Block) (off n : Nat) (write : Bool) : List Foot :=
  if off + n ≤ b.winSize then [⟨0, b.winOff + off, n, write⟩]
  else (winOffsets b off n).map fun o => ⟨0, o, 1, write⟩

def footClash (a b : Foot) : Bool := a.space == b.space && (a.write || b.write) && overlaps a.start a.len b.start b.len

/-- Two sets of footprints touch a common byte and one of them writes it. -/
def footsClash (x y : List Foot) : Bool := x.any fun a => y.any fun b => footClash a b

/-- Context c runs on partition p (R310). -/
def State.runs (s : State) (p c : Nat) : Bool := tget s.running p == some c

/-- What of an operation's footprint the scoreboard still holds: a TST and an ENQ have read theirs when they issue (R154, R167). -/
def opFoot (o : Op) : List Foot :=
  match o.kind with
  | .tile true _ _ _ _ => []
  | .enq _ _ _ _ _ _ _ => []
  | _ => o.foot

/-- An operation, a job or a matrix instruction in flight on the core, issued before `before`, forbids this access (R191); `foot` says what of
a job's footprint counts. -/
def scoreboardWith (foot : Job → List Foot) (s : State) (core : Nat) (fs : List Foot) (before : Nat) : Bool :=
  (s.ops.any fun o => o.2.unit.core == core && decide (o.2.stamp < before) && footsClash (opFoot o.2) fs) ||
    (s.jobs.any fun j => j.2.unit.core == core && decide (j.2.stamp < before) && footsClash (foot j.2) fs) ||
    (s.mops.any fun m => m.2.core == core && decide (m.2.stamp < before) && footsClash m.2.foot fs)

/-- The same with the whole footprint of every job. -/
def scoreboardBusy : State → Nat → List Foot → Nat → Bool := scoreboardWith Job.foot

/-- The same, against everything in flight: for an instruction that issues now. -/
def windowBusy (s : State) (fs : List Foot) : Bool := scoreboardBusy s s.cur.core fs s.nextStamp

/-- Something in flight on the core touches these bytes, were it only that it read them when it issued (R189). -/
def coreTouches (s : State) (core : Nat) (fs : List Foot) : Bool :=
  scoreboardBusy s core fs s.nextStamp || s.ops.any fun o => o.2.unit.core == core && footsClash o.2.foot fs

/-- Footprint of an arrival object at an offset of a block's window. -/
def objectFoot (b : Block) (off : Nat) : List Foot := winFoot b off 16 true

/-- A job's footprint beside an arrival object of a block: each update of the object is one read-modify-write, so that one of its own job does
not hold another update back (R200, log 32). -/
def footBeside (b : Block) (key off : Nat) (j : Job) : List Foot :=
  if j.aoff = some off ∧ blockKey j.unit = key then j.foot.filter fun f => !(objectFoot b off).any (· == f) else j.foot

end Sys2Proof.Machine
end

