-- ==== Sys2Proof/Machine/Float.lean ====
section
/-! DEFINITION. Floating-point formats: decoding, exact values, one rounding, NaN rules, every arithmetic operation of the
team, the drays and the matrix engine on one element (R37 to R52, R113 to R123). Exact values are dyadic numbers. -/

namespace Sys2Proof.Machine

/-- A float format (R37): fraction bits, exponent bits, FP8 or not (an FP8 NaN is always quiet, R38), infinities or not. -/
structure FF where
  mb : Nat
  eb : Nat
  fp8 : Bool
  infs : Bool
deriving DecidableEq, Repr

def ffF32 : FF := ⟨23, 8, false, true⟩
def ffF16 : FF := ⟨10, 5, false, true⟩
def ffBF16 : FF := ⟨7, 8, false, true⟩
def ffF64 : FF := ⟨52, 11, false, true⟩
def ffE5M2 : FF := ⟨2, 5, true, true⟩
def ffE4M3 : FF := ⟨3, 4, true, false⟩

/-- The format of float type T (R66). -/
def ffOf (t : Nat) : FF := if t = 0 then ffF32 else if t = 1 then ffF16 else if t = 2 then ffBF16 else ffF64

/-- The format of an FCVT code (R80). -/
def ffCode (c : Nat) : FF :=
  if c = 0 then ffF32 else if c = 1 then ffF16 else if c = 2 then ffBF16 else if c = 3 then ffF64
  else if c = 4 then ffE4M3 else ffE5M2

/-- The unit of an arithmetic cause for a format (R48). -/
def ffUnit (f : FF) : Nat :=
  if f = ffF16 then 1 else if f = ffBF16 then 2 else if f = ffF32 then 3 else if f = ffF64 then 4
  else if f = ffE4M3 then 5 else 6

def FF.width (f : FF) : Nat := 1 + f.eb + f.mb
def FF.bias (f : FF) : Nat := 2 ^ (f.eb - 1) - 1
/-- Exponent of the unit in the last place of the smallest normal and of every subnormal. -/
def FF.qmin (f : FF) : Int := 1 - (f.bias : Int) - (f.mb : Int)
def FF.signBit (f : FF) : Nat := 2 ^ (f.eb + f.mb)
def FF.neg (f : FF) (x : Nat) : Bool := x / f.signBit % 2 == 1
def FF.expo (f : FF) (x : Nat) : Nat := x / 2 ^ f.mb % 2 ^ f.eb
def FF.frac (f : FF) (x : Nat) : Nat := x % 2 ^ f.mb
def FF.mag (f : FF) (x : Nat) : Nat := x % f.signBit
def FF.withSign (f : FF) (s : Bool) (m : Nat) : Nat := (if s then f.signBit else 0) + m
/-- The magnitude code of infinity, where there is one. -/
def FF.infMag (f : FF) : Nat := (2 ^ f.eb - 1) * 2 ^ f.mb
/-- The magnitude code of the largest finite value: 0x7E in E4M3 (R38). -/
def FF.maxMag (f : FF) : Nat := if f.infs then f.infMag - 1 else f.signBit - 2
def FF.isNaN (f : FF) (x : Nat) : Bool :=
  if f.infs then f.expo x == 2 ^ f.eb - 1 && f.frac x != 0 else f.mag x == f.signBit - 1
def FF.isInf (f : FF) (x : Nat) : Bool := f.infs && f.mag x == f.infMag
def FF.isZero (f : FF) (x : Nat) : Bool := f.mag x == 0
/-- A signalling NaN (R49). -/
def FF.isSig (f : FF) (x : Nat) : Bool := f.isNaN x && !f.fp8 && decide (f.frac x < 2 ^ (f.mb - 1))
/-- The NaN quieted (R49). -/
def FF.quiet (f : FF) (x : Nat) : Nat := if f.isSig x then x + 2 ^ (f.mb - 1) else x
/-- The default NaN (R49). -/
def FF.defNaN (f : FF) : Nat := if f.infs then f.infMag + 2 ^ (f.mb - 1) else f.signBit - 1

/-- An exact dyadic number m × 2^e. -/
structure Dy where
  m : Int
  e : Int
deriving DecidableEq, Repr

def Dy.zero : Dy := ⟨0, 0⟩
/-- m × 2^e with the exponent lowered to k ≤ e. -/
def Dy.at (d : Dy) (k : Int) : Int := d.m * (2 : Int) ^ (d.e - k).toNat
def Dy.add (a b : Dy) : Dy := ⟨a.at (min a.e b.e) + b.at (min a.e b.e), min a.e b.e⟩
def Dy.neg (a : Dy) : Dy := ⟨-a.m, a.e⟩
def Dy.sub (a b : Dy) : Dy := a.add b.neg
def Dy.mul (a b : Dy) : Dy := ⟨a.m * b.m, a.e + b.e⟩
def Dy.scale (a : Dy) (k : Int) : Dy := ⟨a.m, a.e + k⟩
def Dy.isZero (a : Dy) : Bool := a.m == 0
def Dy.lt (a b : Dy) : Bool := decide ((a.sub b).m < 0)
def Dy.abs (a : Dy) : Dy := ⟨(a.m.natAbs : Int), a.e⟩
def Dy.sum (ds : List Dy) : Dy := ds.foldl Dy.add Dy.zero
/-- The largest integer not above it. -/
def Dy.floor (a : Dy) : Int := if a.e < 0 then a.m / (2 : Int) ^ (-a.e).toNat else a.m * (2 : Int) ^ a.e.toNat

/-- The exact value of a finite code (R37, R38). -/
def FF.val (f : FF) (x : Nat) : Dy :=
  let m : Nat := if f.expo x = 0 then f.frac x else 2 ^ f.mb + f.frac x
  let q : Int := if f.expo x = 0 then f.qmin else f.qmin + (f.expo x : Int) - 1
  ⟨if f.neg x then -(m : Int) else (m : Int), q⟩

/-! ## Rounding (R43 to R45) -/

/-- One more unit when a remainder r of 2^k units (k ≥ 1) is dropped from n. -/
def roundUp? (rm : Nat) (neg : Bool) (n r k : Nat) : Bool :=
  if r = 0 then false
  else if rm = 0 then decide (2 ^ k < 2 * r) || (2 * r == 2 ^ k && n % 2 == 1)
  else if rm = 1 then false
  else if rm = 2 then !neg
  else if rm = 3 then neg
  else decide (2 ^ k ≤ 2 * r)

/-- The magnitude m × 2^e as a count of units 2^q, rounded, and whether that is inexact. -/
def roundAt (rm : Nat) (neg : Bool) (m : Nat) (e q : Int) : Nat × Bool :=
  if q ≤ e then (m * 2 ^ (e - q).toNat, false)
  else
    let k := (q - e).toNat
    let n := m / 2 ^ k
    let r := m % 2 ^ k
    (if roundUp? rm neg n r k then n + 1 else n, r != 0)

/-- The result of an overflow (R43, R44): the mode's infinity or largest value; sat asks for the largest value. -/
def FF.overflow (f : FF) (rm : Nat) (neg sat : Bool) : Nat :=
  let toMax := sat || rm == 1 || (rm == 2 && neg) || (rm == 3 && !neg)
  f.withSign neg (if toMax then f.maxMag else if f.infs then f.infMag else f.signBit - 1)

/-- A non-zero magnitude m × 2^e rounded once to the format: code and flags. -/
def FF.roundMag (f : FF) (rm : Nat) (sat neg : Bool) (m : Nat) (e : Int) : Nat × Nat :=
  let qu : Int := (m.log2 : Int) + e - (f.mb : Int)
  let (nu, iu) := roundAt rm neg m e qu
  let ovr := decide ((f.val f.maxMag).lt ⟨(nu : Int), qu⟩)
  if ovr then (f.overflow rm neg sat, orNat flagOF flagNX)
  else
    let q := max qu f.qmin
    let (n, ix) := if qu < f.qmin then roundAt rm neg m e q else (nu, iu)
    let tiny := decide ((⟨(nu : Int), qu⟩ : Dy).lt ⟨2 ^ f.mb, f.qmin⟩)
    (f.withSign neg ((q - f.qmin).toNat * 2 ^ f.mb + n),
      orNat (if ix then flagNX else 0) (if tiny && ix then flagUF else 0))

/-- RoundTo(format, mode) of an exact value; zneg is the sign an exact zero takes. -/
def FF.round (f : FF) (rm : Nat) (sat zneg : Bool) (d : Dy) : Nat × Nat :=
  if d.m = 0 then (f.withSign zneg 0, 0) else f.roundMag rm sat (decide (d.m < 0)) d.m.natAbs d.e

/-- The sign of an exactly zero sum of terms with these signs (R43, R132): all negative gives −0, a mixture −0 in RDN. -/
def zeroSign (rm : Nat) (negs : List Bool) : Bool :=
  if negs.all id then !negs.isEmpty else rm == 3 && negs.any id

/-! ## NaNs (R49) -/

/-- Invalid when any of them signals. -/
def FF.sigFlag (f : FF) (xs : List Nat) : Nat := if xs.any f.isSig then flagNV else 0

/-- The first NaN among the operands, quieted, with invalid when any of them signals. -/
def FF.nanOf (f : FF) (xs : List Nat) : Option (Nat × Nat) :=
  match xs.find? f.isNaN with
  | some x => some (f.quiet x, f.sigFlag xs)
  | none => none

def FF.invalid (f : FF) : Nat × Nat := (f.defNaN, flagNV)
def FF.inf (f : FF) (neg : Bool) : Nat := f.withSign neg f.infMag

/-! ## Arithmetic on one element (R114, R115) -/

/-- The sum of terms, none a NaN: infinities by R49, else one rounding of the exact sum. -/
def FF.sumTerms (f : FF) (rm : Nat) (xs : List Nat) : Nat × Nat :=
  let pos := xs.any fun x => f.isInf x && !f.neg x
  let neg := xs.any fun x => f.isInf x && f.neg x
  if pos && neg then f.invalid
  else if pos || neg then (f.inf neg, 0)
  else f.round rm false (zeroSign rm (xs.map f.neg)) (Dy.sum (xs.map f.val))

def FF.add (f : FF) (rm : Nat) (a b : Nat) : Nat × Nat :=
  match f.nanOf [a, b] with
  | some r => r
  | none => f.sumTerms rm [a, b]

/-- Sign inverted (R117). -/
def FF.flip (f : FF) (a : Nat) : Nat := if f.neg a then a - f.signBit else a + f.signBit

def FF.sub (f : FF) (rm : Nat) (a b : Nat) : Nat × Nat :=
  match f.nanOf [a, b] with
  | some r => r
  | none => f.sumTerms rm [a, f.flip b]

def FF.mul (f : FF) (rm : Nat) (a b : Nat) : Nat × Nat :=
  match f.nanOf [a, b] with
  | some r => r
  | none =>
    let neg := f.neg a != f.neg b
    if f.isInf a || f.isInf b then
      if f.isZero a || f.isZero b then f.invalid else (f.inf neg, 0)
    else f.round rm false neg ((f.val a).mul (f.val b))

/-- a × b + c with one rounding; 0 × ∞ is invalid even when c is a quiet NaN (R114). -/
def FF.fma (f : FF) (rm : Nat) (a b c : Nat) : Nat × Nat :=
  match f.nanOf [a, b] with
  | some (r, _) => (r, f.sigFlag [a, b, c])
  | none =>
    if (f.isInf a && f.isZero b) || (f.isZero a && f.isInf b) then f.invalid
    else if f.isNaN c then (f.quiet c, f.sigFlag [c])
    else
      let neg := f.neg a != f.neg b
      if f.isInf a || f.isInf b then
        if f.isInf c && f.neg c != neg then f.invalid else (f.inf neg, 0)
      else if f.isInf c then (c, 0)
      else f.round rm false (zeroSign rm [neg, f.neg c]) (((f.val a).mul (f.val b)).add (f.val c))

/-- The quotient of two positive dyadics to enough bits to round once, its last bit saying whether more follows. -/
def quotient (bits : Nat) (a b : Dy) : Nat × Int :=
  let k := bits + b.m.natAbs.log2
  let n := a.m.natAbs * 2 ^ k
  let q := n / b.m.natAbs
  (q * 2 + (if n % b.m.natAbs = 0 then 0 else 1), a.e - b.e - (k : Int) - 1)

def FF.div (f : FF) (rm : Nat) (a b : Nat) : Nat × Nat :=
  match f.nanOf [a, b] with
  | some r => r
  | none =>
    let neg := f.neg a != f.neg b
    if f.isInf a then (if f.isInf b then f.invalid else (f.inf neg, 0))
    else if f.isInf b then (f.withSign neg 0, 0)
    else if f.isZero b then (if f.isZero a then f.invalid else (f.inf neg, flagDZ))
    else if f.isZero a then (f.withSign neg 0, 0)
    else
      let (m, e) := quotient (f.mb + 4) (f.val a) (f.val b)
      f.roundMag rm false neg m e

/-- The integer square root of n, by bits from 2^k down. -/
def isqrt (n : Nat) : Nat → Nat → Nat
  | 0, r => r
  | k + 1, r => let r' := r + 2 ^ k; isqrt n k (if r' * r' ≤ n then r' else r)

/-- The root of a positive dyadic to enough bits to round once, its last bit saying whether more follows. -/
def rootOf (bits : Nat) (a : Dy) : Nat × Int :=
  let m := a.m.natAbs
  let k := 2 * bits + (if (a.e - 2 * (bits : Int)) % 2 = 0 then 0 else 1)
  let n := m * 2 ^ k
  let r := isqrt n (n.log2 / 2 + 1) 0
  (r * 2 + (if r * r = n then 0 else 1), (a.e - (k : Int)) / 2 - 1)

def FF.sqrt (f : FF) (rm : Nat) (a : Nat) : Nat × Nat :=
  match f.nanOf [a] with
  | some r => r
  | none =>
    if f.isZero a then (a, 0)
    else if f.neg a then f.invalid
    else if f.isInf a then (a, 0)
    else
      let (m, e) := rootOf (f.mb + 4) (f.val a)
      f.roundMag rm false false m e

/-- a × 2^k (R114). -/
def FF.scaleBy (f : FF) (rm : Nat) (a : Nat) (k : Int) : Nat × Nat :=
  match f.nanOf [a] with
  | some r => r
  | none =>
    if f.isInf a || f.isZero a then (a, 0) else f.round rm false (f.neg a) ((f.val a).scale k)

/-- An exact value rounded to an integer: the integer and whether it differs (R49, R114). -/
def roundInt (rm : Nat) (d : Dy) : Int × Bool :=
  let (n, ix) := roundAt rm (decide (d.m < 0)) d.m.natAbs d.e 0
  (if d.m < 0 then -(n : Int) else (n : Int), ix)

/-- a rounded to an integral value of the same format; never inexact (R114). -/
def FF.roundIntegral (f : FF) (rm : Nat) (a : Nat) : Nat × Nat :=
  match f.nanOf [a] with
  | some r => r
  | none =>
    if f.isInf a || f.isZero a then (a, 0)
    else ((f.round rm false (f.neg a) ⟨(roundInt rm (f.val a)).1, 0⟩).1, 0)

/-- Order of two numbers, −0 below +0: a < b (R116). -/
def FF.below (f : FF) (a b : Nat) : Bool :=
  if f.neg a then !f.neg b || decide (f.mag b < f.mag a) else !f.neg b && decide (f.mag a < f.mag b)

def FF.pick (f : FF) (max : Bool) (a b : Nat) : Nat := if max then (if f.below a b then b else a) else if f.below b a then b else a

/-- FMIN and FMAX: a number wins over a NaN (R116). -/
def FF.minmax (f : FF) (max : Bool) (a b : Nat) : Nat × Nat :=
  let fl := f.sigFlag [a, b]
  if f.isNaN a && f.isNaN b then (f.quiet a, fl)
  else if f.isNaN a then (b, fl)
  else if f.isNaN b then (a, fl)
  else (f.pick max a b, fl)

/-- FMINP and FMAXP: a NaN wins (R116). -/
def FF.minmaxP (f : FF) (max : Bool) (a b : Nat) : Nat × Nat :=
  match f.nanOf [a, b] with
  | some r => r
  | none => (f.pick max a b, 0)

/-- Order of two numbers, zeros equal: a < b (R118). -/
def FF.less (f : FF) (a b : Nat) : Bool := f.below a b && !(f.isZero a && f.isZero b)
def FF.equal (f : FF) (a b : Nat) : Bool := a == b || (f.isZero a && f.isZero b)

/-- FCMP under condition c: result and flags (R118). -/
def FF.cmp (f : FF) (c a b : Nat) : Bool × Nat :=
  let un := f.isNaN a || f.isNaN b
  let fl := if un && (decide (2 ≤ c) && decide (c < 6)) then flagNV else f.sigFlag [a, b]
  (match c with
    | 0 => !un && f.equal a b
    | 1 => un || !f.equal a b
    | 2 => !un && f.less a b
    | 3 => !un && (f.less a b || f.equal a b)
    | 4 => !un && f.less b a
    | 5 => !un && (f.less b a || f.equal a b)
    | 6 => un
    | _ => !un, fl)

/-- The class bit of FCLS (R119). -/
def FF.cls (f : FF) (a : Nat) : Nat :=
  if f.isNaN a then (if f.isSig a then 2 ^ 8 else 2 ^ 9)
  else if f.isInf a then (if f.neg a then 1 else 2 ^ 7)
  else if f.isZero a then (if f.neg a then 2 ^ 3 else 2 ^ 4)
  else if f.expo a = 0 then (if f.neg a then 2 ^ 2 else 2 ^ 5)
  else if f.neg a then 2 else 2 ^ 6

/-! ## Conversions (R44, R49, R120 to R122) -/

/-- A NaN carried from format f to format g: payload from the top of the fraction, quiet, sign kept. -/
def FF.nanTo (f g : FF) (x : Nat) : Nat :=
  if g.fp8 then (if g.infs then g.withSign (f.neg x) (g.infMag + 2) else g.withSign (f.neg x) (g.signBit - 1))
  else
    let p := if g.mb ≤ f.mb then f.frac x / 2 ^ (f.mb - g.mb) else f.frac x * 2 ^ (g.mb - f.mb)
    g.withSign (f.neg x) (g.infMag + (if p / 2 ^ (g.mb - 1) % 2 = 1 then p else p + 2 ^ (g.mb - 1)))

/-- An infinity as it enters format g (R44, R120). -/
def FF.infTo (g : FF) (sat neg : Bool) : Nat × Nat :=
  if g.infs then (g.inf neg, 0)
  else if sat then (g.withSign neg g.maxMag, orNat flagOF flagNX)
  else (g.withSign neg (g.signBit - 1), flagNV)

/-- Float to float. -/
def FF.convert (f g : FF) (rm : Nat) (sat : Bool) (x : Nat) : Nat × Nat :=
  if f = g then (f.quiet x, f.sigFlag [x])
  else if f.isNaN x then (f.nanTo g x, f.sigFlag [x])
  else if f.isInf x then g.infTo sat (f.neg x)
  else g.round rm sat (f.neg x) (f.val x)

/-- Signed or not, and width, of an integer type (R80): I32, U32, I64, U64, I16, U16, I8, U8. -/
def ityWidth (ity : Nat) : Nat := if ity < 2 then 32 else if ity < 4 then 64 else if ity < 6 then 16 else 8
def itySigned (ity : Nat) : Bool := ity % 2 == 0

/-- The integer a register element holds. -/
def ityVal (ity x : Nat) : Int :=
  if itySigned ity then sgn (ityWidth ity) x else ((x % 2 ^ ityWidth ity : Nat) : Int)

/-- Integer to float (R121). -/
def FF.ofInt (g : FF) (rm : Nat) (sat : Bool) (n : Int) : Nat × Nat := g.round rm sat false ⟨n, 0⟩

/-- Float to integer (R49, R122): the integer and the flags. -/
def FF.toInt (f : FF) (ity rm x : Nat) : Int × Nat :=
  let lo : Int := if itySigned ity then -(2 : Int) ^ (ityWidth ity - 1) else 0
  let hi : Int := if itySigned ity then (2 : Int) ^ (ityWidth ity - 1) - 1 else (2 : Int) ^ ityWidth ity - 1
  if f.isNaN x then (0, flagNV)
  else if f.isInf x then (if f.neg x then lo else hi, flagNV)
  else
    let (n, ix) := roundInt rm (f.val x)
    if n < lo then (lo, flagNV) else if hi < n then (hi, flagNV) else (n, if ix then flagNX else 0)

/-- FDOT2 (R123): exact products and sum, one rounding to F32. -/
def FF.dot2 (f : FF) (rm a b c : Nat) : Nat × Nat :=
  let a0 := a % 65536; let a1 := a / 65536 % 65536
  let b0 := b % 65536; let b1 := b / 65536 % 65536
  let sg := orNat (f.sigFlag [a0, b0, a1, b1]) (ffF32.sigFlag [c])
  let badP := (f.isInf a0 && f.isZero b0) || (f.isZero a0 && f.isInf b0) || (f.isInf a1 && f.isZero b1) || (f.isZero a1 && f.isInf b1)
  match [a0, b0, a1, b1].find? f.isNaN with
  | some x => (f.nanTo ffF32 x, sg)
  | none =>
    if badP then (ffF32.defNaN, orNat sg flagNV)
    else if ffF32.isNaN c then (ffF32.quiet c, sg)
    else
      let s0 := f.neg a0 != f.neg b0
      let s1 := f.neg a1 != f.neg b1
      let i0 := f.isInf a0 || f.isInf b0
      let i1 := f.isInf a1 || f.isInf b1
      let ic := ffF32.isInf c
      let pos := (i0 && !s0) || (i1 && !s1) || (ic && !ffF32.neg c)
      let neg := (i0 && s0) || (i1 && s1) || (ic && ffF32.neg c)
      if pos && neg then (ffF32.defNaN, orNat sg flagNV)
      else if pos || neg then (ffF32.inf neg, sg)
      else ffF32.round rm false (zeroSign rm [s0, s1, ffF32.neg c])
        ((((f.val a0).mul (f.val b0)).add ((f.val a1).mul (f.val b1))).add (ffF32.val c))

/-! ## Scales (R39, R40) -/

/-- The exponent an E8M0 byte stands for, none for its NaN (R39). -/
def e8m0 (e : Nat) : Option Int := if e % 256 = 255 then none else some ((e % 256 : Nat) - 127 : Int)

/-! ## Exact sums of products (R50, R138) -/

/-- An operand of an exact sum: a finite value with its sign, an infinity, or a NaN. -/
inductive El where
  | fin (neg : Bool) (v : Dy)
  | inf (neg : Bool)
  | nan
deriving DecidableEq, Repr

/-- What a code of format f stands for. -/
def FF.el (f : FF) (x : Nat) : El :=
  if f.isNaN x then .nan else if f.isInf x then .inf (f.neg x) else .fin (f.neg x) (f.val x)

/-- A product, and whether it is ∞ × 0. -/
def El.mul : El → El → El × Bool
  | .nan, _ => (.nan, false)
  | _, .nan => (.nan, false)
  | .fin n v, .fin n' v' => (.fin (n != n') (v.mul v'), false)
  | .inf n, .inf n' => (.inf (n != n'), false)
  | .inf n, .fin n' v => if v.isZero then (.nan, true) else (.inf (n != n'), false)
  | .fin n v, .inf n' => if v.isZero then (.nan, true) else (.inf (n != n'), false)

def El.isNan : El → Bool
  | .nan => true
  | .inf _ => false
  | .fin _ _ => false

def El.isInf (neg : Bool) : El → Bool
  | .inf n => n == neg
  | .nan => false
  | .fin _ _ => false

/-- The finite value, zero for the others. -/
def El.val : El → Dy
  | .fin _ v => v
  | .inf _ => Dy.zero
  | .nan => Dy.zero

def El.negZero : El → Bool
  | .fin n v => n && v.isZero
  | .inf _ => false
  | .nan => false

def El.negative : El → Bool
  | .fin n _ => n
  | .inf n => n
  | .nan => false

/-- The exact sum of terms times 2^k, and whether opposite infinities met. A zero sum is −0 only when every term is. -/
def sumEls (k : Int) (xs : List El) : El × Bool :=
  let opp := xs.any (El.isInf true) && xs.any (El.isInf false)
  if opp || xs.any El.isNan then (.nan, opp)
  else if xs.any (El.isInf true) then (.inf true, false)
  else if xs.any (El.isInf false) then (.inf false, false)
  else
    let d := (Dy.sum (xs.map El.val)).scale k
    (.fin (if d.isZero then xs.all El.negZero else decide (d.m < 0)) d, false)

/-- The exact sum S of one K-block, and whether an invalid operation was met. -/
def dotBlock (k : Int) (ps : List (El × El)) : El × Bool :=
  let ms := ps.map fun p => p.1.mul p.2
  let r := sumEls k (ms.map Prod.fst)
  (r.1, r.2 || ms.any Prod.snd)

/-- S added to an accumulator code of format f that is no NaN: one rounding; result and flags. -/
def FF.accumulate (f : FF) (rm : Nat) (acc : Nat) (S : El) : Nat × Nat :=
  match S with
  | .nan => (f.defNaN, 0)
  | .inf n => if f.isInf acc && f.neg acc != n then f.invalid else (f.inf n, 0)
  | .fin n v =>
    if f.isInf acc then (acc, 0)
    else f.round rm false (zeroSign rm [f.neg acc, n]) ((f.val acc).add v)

end Sys2Proof.Machine
end

