-- ==== Sys2Proof/Machine/Scalar.lean ====
section
/-! DEFINITION. Scalar instructions and the special registers (R86, R87, R89 to R91). -/

namespace Sys2Proof.Machine

/-! ## Values -/

/-- High 64 bits of the signed 128-bit product (R86). -/
def mulHigh (a b : DWord) : DWord := ((a.signExtend 128 * b.signExtend 128) >>> 64).truncate 64

/-- Leading zero bits among the low w bits of x. -/
def leadingZeros (w x : Nat) : Nat := if x % 2 ^ w = 0 then w else w - 1 - (x % 2 ^ w).log2

/-- One bits among the low w bits of x. -/
def popCount (x : Nat) : Nat → Nat
  | 0 => 0
  | w + 1 => popCount x w + x / 2 ^ w % 2

/-- Bits p + l − 1 : p of x. -/
def bitField (x p l : Nat) : Nat := x / 2 ^ p % 2 ^ l

/-- x with bits p + l − 1 : p replaced by the low l bits of y. -/
def bitInsert (x y p l : Nat) : Nat := x - bitField x p l * 2 ^ p + y % 2 ^ l * 2 ^ p

/-- The comparisons of SCMP (R87): EQ, NE, LT, GE, LTU, GEU. -/
def scalarCmp (q : Nat) (a b : DWord) : Bool :=
  match q with
  | 0 => a == b
  | 1 => a != b
  | 2 => a.slt b
  | 3 => !(a.slt b)
  | 4 => decide (a < b)
  | _ => !decide (a < b)

def scalarSadd (a b : DWord) : DWord := a + b
def scalarSsub (a b : DWord) : DWord := a - b
def scalarSmul (a b : DWord) : DWord := a * b
def scalarSmulh (a b : DWord) : DWord := mulHigh a b
def scalarSand (a b : DWord) : DWord := a &&& b
def scalarSor (a b : DWord) : DWord := a ||| b
def scalarSxor (a b : DWord) : DWord := a ^^^ b
def scalarSandn (a b : DWord) : DWord := a &&& ~~~b
def scalarSshl (a b : DWord) : DWord := a <<< (b.toNat % 64)
def scalarSshr (a b : DWord) : DWord := a >>> (b.toNat % 64)
def scalarSsar (a b : DWord) : DWord := a.sshiftRight (b.toNat % 64)
def scalarSmin (a b : DWord) : DWord := if a.slt b then a else b
def scalarSmax (a b : DWord) : DWord := if a.slt b then b else a
def scalarSminu (a b : DWord) : DWord := if a < b then a else b
def scalarSmaxu (a b : DWord) : DWord := if a < b then b else a

/-! ## Arithmetic (R86): each reads S[A] and S[B] and writes S[D] -/

/-- NOP: no effect (R57). -/
def execNop (s : State) : Result := .next s

/-- S[D] := S[A] + S[B]. -/
def execSadd (d a b : Nat) (s : State) : Result :=
  .next (writeS s d (scalarSadd (readS s a) (readS s b)))

/-- S[D] := S[A] − S[B]. -/
def execSsub (d a b : Nat) (s : State) : Result :=
  .next (writeS s d (scalarSsub (readS s a) (readS s b)))

/-- S[D] := low 64 bits of S[A] × S[B]. -/
def execSmul (d a b : Nat) (s : State) : Result :=
  .next (writeS s d (scalarSmul (readS s a) (readS s b)))

/-- S[D] := high 64 bits of the signed product. -/
def execSmulh (d a b : Nat) (s : State) : Result :=
  .next (writeS s d (scalarSmulh (readS s a) (readS s b)))

/-- S[D] := S[A] AND S[B]. -/
def execSand (d a b : Nat) (s : State) : Result :=
  .next (writeS s d (scalarSand (readS s a) (readS s b)))

/-- S[D] := S[A] OR S[B]. -/
def execSor (d a b : Nat) (s : State) : Result :=
  .next (writeS s d (scalarSor (readS s a) (readS s b)))

/-- S[D] := S[A] XOR S[B]. -/
def execSxor (d a b : Nat) (s : State) : Result :=
  .next (writeS s d (scalarSxor (readS s a) (readS s b)))

/-- S[D] := S[A] AND NOT S[B]. -/
def execSandn (d a b : Nat) (s : State) : Result :=
  .next (writeS s d (scalarSandn (readS s a) (readS s b)))

/-- S[D] := S[A] shifted left by S[B] bits 5:0. -/
def execSshl (d a b : Nat) (s : State) : Result :=
  .next (writeS s d (scalarSshl (readS s a) (readS s b)))

/-- S[D] := S[A] shifted right, zeros in. -/
def execSshr (d a b : Nat) (s : State) : Result :=
  .next (writeS s d (scalarSshr (readS s a) (readS s b)))

/-- S[D] := S[A] shifted right, copies of bit 63 in. -/
def execSsar (d a b : Nat) (s : State) : Result :=
  .next (writeS s d (scalarSsar (readS s a) (readS s b)))

/-- S[D] := signed minimum. -/
def execSmin (d a b : Nat) (s : State) : Result :=
  .next (writeS s d (scalarSmin (readS s a) (readS s b)))

/-- S[D] := signed maximum. -/
def execSmax (d a b : Nat) (s : State) : Result :=
  .next (writeS s d (scalarSmax (readS s a) (readS s b)))

/-- S[D] := unsigned minimum. -/
def execSminu (d a b : Nat) (s : State) : Result :=
  .next (writeS s d (scalarSminu (readS s a) (readS s b)))

/-- S[D] := unsigned maximum. -/
def execSmaxu (d a b : Nat) (s : State) : Result :=
  .next (writeS s d (scalarSmaxu (readS s a) (readS s b)))

/-- S[D] := leading zero bits of S[A] (R87). -/
def execSclz (d a : Nat) (s : State) : Result :=
  .next (writeS s d (BitVec.ofNat 64 (leadingZeros 64 (readS s a).toNat)))

/-- S[D] := one bits of S[A] (R87). -/
def execSpopc (d a : Nat) (s : State) : Result :=
  .next (writeS s d (BitVec.ofNat 64 (popCount (readS s a).toNat 64)))

/-- S[D] := S[A] (R87). -/
def execSmov (d a : Nat) (s : State) : Result := .next (writeS s d (readS s a))

/-- S[D] := low 64 bits of S[A] × S[B] + S[C] (R87). -/
def execSmad (d a b r : Nat) (s : State) : Result := .next (writeS s d (readS s a * readS s b + readS s r))

/-- S[D] := S[A] if S[C] ≠ 0, else S[B] (R87). -/
def execSsel (d a b r : Nat) (s : State) : Result :=
  .next (writeS s d (if readS s r = 0 then readS s b else readS s a))

/-- S[D] := bits pos + len − 1 : pos of S[A]; l is len − 1, and pos + len above 64 raises 3 (R87). -/
def execSbfx (d a p l : Nat) (s : State) : Result :=
  .next (checked (need (decide (p + l < 64)) 3) s fun s =>
    writeS s d (BitVec.ofNat 64 (bitField (readS s a).toNat p (l + 1))))

/-- Bits pos + len − 1 : pos of S[D] := bits len − 1 : 0 of S[A] (R87). -/
def execSbfi (d a p l : Nat) (s : State) : Result :=
  .next (checked (need (decide (p + l < 64)) 3) s fun s =>
    writeS s d (BitVec.ofNat 64 (bitInsert (readS s d).toNat (readS s a).toNat p (l + 1))))

/-- S[D] := 1 when S[A] cc S[B] holds, else 0 (R87). -/
def execScmp (d a b q : Nat) (s : State) : Result :=
  .next (writeS s d (if scalarCmp q (readS s a) (readS s b) then 1 else 0))

/-- S[D] := IMM12 sign-extended (R87). -/
def execSldi (d i : Nat) (s : State) : Result := .next (writeS s d (sext64 12 i))

/-- S[D] := the 32-bit XI immediate sign-extended (R87). -/
def execSldiLong (d i : Nat) (s : State) : Result := .next (writeS s d (sext64 32 i))

/-- S[D] := S[A] + IMM12 sign-extended (R87). -/
def execSaddi (d a i : Nat) (s : State) : Result := .next (writeS s d (readS s a + sext64 12 i))

/-- S[D] := S[A] + the 32-bit XI immediate sign-extended (R87). -/
def execSaddiLong (d a i : Nat) (s : State) : Result := .next (writeS s d (readS s a + sext64 32 i))

/-! ## Special registers (R89 to R91) -/

/-- `blockid` (R26). -/
def blockId (s : State) : DWord :=
  BitVec.ofNat 64 (s.cur.bslot + s.block.hrank * 2 ^ 4 + s.block.hsize * 2 ^ 7)

/-- `pkgid` (R89, R386). -/
def pkgId (s : State) : DWord :=
  match s.identNow with
  | some n => BitVec.ofNat 64 n
  | none => BitVec.ofNat 64 (2 ^ 63)

/-- The value of a special register that is one scalar (R89): of `fpmode` and `greedy` the one in force, which a write of the same packet
changes with the next (R25, R47). -/
def specialReg (s : State) (n : Nat) : DWord :=
  match n with
  | 2 => BitVec.ofNat 64 s.cur.team
  | 3 => blockId s
  | 4 => BitVec.ofNat 64 s.cur.core
  | 5 => BitVec.ofNat 64 (s.cur.core / 8)
  | 6 => BitVec.ofNat 64 (s.cur.core / 24)
  | 7 => pkgId s
  | 8 => BitVec.ofNat 64 s.clock
  | 9 => BitVec.ofNat 64 (presentWord s.block.w (sections s) s.src.mask)
  | 10 => s.src.fpmode.zeroExtend 64
  | 11 => s.src.fpflags.zeroExtend 64
  | 12 => BitVec.ofNat 64 s.src.greedy
  | 13 => BitVec.ofNat 64 s.src.winbase
  | _ => wget s.src.sndcfg (n - 24)

/-- SGET: `laneid` and `secid` go to V[D] of each Active lane, every other register to S[D]; a number that is not readable
raises 3 (R89, R90). -/
def execSget (d n : Nat) (s : State) : Result :=
  .next (checked ((need (sgetNumber n) 3).or (operandCause (.sget d n) s)) s fun s =>
    if n < 2 then writeV s d ((activeAll s).map fun i => (i, BitVec.ofNat 32 (if n = 0 then i else i / s.block.w)))
    else writeS s d (specialReg s n))

/-- SSET `mask`: lane words whose bit of S[A] is 0 are cleared (R91). -/
def execSsetMask (a : Nat) (s : State) : Result :=
  .next (s.modTeam fun t => { t with mask := s.src.mask &&& maskOf ((List.range s.block.lanes).filter fun i =>
    (readS s a).getLsbD (i / s.block.w)) })

/-- SSET `fpmode`: in force from the next packet; RM 5 to 7 or a reserved bit raises 3 (R47, R90). -/
def execSsetFpmode (a : Nat) (s : State) : Result :=
  .next (checked (need (decide ((readS s a).toNat % 8 < 5) && fld (readS s a).toNat 3 5 == 0 &&
      decide ((readS s a).toNat < 2 ^ 15)) 3) s fun s =>
    s.modTeam fun t => { t with pendw := tset t.pendw 4096 (readS s a) })

/-- SSET `fpflags`: bits 6:0 are written, 31:7 ignored; bits 63:32 must be zero; the flags raised in its packet are kept (R46, R47, R90). -/
def execSsetFpflags (a : Nat) (s : State) : Result :=
  .next (checked (need (decide ((readS s a).toNat < 2 ^ 32)) 3) s fun s =>
    s.modTeam fun t => { t with fpflags := BitVec.ofNat 32 ((readS s a).toNat % 128) ||| t.fpnew })

/-- SSET `greedy`: low 16 bits, held between 1 and 1 024, from the team's next packet (R25). -/
def execSsetGreedy (a : Nat) (s : State) : Result :=
  .next (s.modTeam fun t => { t with
    pendw := tset t.pendw 4097 (BitVec.ofNat 64 (max 1 (min 1024 ((readS s a).toNat % 65536)))) })

/-! ## Reins (R173 to R175) -/

/-- A core lies in a partition: its stack group is one of the partition's (R377). -/
def coreInPart (s : State) (part core : Nat) : Bool :=
  let e := (wget s.parts part).toNat
  e % 2 == 1 && decide (fld e 2 3 ≤ core / 24) && decide (core / 24 < fld e 2 3 + 2 ^ fld e 5 2)

/-- SSET `sndcfg`: waits until the channel's last flit has been delivered (R173). -/
def execSsetSndcfg (a n : Nat) (s : State) : Result :=
  .next (checked (need (let v := (readS s a).toNat
      fld v 16 48 == 0 && fld v 10 5 == 0 && decide (v % 256 < 192) && coreInPart s s.block.part (v % 256)) 3) s fun s =>
    match tget s.team.snd n with
    | some _ => stall s
    | none => s.modTeam fun t => { t with sndcfg := tset t.sndcfg n (readS s a) })

/-- SSET `snd`: one flit into the channel's buffer; a disabled channel raises 248, a full buffer stalls (R174). -/
def execSsetSnd (a n : Nat) (s : State) : Result :=
  .next (checked (need ((wget s.src.sndcfg n).getLsbD 15) 248) s fun s =>
    match tget s.team.snd n with
    | some _ => stall s
    | none => s.modTeam fun t => { t with snd := tset t.snd n (readS s (a + 1) ++ readS s a) })

/-- SGET `rcv`: the oldest flit goes to the reader that has waited longest; a reader with no flit sleeps (R175). -/
def execSgetRcv (d n : Nat) (s : State) : Result :=
  let c := s.core s.cur.core
  let rd := (tget c.readers n).getD []
  let rd' := if rd.any (· == s.cur) then rd else rd ++ [s.cur]
  .next <|
    match (tget c.rcv n).getD [], rd'.head? == some s.cur with
    | f :: fs, true =>
      let s1 := s.modCore s.cur.core fun c => { c with rcv := tset c.rcv n fs, readers := tset c.readers n (rd'.drop 1) }
      writeS (writeS s1 d (f.truncate 64)) (d + 1) ((f >>> 64).truncate 64)
    | _, _ => stall (s.modCore s.cur.core fun c => { c with readers := tset c.readers n rd' })

end Sys2Proof.Machine
end

