-- ==== Sys2Proof/Machine/Control.lean ====
section
/-! DEFINITION. Control transfer, the register window, WAIT, TRAP and BRK (R20 to R22, R92 to R101), predicates and masks
(R103 to R105). -/

namespace Sys2Proof.Machine

/-! ## Branches (R92, R93) -/

/-- The packet OFF16 names from the current one. -/
def branchTarget (s : State) (o : Nat) : Int := (s.src.pkt : Int) + sgn 16 o

/-- Transfer to a packet number that must lie inside the image, else 3 (R92). -/
def branchTo (s : State) (o : Nat) : State :=
  let p := branchTarget s o
  if 0 ≤ p ∧ p.toNat < imagePackets s then jumpTo s p.toNat else raiseCode 3 s

/-- The tests of BRC (R66). -/
def branchTest (q : Nat) (v : DWord) : Bool :=
  match q with
  | 0 => v == 0
  | 1 => v != 0
  | 2 => v.getLsbD 63
  | _ => !v.getLsbD 63

/-- The tests of BRM: no lane, some lane, every lane of the team (R93). -/
def maskTest (q : Nat) (m : Lanes) (lanes : Nat) : Bool :=
  match q with
  | 0 => m == 0
  | 1 => m != 0
  | _ => m == lanesBelow lanes

/-- BRA: always taken (R93). -/
def execBra (o : Nat) (s : State) : Result := .next (branchTo s o)

/-- BRC: taken when S[r] meets the test (R93). -/
def execBrc (r q o : Nat) (s : State) : Result :=
  .next (if branchTest q (readS s r) then branchTo s o else s)

/-- BRM: taken on the hierarchical mask; condition 3 raises 3 (R93). -/
def execBrm (q o : Nat) (s : State) : Result :=
  .next (checked (need (decide (q < 3)) 3) s fun s => if maskTest q s.src.mask s.block.lanes then branchTo s o else s)

/-- JMP: the program counter takes the code address S[A] (R94). -/
def execJmp (a : Nat) (s : State) : Result :=
  .next (checked (need (legalTarget s (readS s a).toNat) 3) s fun s' => jumpTo s' ((readS s a).toNat / 12))

/-! ## The register window (R21, R22, R95 to R97) -/

/-- Bytes of one group of 8 registers of the team in its spill area. -/
def groupBytes (s : State) : Nat := s.block.lanes * 32

/-- Core offset of group g in the team's spill area (R21). -/
def spillAt (s : State) (g : Nat) : Nat :=
  s.block.spillOff + (s.cur.team * s.block.spillGroups + g) * groupBytes s

/-- The registers of group g as the spill area holds them: lane by lane, eight little-endian words (R21). -/
def groupImage (s : State) (g : Nat) : List Byte :=
  ((List.range s.block.lanes).map fun i =>
    ((List.range 8).map fun r => natLe 4 (wget s.team.vregs ((8 * g + r) * 1024 + i)).toNat).flatten).flatten

/-- Register words read back from a group's image. -/
def groupWords (lanes g : Nat) (bs : List Byte) : List (Nat × Word) :=
  ((List.range lanes).map fun i =>
    (List.range 8).map fun r =>
      ((8 * g + r) * 1024 + i, BitVec.ofNat 32 (leNat ((bs.drop (i * 32 + r * 4)).take 4)))).flatten

/-- Group g leaves the register file. -/
def Team.dropGroup (t : Team) (g : Nat) : Team := { t with vregs := tcut t.vregs (8 * g * 1024) (8 * 1024) }

/-- Group g enters the register file with no stated contents: every register of it is unspecified. -/
def Team.blankGroup (t : Team) (lanes g : Nat) : Team :=
  { t.dropGroup g with unspec := t.unspec ++ (List.range 8).map fun r => ⟨0, 8 * g + r, lanesBelow lanes⟩ }

/-- Group g leaves with its contents discarded. -/
def Team.discardGroup (t : Team) (g : Nat) : Team :=
  { t.dropGroup g with unspec := t.unspec.filter fun u => !(u.cls == 0 && u.reg / 8 == g) }

/-- Group g is written to the spill area and leaves; the group that takes its place is blank (R21). -/
def spillGroup (s : State) (g : Nat) : State :=
  let s1 := putLocal s 0 s.cur.core (s.owner s.block.part) (spillAt s g) (groupImage s g)
  s1.modTeam fun t => (t.dropGroup g).blankGroup s.block.lanes (g + s.block.nreg / 8)

/-- Group g is read back; the group it displaces is discarded (R21). -/
def refillGroup (s : State) (g : Nat) : State :=
  let bs := readLocal s 0 s.cur.core (s.owner s.block.part) (spillAt s g) (groupBytes s)
  s.modTeam fun t =>
    let t := t.discardGroup (g + s.block.nreg / 8)
    { t with vregs := (groupWords s.block.lanes g bs).foldl (fun v x => tset v x.1 x.2) t.vregs }

/-- Groups a, a + 1, …, below b. -/
def groupsFrom (a b : Nat) : List Nat := (List.range b).filter fun g => decide (a ≤ g)

/-- A flagged operation still outstanding writes a register of one of these groups (R97). -/
def groupsBusy (s : State) (gs : List Nat) : Bool :=
  s.team.pend.any fun p => p.cls == 0 && inList (p.reg / 8) gs && (tget s.ops p.op).isSome

/-- A group image in the spill area carries poison (R142). -/
def spillPoisoned (s : State) (gs : List Nat) : Bool :=
  gs.any fun g => poisoned s 0 s.cur.core (spillAt s g) (groupBytes s)

/-- The resident floor a window base needs (R21). -/
def floorFor (s : State) (nb : Nat) : Nat :=
  if nb + windowWidth s ≤ s.src.lo + s.block.nreg then s.src.lo else roundUp (nb + windowWidth s - s.block.nreg) 8

/-- CALL and CALLR once the target is known to be legal: grow the window, link, transfer; poison where a group is to be spilled raises 124
(R95, R142). -/
def callWith (s : State) (k p : Nat) : State :=
  let nb := s.src.winbase + 8 * k
  let lo := floorFor s nb
  let gs := groupsFrom (s.src.lo / 8) (lo / 8)
  if s.block.spillGroups < lo / 8 then raiseCode 7 s
  else if spillPoisoned s gs then raiseCode 124 s
  else if groupsBusy s gs then stall s
  else
    let s1 := gs.foldl spillGroup s
    let s2 := s1.modTeam fun t => { t with winbase := nb, lo := lo }
    jumpTo (writeS s2 63 (BitVec.ofNat 64 (12 * (s.src.pkt + 1)))) p

/-- CALL: relative, sliding the window by 8 K (R95). -/
def execCall (k o : Nat) (s : State) : Result :=
  .next (checked (need (decide (0 ≤ branchTarget s o ∧ (branchTarget s o).toNat < imagePackets s)) 3) s fun s =>
    callWith s k (branchTarget s o).toNat)

/-- CALLR: indirect (R95). -/
def execCallr (k a : Nat) (s : State) : Result :=
  .next (checked (need (legalTarget s (readS s a).toNat) 3) s fun s => callWith s k ((readS s a).toNat / 12))

/-- RET: lowers the window by 8 K and transfers to S[A] (R96). -/
def execRet (k a : Nat) (s : State) : Result :=
  .next (checked (need (legalTarget s (readS s a).toNat && decide (8 * k ≤ s.src.winbase)) 3) s fun s =>
    let nb := s.src.winbase - 8 * k
    let lo := min s.src.lo nb
    let gs := groupsFrom (lo / 8) (s.src.lo / 8)
    if spillPoisoned s gs then raiseCode 124 s
    else if groupsBusy s (gs ++ gs.map fun g => g + s.block.nreg / 8) then stall s
    else
      let s1 := gs.reverse.foldl refillGroup s
      jumpTo (s1.modTeam fun t => { t with winbase := nb, lo := lo }) ((readS s a).toNat / 12))

/-! ## WAIT, TRAP, BRK, YIELD (R71, R99 to R101) -/

/-- Flags of a WAIT mask whose count is not zero. -/
def flagsBusy (t : Team) (m : Nat) : Bool :=
  (List.range 12).any fun f => m / 2 ^ f % 2 == 1 && (t.flag f).count != 0

/-- The first recorded fault a WAIT delivers: its flags in order, then 15 (R71). -/
def firstRecord (t : Team) (m : Nat) : Option (Nat × FaultRec) :=
  ((List.range 12).filter (fun f => m / 2 ^ f % 2 == 1) ++ [15]).findSome? fun f => (t.flag f).record.map fun r => (f, r)

/-- WAIT on the flags of m as team t has them: stalls, delivers, or completes and makes their destinations readable (R70, R71). In P mode
it delivers nothing (R285). A delivered record stays until control returns to the WAIT. -/
def waitOn (t : Team) (s : State) (m : Nat) (k : State → State) : State :=
  if flagsBusy t m then stall s
  else
    match s.team.priv, firstRecord t m with
    | false, some (f, r) => raiseRecord f r (s.modTeam fun t => { t with dlv := some (f, t.pkt, t.slot) })
    | _, _ => k (s.modTeam fun t => (List.range 12).foldl (fun t f => if m / 2 ^ f % 2 = 1 then t.waited f else t) t)

/-- WAIT: on the flags as they stood before its chain (R60, R71, R100). -/
def execWait (m : Nat) (s : State) : Result := .next (waitOn s.src s m id)

/-- TRAP: cause 56 with its immediate, resumed after (R101). -/
def execTrap (i : Nat) (s : State) : Result := .next (raise { causeOf 56 with imm := i, after := true } s)

/-- BRK: cause 57 (R101). -/
def execBrk (i : Nat) (s : State) : Result := .next (raise { causeOf 57 with imm := i, after := true } s)

/-- YIELD: the team is marked yielded (R24, R99). -/
def execYield (s : State) : Result := .next (s.modTeam fun t => { t with yielded := true })

/-! ## Predicates (R103, R104) -/

/-- P[D][i] := bit i of v for the lanes of the mask. -/
def predSet (s : State) (d : Nat) (v : Lanes) : State := writeP s d s.src.mask v

def execPand (d a b : Nat) (s : State) : Result := .next (predSet s d (readP s a &&& readP s b))
def execPor (d a b : Nat) (s : State) : Result := .next (predSet s d (readP s a ||| readP s b))
def execPxor (d a b : Nat) (s : State) : Result := .next (predSet s d (readP s a ^^^ readP s b))
def execPandn (d a b : Nat) (s : State) : Result := .next (predSet s d (readP s a &&& ~~~readP s b))
def execPnot (d a : Nat) (s : State) : Result := .next (predSet s d (~~~readP s a))
def execPmov (d a : Nat) (s : State) : Result := .next (predSet s d (readP s a))

/-- PSETI: v above 1 raises 11 (R103). -/
def execPseti (d v : Nat) (s : State) : Result :=
  .next (checked (need (decide (v < 2)) 11) s fun s => predSet s d (if v = 1 then ~~~(0 : Lanes) else 0))

/-- The Active lanes whose predicate is true (R104). -/
def predLanes (s : State) (a : Nat) : List Nat := lanesOf (s.src.mask &&& readP s a) s.block.lanes

def execPany (d a : Nat) (s : State) : Result := .next (writeS s d (if (predLanes s a).isEmpty then 0 else 1))
def execPall (d a : Nat) (s : State) : Result :=
  .next (writeS s d (if (predLanes s a).length = (activeAll s).length then 1 else 0))
def execPcnt (d a : Nat) (s : State) : Result := .next (writeS s d (BitVec.ofNat 64 (predLanes s a).length))
def execPfirst (d a : Nat) (s : State) : Result :=
  .next (writeS s d (match predLanes s a with
    | i :: _ => BitVec.ofNat 64 i
    | [] => -1))

/-! ## The mask stack (R105) -/

/-- MPUSH: a full stack raises 7. -/
def execMpush (a : Nat) (s : State) : Result :=
  .next (checked (need (decide (s.src.mstack.length < 16)) 7) s fun s =>
    s.modTeam fun t => { t with
      mstack := ⟨s.src.mask, s.src.mask &&& ~~~readP s a⟩ :: s.src.mstack
      mask := s.src.mask &&& readP s a })

/-- MELSE: the else mask of the top entry, which becomes empty; an empty stack raises 3. -/
def execMelse (s : State) : Result :=
  .next (match s.src.mstack with
    | [] => raiseCode 3 s
    | e :: es => s.modTeam fun t => { t with mask := e.els, mstack := ⟨e.saved, 0⟩ :: es })

/-- MPOP: the saved mask of the top entry; an empty stack raises 3. -/
def execMpop (s : State) : Result :=
  .next (match s.src.mstack with
    | [] => raiseCode 3 s
    | e :: es => s.modTeam fun t => { t with mask := e.saved, mstack := es })

/-- MSAVE: the mask to P[D], every lane of the team. -/
def execMsave (d : Nat) (s : State) : Result := .next (writeP s d (lanesBelow s.block.lanes) s.src.mask)

/-- MLOAD: the mask from P[A], every lane of the team. -/
def execMload (a : Nat) (s : State) : Result :=
  .next (s.modTeam fun t => { t with mask := readP s a &&& lanesBelow s.block.lanes })

end Sys2Proof.Machine
end

