-- ==== Sys2Proof/Machine/VectorInt.lean ====
section
/-! DEFINITION. Vector integer instructions (R106 to R112). Element functions work on w-bit numbers. -/

namespace Sys2Proof.Machine

/-! ## Elements -/

/-- A signed value clamped to w bits: the element and IOF when it was clamped (R109). -/
def clampInt (w : Nat) (x : Int) : Nat × Nat :=
  if x < -(2 : Int) ^ (w - 1) then (2 ^ (w - 1), flagIOF)
  else if (2 : Int) ^ (w - 1) ≤ x then (2 ^ (w - 1) - 1, flagIOF)
  else ((x % (2 : Int) ^ w).toNat, 0)

/-- a + b, wrapping. -/
def elemVadd (w a b : Nat) : Nat := (a + b) % 2 ^ w
/-- a − b, wrapping. -/
def elemVsub (w a b : Nat) : Nat := (a + (2 ^ w - b)) % 2 ^ w
/-- low w bits of a × b. -/
def elemVmul (w a b : Nat) : Nat := a * b % 2 ^ w
/-- high w bits of the signed product. -/
def elemVmulh (w a b : Nat) : Nat := (sgn w a * sgn w b / (2 : Int) ^ w % (2 : Int) ^ w).toNat
/-- a AND b. -/
def elemVand (w a b : Nat) : Nat := Nat.land a b
/-- a OR b. -/
def elemVor (w a b : Nat) : Nat := Nat.lor a b
/-- a XOR b. -/
def elemVxor (w a b : Nat) : Nat := Nat.xor a b
/-- a shifted left by b mod w. -/
def elemVshl (w a b : Nat) : Nat := a * 2 ^ (b % w) % 2 ^ w
/-- a shifted right by b mod w, zeros in. -/
def elemVshr (w a b : Nat) : Nat := a / 2 ^ (b % w)
/-- a shifted right by b mod w, copies of the sign bit in. -/
def elemVsar (w a b : Nat) : Nat := (sgn w a / (2 : Int) ^ (b % w) % (2 : Int) ^ w).toNat
/-- signed minimum. -/
def elemVmin (w a b : Nat) : Nat := if sgn w a < sgn w b then a else b
/-- signed maximum. -/
def elemVmax (w a b : Nat) : Nat := if sgn w a < sgn w b then b else a
/-- unsigned minimum. -/
def elemVminu (w a b : Nat) : Nat := if a < b then a else b
/-- unsigned maximum. -/
def elemVmaxu (w a b : Nat) : Nat := if a < b then b else a

/-- A plain two-source instruction on every element of type T: V[D] := f(V[A], V[B]) in the Active lanes (R109). -/
def vecTwo (f : Nat → Nat → Nat → Nat) (o : V3) (s : State) : State :=
  let w := intWidth o.t
  let n := elemCount o.t w
  let wide := o.t == 3
  laneSet s o.g wide o.d fun i =>
    (elemwise2 w n (fun a b => (f w a b, 0)) (readN s wide o.a i) (readN s wide o.b i)).1

/-- A saturating two-source instruction (R109). -/
def vecSat (f : Int → Int → Int) (o : V3) (s : State) : State :=
  let w := intWidth o.t
  let n := elemCount o.t w
  let wide := o.t == 3
  laneOp s 0 o.g wide o.d fun i =>
    elemwise2 w n (fun a b => clampInt w (f (sgn w a) (sgn w b))) (readN s wide o.a i) (readN s wide o.b i)

/-- A one-source instruction (R111). -/
def vecOne (f : Nat → Nat → Nat) (o : V2) (s : State) : State :=
  let w := intWidth o.t
  let n := elemCount o.t w
  let wide := o.t == 3
  laneSet s o.g wide o.d fun i => (elemwise1 w n (fun a => (f w a, 0)) (readN s wide o.a i)).1

/-! ## Instructions -/

/-- VADD: a + b, wrapping (R109). -/
def execVadd (o : V3) (s : State) : Result :=
  .next (checked (operandCause (.vadd o) s) s (vecTwo elemVadd o))

/-- VSUB: a − b, wrapping (R109). -/
def execVsub (o : V3) (s : State) : Result :=
  .next (checked (operandCause (.vsub o) s) s (vecTwo elemVsub o))

/-- VMUL: low w bits of a × b (R109). -/
def execVmul (o : V3) (s : State) : Result :=
  .next (checked (operandCause (.vmul o) s) s (vecTwo elemVmul o))

/-- VMULH: high w bits of the signed product (R109). -/
def execVmulh (o : V3) (s : State) : Result :=
  .next (checked (operandCause (.vmulh o) s) s (vecTwo elemVmulh o))

/-- VAND: a AND b (R109). -/
def execVand (o : V3) (s : State) : Result :=
  .next (checked (operandCause (.vand o) s) s (vecTwo elemVand o))

/-- VOR: a OR b (R109). -/
def execVor (o : V3) (s : State) : Result :=
  .next (checked (operandCause (.vor o) s) s (vecTwo elemVor o))

/-- VXOR: a XOR b (R109). -/
def execVxor (o : V3) (s : State) : Result :=
  .next (checked (operandCause (.vxor o) s) s (vecTwo elemVxor o))

/-- VSHL: a shifted left by b mod w (R109). -/
def execVshl (o : V3) (s : State) : Result :=
  .next (checked (operandCause (.vshl o) s) s (vecTwo elemVshl o))

/-- VSHR: a shifted right by b mod w, zeros in (R109). -/
def execVshr (o : V3) (s : State) : Result :=
  .next (checked (operandCause (.vshr o) s) s (vecTwo elemVshr o))

/-- VSAR: a shifted right by b mod w, copies of the sign bit in (R109). -/
def execVsar (o : V3) (s : State) : Result :=
  .next (checked (operandCause (.vsar o) s) s (vecTwo elemVsar o))

/-- VMIN: signed minimum (R109). -/
def execVmin (o : V3) (s : State) : Result :=
  .next (checked (operandCause (.vmin o) s) s (vecTwo elemVmin o))

/-- VMAX: signed maximum (R109). -/
def execVmax (o : V3) (s : State) : Result :=
  .next (checked (operandCause (.vmax o) s) s (vecTwo elemVmax o))

/-- VMINU: unsigned minimum (R109). -/
def execVminu (o : V3) (s : State) : Result :=
  .next (checked (operandCause (.vminu o) s) s (vecTwo elemVminu o))

/-- VMAXU: unsigned maximum (R109). -/
def execVmaxu (o : V3) (s : State) : Result :=
  .next (checked (operandCause (.vmaxu o) s) s (vecTwo elemVmaxu o))

/-- VADDS: a + b clamped; IOF when clamped (R109). -/
def execVadds (o : V3) (s : State) : Result :=
  .next (checked (operandCause (.vadds o) s) s (vecSat (· + ·) o))

/-- VSUBS: a − b clamped (R109). -/
def execVsubs (o : V3) (s : State) : Result :=
  .next (checked (operandCause (.vsubs o) s) s (vecSat (· - ·) o))

/-- VMAD: low w bits of a × b + c (R110). -/
def execVmad (o : V3) (r : Nat) (s : State) : Result :=
  .next (checked (operandCause (.vmad o r) s) s fun s =>
    let w := intWidth o.t
    let wide := o.t == 3
    laneSet s o.g wide o.d fun i =>
      (elemwise3 w (elemCount o.t w) (fun a b c => ((a * b + c) % 2 ^ w, 0))
        (readN s wide o.a i) (readN s wide o.b i) (readN s wide r i)).1)

/-- The exact sum of VDOT4 in one lane (R110). -/
def dotSum (w n a b c : Nat) : Int :=
  (List.range n).foldl (fun x e => x + sgn w (elem w a e) * sgn w (elem w b e)) (sgn 32 c)

/-- What VDOT4 writes for an exact sum, and IOF when it leaves I32 (R110). -/
def dotResult (sat : Bool) (x : Int) : Nat × Nat :=
  if (clampInt 32 x).2 = 0 then clampInt 32 x
  else if sat then clampInt 32 x else ((x % (2 : Int) ^ 32).toNat, flagIOF)

/-- VDOT4: packed signed dot product into I32 (R110). -/
def execVdot4 (o : V3) (r : Nat) (sat : Bool) (s : State) : Result :=
  .next (checked (operandCause (.vdot4 o r sat) s) s fun s =>
    let w := intWidth o.t
    laneOp s 0 o.g false o.d fun i =>
      dotResult sat (dotSum w (32 / w) (readV s o.a i).toNat (readV s o.b i).toNat (readV s r i).toNat))

/-- |a|; the most negative value gives itself. -/
def elemVabs (w a : Nat) : Nat := if sgn w a < 0 then (2 ^ w - a) % 2 ^ w else a
/-- 0 − a, wrapping. -/
def elemVneg (w a : Nat) : Nat := (2 ^ w - a) % 2 ^ w
/-- leading zero bits. -/
def elemVclz (w a : Nat) : Nat := leadingZeros w a
/-- one bits. -/
def elemVpopc (w a : Nat) : Nat := popCount a w
/-- a. -/
def elemVmov (_w a : Nat) : Nat := a

/-- VABS: |a|; the most negative value gives itself (R111). -/
def execVabs (o : V2) (s : State) : Result :=
  .next (checked (operandCause (.vabs o) s) s (vecOne elemVabs o))

/-- VNEG: 0 − a, wrapping (R111). -/
def execVneg (o : V2) (s : State) : Result :=
  .next (checked (operandCause (.vneg o) s) s (vecOne elemVneg o))

/-- VCLZ: leading zero bits (R111). -/
def execVclz (o : V2) (s : State) : Result :=
  .next (checked (operandCause (.vclz o) s) s (vecOne elemVclz o))

/-- VPOPC: one bits (R111). -/
def execVpopc (o : V2) (s : State) : Result :=
  .next (checked (operandCause (.vpopc o) s) s (vecOne elemVpopc o))

/-- VMOV: a (R111). -/
def execVmov (o : V2) (s : State) : Result :=
  .next (checked (operandCause (.vmov o) s) s (vecOne elemVmov o))

/-- VLANE: the lane's position in its section (R111). -/
def execVlane (d : Nat) (g : Nat) (s : State) : Result :=
  .next (checked (operandCause (.vlane d g) s) s fun s =>
    laneSet s g false d fun i => i % s.block.w)

/-- What VBCS puts into a lane for type T (R111). -/
def broadcast (t x : Nat) : Nat :=
  if t = 3 then x else if t = 0 then x % 2 ^ 32 else if t = 1 then x % 65536 * 65537 else x % 256 * 16843009

/-- VBCS: a scalar into every element (R111). -/
def execVbcs (o : V2) (s : State) : Result :=
  .next (checked (operandCause (.vbcs o) s) s fun s =>
    laneSet s o.g (o.t == 3) o.d fun _ => broadcast o.t (readS s o.a).toNat)

/-- VBFX: a bit field, zero-extended (R112). -/
def execVbfx (o : V2) (p : Nat) (l : Nat) (s : State) : Result :=
  .next (checked ((need (decide (p + l < (if o.t = 3 then 64 else 32))) 11).or <| operandCause (.vbfx o p l) s) s fun s =>
    laneSet s o.g (o.t == 3) o.d fun i => bitField (readN s (o.t == 3) o.a i) p (l + 1))

/-- VBFI: a bit field replaced (R112). -/
def execVbfi (o : V2) (p : Nat) (l : Nat) (s : State) : Result :=
  .next (checked ((need (decide (p + l < (if o.t = 3 then 64 else 32))) 11).or <| operandCause (.vbfi o p l) s) s fun s =>
    laneSet s o.g (o.t == 3) o.d fun i =>
      bitInsert (readN s (o.t == 3) o.d i) (readN s (o.t == 3) o.a i) p (l + 1))

/-- VSEL: A where P[C] is true, else B (R112). -/
def execVsel (o : V3) (r : Nat) (s : State) : Result :=
  .next (checked (operandCause (.vsel o r) s) s fun s =>
    laneSet s o.g (o.t == 3) o.d fun i =>
      if (readP s r).getLsbD i then readN s (o.t == 3) o.a i else readN s (o.t == 3) o.b i)

/-- The conditions of VCMP (R80): EQ, NE, LT, LE, GT, GE signed, LTU, LEU, GTU, GEU. -/
def vecCmp (q w a b : Nat) : Bool :=
  match q with
  | 0 => a == b
  | 1 => a != b
  | 2 => decide (sgn w a < sgn w b)
  | 3 => decide (sgn w a ≤ sgn w b)
  | 4 => decide (sgn w b < sgn w a)
  | 5 => decide (sgn w b ≤ sgn w a)
  | 6 => decide (a < b)
  | 7 => decide (a ≤ b)
  | 8 => decide (b < a)
  | _ => decide (b ≤ a)

/-- VCMP: P[D][i] := a cond b; a reserved condition raises 11 (R112). -/
def execVcmp (o : V3) (q : Nat) (s : State) : Result :=
  .next (checked ((need (decide (q < 10)) 11).or <| operandCause (.vcmp o q) s) s fun s =>
    writeP s o.d (guarded s o.g) (maskOf ((active s o.g).filter fun i =>
      vecCmp q (intWidth o.t) (readN s (o.t == 3) o.a i) (readN s (o.t == 3) o.b i))))

/-- VLDI: every lane of the mask (R112). -/
def execVldi (d : Nat) (i : Nat) (s : State) : Result :=
  .next (checked (operandCause (.vldi d i) s) s fun s =>
    laneSet s 15 false d fun _ => (sext64 12 i).toNat % 2 ^ 32)

/-- VLDI: every lane of the mask (R112). -/
def execVldiLong (d : Nat) (i : Nat) (s : State) : Result :=
  .next (checked (operandCause (.vldiLong d i) s) s fun s =>
    laneSet s 15 false d fun _ => (sext64 32 i).toNat % 2 ^ 32)

end Sys2Proof.Machine
end

