-- ==== Sys2Proof/Machine/VectorFloat.lean ====
section
/-! DEFINITION. Vector floating-point instructions (R113 to R123). -/

namespace Sys2Proof.Machine

/-- The unit of arithmetic causes for float type T (R48). -/
def floatUnit (t : Nat) : Nat := ffUnit (ffOf t)

/-- A one-source float instruction on every element (R113). -/
def floatOne (f : FF → Nat → Nat × Nat) (o : V2) (s : State) : State :=
  let w := floatWidth o.t
  laneOp s (floatUnit o.t) o.g (o.t == 3) o.d fun i =>
    elemwise1 w (elemCount o.t w) (f (ffOf o.t)) (readN s (o.t == 3) o.a i)

/-- A two-source float instruction on every element (R113). -/
def floatTwo (f : FF → Nat → Nat → Nat × Nat) (o : V3) (s : State) : State :=
  let w := floatWidth o.t
  laneOp s (floatUnit o.t) o.g (o.t == 3) o.d fun i =>
    elemwise2 w (elemCount o.t w) (f (ffOf o.t)) (readN s (o.t == 3) o.a i) (readN s (o.t == 3) o.b i)

/-- A float instruction that raises no flag (R117, R119). -/
def floatPlain (f : FF → Nat → Nat → Nat) (o : V3) (s : State) : State :=
  let w := floatWidth o.t
  laneSet s o.g (o.t == 3) o.d fun i =>
    (elemwise2 w (elemCount o.t w) (fun a b => (f (ffOf o.t) a b, 0)) (readN s (o.t == 3) o.a i) (readN s (o.t == 3) o.b i)).1

/-- The magnitude of a with a sign of its own (R117). -/
def FF.clearSign (f : FF) (a : Nat) : Nat := f.mag a
def FF.copySign (f : FF) (a b : Nat) : Nat := f.withSign (f.neg b) (f.mag a)

/-- FADD: a + b, in the mode of `fpmode` (R114). -/
def execFadd (o : V3) (s : State) : Result :=
  .next (checked (operandCause (.fadd o) s) s fun s => floatTwo (fun f => f.add (roundMode s 7)) o s)

/-- FADD with a rounding override (R114). -/
def execFaddLong (o : V3) (rm : Nat) (s : State) : Result :=
  .next (checked (operandCause (.faddLong o rm) s) s fun s => floatTwo (fun f => f.add (roundMode s rm)) o s)

/-- FSUB: a − b, in the mode of `fpmode` (R114). -/
def execFsub (o : V3) (s : State) : Result :=
  .next (checked (operandCause (.fsub o) s) s fun s => floatTwo (fun f => f.sub (roundMode s 7)) o s)

/-- FSUB with a rounding override (R114). -/
def execFsubLong (o : V3) (rm : Nat) (s : State) : Result :=
  .next (checked (operandCause (.fsubLong o rm) s) s fun s => floatTwo (fun f => f.sub (roundMode s rm)) o s)

/-- FMUL: a × b, in the mode of `fpmode` (R114). -/
def execFmul (o : V3) (s : State) : Result :=
  .next (checked (operandCause (.fmul o) s) s fun s => floatTwo (fun f => f.mul (roundMode s 7)) o s)

/-- FMUL with a rounding override (R114). -/
def execFmulLong (o : V3) (rm : Nat) (s : State) : Result :=
  .next (checked (operandCause (.fmulLong o rm) s) s fun s => floatTwo (fun f => f.mul (roundMode s rm)) o s)

/-- FDIV: a ÷ b, correctly rounded, in the mode of `fpmode` (R114). -/
def execFdiv (o : V3) (s : State) : Result :=
  .next (checked (operandCause (.fdiv o) s) s fun s => floatTwo (fun f => f.div (roundMode s 7)) o s)

/-- FDIV with a rounding override (R114). -/
def execFdivLong (o : V3) (rm : Nat) (s : State) : Result :=
  .next (checked (operandCause (.fdivLong o rm) s) s fun s => floatTwo (fun f => f.div (roundMode s rm)) o s)

/-- FRND: an integral value of the same format (R114). -/
def execFrnd (o : V2) (s : State) : Result :=
  .next (checked (operandCause (.frnd o) s) s fun s => floatOne (fun f => f.roundIntegral (roundMode s 7)) o s)

/-- FRND with a rounding override (R114). -/
def execFrndLong (o : V2) (rm : Nat) (s : State) : Result :=
  .next (checked (operandCause (.frndLong o rm) s) s fun s => floatOne (fun f => f.roundIntegral (roundMode s rm)) o s)

/-- FSQRT: the correctly rounded root (R114). -/
def execFsqrt (o : V2) (s : State) : Result :=
  .next (checked (operandCause (.fsqrt o) s) s fun s => floatOne (fun f => f.sqrt (roundMode s 7)) o s)

/-- FSQRT with a rounding override (R114). -/
def execFsqrtLong (o : V2) (rm : Nat) (s : State) : Result :=
  .next (checked (operandCause (.fsqrtLong o rm) s) s fun s => floatOne (fun f => f.sqrt (roundMode s rm)) o s)

/-- The scale count of FSCL: an I32, or a signed half for packed types, held within ±5 000, past which the result no longer
changes (R114). -/
def sclCount (w b : Nat) : Int := max (-5000) (min 5000 (sgn w b))

/-- FSCL (R114): B is one 32-bit register for F32 and F64. -/
def scaleLanes (rm : Nat) (o : V3) (s : State) : State :=
  let w := floatWidth o.t
  laneOp s (floatUnit o.t) o.g (o.t == 3) o.d fun i =>
    if o.t = 3 then ffF64.scaleBy rm (readN s true o.a i) (sclCount 32 (readV s o.b i).toNat)
    else elemwise2 w (elemCount o.t w) (fun a b => (ffOf o.t).scaleBy rm a (sclCount w b)) (readV s o.a i).toNat (readV s o.b i).toNat

/-- FSCL: a × 2^k (R114). -/
def execFscl (o : V3) (s : State) : Result :=
  .next (checked (operandCause (.fscl o) s) s fun s => scaleLanes (roundMode s 7) o s)

/-- FSCL with a rounding override (R114). -/
def execFsclLong (o : V3) (rm : Nat) (s : State) : Result :=
  .next (checked (operandCause (.fsclLong o rm) s) s fun s => scaleLanes (roundMode s rm) o s)

/-- FFMA: a × b + c, one rounding (R114). -/
def execFfma (o : V3) (r : Nat) (rm : Nat) (s : State) : Result :=
  .next (checked (operandCause (.ffma o r rm) s) s fun s =>
    let w := floatWidth o.t
    laneOp s (floatUnit o.t) o.g (o.t == 3) o.d fun i =>
      elemwise3 w (elemCount o.t w) ((ffOf o.t).fma (roundMode s rm))
        (readN s (o.t == 3) o.a i) (readN s (o.t == 3) o.b i) (readN s (o.t == 3) r i))

/-- FMIN: the number over a NaN (R116). -/
def execFmin (o : V3) (s : State) : Result :=
  .next (checked (operandCause (.fmin o) s) s (floatTwo (fun f => f.minmax false) o))

/-- FMAX: the number over a NaN (R116). -/
def execFmax (o : V3) (s : State) : Result :=
  .next (checked (operandCause (.fmax o) s) s (floatTwo (fun f => f.minmax true) o))

/-- FMINP: the NaN (R116). -/
def execFminp (o : V3) (s : State) : Result :=
  .next (checked (operandCause (.fminp o) s) s (floatTwo (fun f => f.minmaxP false) o))

/-- FMAXP: the NaN (R116). -/
def execFmaxp (o : V3) (s : State) : Result :=
  .next (checked (operandCause (.fmaxp o) s) s (floatTwo (fun f => f.minmaxP true) o))

/-- FABS: sign cleared, NaNs too (R117). -/
def execFabs (o : V2) (s : State) : Result :=
  .next (checked (operandCause (.fabs o) s) s (floatPlain (fun f a _ => f.clearSign a) ⟨o.d, o.a, o.a, o.g, o.t⟩))

/-- FNEG: sign inverted, NaNs too (R117). -/
def execFneg (o : V2) (s : State) : Result :=
  .next (checked (operandCause (.fneg o) s) s (floatPlain (fun f a _ => f.flip a) ⟨o.d, o.a, o.a, o.g, o.t⟩))

/-- FCPS: the magnitude of a with the sign of b (R117). -/
def execFcps (o : V3) (s : State) : Result :=
  .next (checked (operandCause (.fcps o) s) s (floatPlain (fun f a b => f.copySign a b) o))

/-- FCMP: P[D][i] := a cond b; a reserved condition raises 11 (R118). -/
def execFcmp (o : V3) (q : Nat) (s : State) : Result :=
  .next (checked ((need (decide (q < 8)) 11).or <| operandCause (.fcmp o q) s) s fun s =>
    lanePred s (floatUnit o.t) o.g o.d fun i =>
      (ffOf o.t).cmp q (readN s (o.t == 3) o.a i) (readN s (o.t == 3) o.b i))

/-- FCLS: one class bit for each element, in bits 9:0 and 25:16 (R119). -/
def execFcls (o : V2) (s : State) : Result :=
  .next (checked (operandCause (.fcls o) s) s fun s =>
    laneSet s o.g false o.d fun i =>
      let x := readN s (o.t == 3) o.a i
      if o.t = 0 ∨ o.t = 3 then (ffOf o.t).cls x
      else (ffOf o.t).cls (x % 65536) + (ffOf o.t).cls (x / 65536) * 65536)

/-- FCVT: float to float, one element in a lane (R120). -/
def execFcvt (o : V2) (sf : Nat) (df : Nat) (rm : Nat) (sat : Bool) (s : State) : Result :=
  .next (checked (operandCause (.fcvt o sf df rm sat) s) s fun s =>
    laneOp s (ffUnit (ffCode df)) o.g (df == 3) o.d fun i =>
      (ffCode sf).convert (ffCode df) (roundMode s rm) sat (readN s (sf == 3) o.a i % 2 ^ (ffCode sf).width))

/-- An integer operand is 64 bits wide (R121). -/
def ityWide (ity : Nat) : Bool := ity == 2 || ity == 3

/-- FCVI: integer to float (R121). -/
def execFcvi (o : V2) (ity : Nat) (rm : Nat) (sat : Bool) (s : State) : Result :=
  .next (checked (operandCause (.fcvi o ity rm sat) s) s fun s =>
    let w := floatWidth o.t
    laneOp s (floatUnit o.t) o.g (o.t == 3) o.d fun i =>
      let x := readN s (ityWide ity) o.a i
      if o.t = 0 ∨ o.t = 3 then (ffOf o.t).ofInt (roundMode s rm) sat (ityVal ity x)
      else elemwise1 w (elemCount o.t w) (fun a => (ffOf o.t).ofInt (roundMode s rm) sat (ityVal ity a)) x)

/-- A converted integer as the destination holds it: 64 bits for I64 and U64, else extended to the element (R122). -/
def intResult (w : Nat) (r : Int × Nat) : Nat × Nat := ((r.1 % (2 : Int) ^ w).toNat, r.2)

/-- FCIV: float to integer; causes have unit 0 (R113, R122). -/
def execFciv (o : V2) (ity : Nat) (rm : Nat) (s : State) : Result :=
  .next (checked (operandCause (.fciv o ity rm) s) s fun s =>
    let w := floatWidth o.t
    laneOp s 0 o.g (ityWide ity) o.d fun i =>
      let x := readN s (o.t == 3) o.a i
      if o.t = 0 ∨ o.t = 3 then
        intResult (if ityWide ity then 64 else 32) ((ffOf o.t).toInt ity (roundMode s rm) x)
      else elemwise1 w (elemCount o.t w) (fun a => intResult 16 ((ffOf o.t).toInt ity (roundMode s rm) a)) x)

/-- FDOT2: packed 16-bit dot product into F32 (R123). -/
def execFdot2 (o : V3) (r : Nat) (rm : Nat) (s : State) : Result :=
  .next (checked (operandCause (.fdot2 o r rm) s) s fun s =>
    laneOp s 3 o.g false o.d fun i =>
      (ffOf o.t).dot2 (roundMode s rm) (readV s o.a i).toNat (readV s o.b i).toNat (readV s r i).toNat)

end Sys2Proof.Machine
end

