-- ==== Sys2Proof/Machine/CrossLane.lean ====
section
/-! DEFINITION. Shuffles, reductions, scans, ballots (R130 to R133). -/

namespace Sys2Proof.Machine

/-! ## Shuffles (R130) -/

/-- V[D][i] := V[A] at position pos k of lane i's section, for lane i at position k. -/
def shuffle (s : State) (g : Nat) (wide : Bool) (d a : Nat) (pos : Nat → Nat → Nat) : State :=
  laneSet s g wide d fun i => readN s wide a (i / s.block.w * s.block.w + pos i (i % s.block.w))

/-- SHFL: position V[B][i] mod W. -/
def execShfl (o : V3) (s : State) : Result :=
  .next (checked (operandCause (.shfl o) s) s fun s =>
    shuffle s o.g (o.t == 3) o.d o.a fun i _ => (readV s o.b i).toNat % s.block.w)

/-- SHFU: position k + n, or its own. -/
def execShfu (d a n : Nat) (s : State) : Result :=
  .next (checked (operandCause (.shfu d a n) s) s fun s =>
    shuffle s 15 false d a fun _ k => if s.block.w ≤ k + n then k else k + n)

/-- SHFD: position k − n, or its own. -/
def execShfd (d a n : Nat) (s : State) : Result :=
  .next (checked (operandCause (.shfd d a n) s) s fun s =>
    shuffle s 15 false d a fun _ k => if k < n then k else k - n)

/-- SHFX: position k XOR n. -/
def execShfx (d a n : Nat) (s : State) : Result :=
  .next (checked (operandCause (.shfx d a n) s) s fun s => shuffle s 15 false d a fun _ k => Nat.xor k n)

/-- VBCL: position n. -/
def execVbcl (d a n : Nat) (s : State) : Result :=
  .next (checked (operandCause (.vbcl d a n) s) s fun s => shuffle s 15 false d a fun _ _ => n)

/-! ## Sections -/

/-- The lanes of a mask in section j. -/
def sectionLanes (s : State) (m : Lanes) (j : Nat) : List Nat :=
  (lanesOf m s.block.lanes).filter fun i => i / s.block.w == j

/-- The elements e of a list of lanes of V[A]. -/
def laneElems (s : State) (wide : Bool) (w a e : Nat) (ls : List Nat) : List Nat :=
  ls.map fun i => elem w (readN s wide a i) e

/-! ## Reductions and scans (R131, R132, R56) -/

/-- A reduction: f over the contributors of each section, to every lane the mask has there. -/
def reduceLanes (s : State) (unit w : Nat) (o : V2) (f : List Nat → Nat × Nat) : State :=
  let wide := o.t == 3
  let out := ((List.range (sections s)).map fun j =>
    let con := sectionLanes s (guarded s o.g) j
    let r := buildElems w (fun e => f (laneElems s wide w o.a e con)) (elemCount o.t w)
    (sectionLanes s s.src.mask j).map fun i => (i, r.1, r.2)).flatten
  finish s unit out fun s => writeN s wide o.d (resultsOf out)

/-- An inclusive scan: f over the contributors up to each Active lane. -/
def scanLanes (s : State) (unit w : Nat) (o : V2) (f : List Nat → Nat × Nat) : State :=
  let wide := o.t == 3
  let out := ((List.range (sections s)).map fun j =>
    let con := sectionLanes s (guarded s o.g) j
    con.map fun i =>
      let r := buildElems w (fun e => f (laneElems s wide w o.a e (con.filter fun k => decide (k ≤ i)))) (elemCount o.t w)
      (i, r.1, r.2)).flatten
  finish s unit out fun s => writeN s wide o.d (resultsOf out)

/-- Identity and operation of an integer reduction (R56, R131). -/
def intRed (w q : Nat) (xs : List Nat) : Nat × Nat :=
  (match q with
   | 0 => xs.foldl (elemVadd w) 0
   | 1 => xs.foldl (elemVmin w) (2 ^ (w - 1) - 1)
   | 2 => xs.foldl (elemVmax w) (2 ^ (w - 1))
   | 3 => xs.foldl (elemVminu w) (2 ^ w - 1)
   | 4 => xs.foldl (elemVmaxu w) 0
   | 5 => xs.foldl (elemVand w) (2 ^ w - 1)
   | 6 => xs.foldl (elemVor w) 0
   | _ => xs.foldl (elemVxor w) 0, 0)

/-- A float reduction of contributors (R132). -/
def floatRed (f : FF) (rm q : Nat) (xs : List Nat) : Nat × Nat :=
  if q = 0 then
    if xs.isEmpty then (0, 0)
    else
      match f.nanOf xs with
      | some r => r
      | none => f.sumTerms rm xs
  else
    match xs.filter fun x => !f.isNaN x, xs with
    | y :: ys, _ => (ys.foldl (f.pick (q == 2)) y, f.sigFlag xs)
    | [], x :: _ => (f.quiet x, f.sigFlag xs)
    | [], [] => (f.inf (q == 2), 0)

def execVred (o : V2) (q : Nat) (s : State) : Result :=
  .next (checked (operandCause (.vred o q) s) s fun s => reduceLanes s 0 (intWidth o.t) o (intRed (intWidth o.t) q))

def execVscn (o : V2) (q : Nat) (s : State) : Result :=
  .next (checked (operandCause (.vscn o q) s) s fun s => scanLanes s 0 (intWidth o.t) o (intRed (intWidth o.t) q))

def execFred (o : V2) (q : Nat) (s : State) : Result :=
  .next (checked (operandCause (.fred o q) s) s fun s =>
    reduceLanes s (floatUnit o.t) (floatWidth o.t) o (floatRed (ffOf o.t) (roundMode s 7) q))

def execFscn (o : V2) (q : Nat) (s : State) : Result :=
  .next (checked (operandCause (.fscn o q) s) s fun s =>
    scanLanes s (floatUnit o.t) (floatWidth o.t) o (floatRed (ffOf o.t) (roundMode s 7) q))

/-! ## Ballot, match, compact (R133) -/

/-- A mask of positions: bit k for a lane of the section at position k that p holds of. -/
def positionMask (s : State) (ls : List Nat) (p : Nat → Bool) : Nat :=
  ls.foldl (fun x i => if p i then x + 2 ^ (i % s.block.w) else x) 0

/-- BALL: to every lane of the section's lane word. -/
def execBall (d a g : Nat) (s : State) : Result :=
  .next (checked (operandCause (.ball d a g) s) s fun s =>
    writeN s (s.block.w == 64) d ((activeAll s).map fun i =>
      (i, positionMask s (sectionLanes s (guarded s g &&& readP s a) (i / s.block.w)) fun _ => true)))

/-- VMTC: the Active positions whose value equals the lane's own. -/
def execVmtc (o : V2) (s : State) : Result :=
  .next (checked (operandCause (.vmtc o) s) s fun s =>
    laneSet s o.g (s.block.w == 64) o.d fun i =>
      positionMask s (sectionLanes s (guarded s o.g) (i / s.block.w)) fun k =>
        readN s (o.t == 3) o.a k == readN s (o.t == 3) o.a i)

/-- VCPT: the values of the Active lanes to the lowest lanes of the lane word. -/
def execVcpt (o : V2) (s : State) : Result :=
  .next (checked (operandCause (.vcpt o) s) s fun s =>
    writeN s (o.t == 3) o.d (((List.range (sections s)).map fun j =>
      ((sectionLanes s s.src.mask j).zip (sectionLanes s (guarded s o.g) j)).map fun p =>
        (p.1, readN s (o.t == 3) o.a p.2)).flatten))

end Sys2Proof.Machine
end

