-- ==== Sys2Proof/Machine/Quantise.lean ====
section
/-! DEFINITION. Q4 blocks (R40, R41, R53 to R55), the Hadamard quantiser, FP8 block conversion and the block-scaled dot
(R134 to R138). -/

namespace Sys2Proof.Machine

/-! ## Q4 codes (R40) -/

/-- Magnitudes of codes 1 to 7 by type, in eighths. -/
def q4Mags (t : Nat) : List Nat :=
  match t with
  | 0 => [8, 16, 24, 32, 40, 48, 56]
  | 1 => [4, 8, 12, 16, 24, 32, 48]
  | 2 => [1, 2, 4, 8, 16, 32, 64]
  | _ => [8, 16, 24, 32, 48, 64, 96]

/-- The value of a code, in eighths; none for a reserved code. -/
def q4Val (t c : Nat) : Option Int :=
  let m (k : Nat) : Int := if k = 0 then 0 else ((q4Mags t).getD (k - 1) 0 : Nat)
  if c < 8 then some (m c)
  else if t = 0 then some ((c : Int) * 8 - 128)
  else if c = 8 then (if t = 1 then some 0 else none)
  else some (-(m (c - 8)))

/-- An element of a Q4 block as the consumer reads it: value by code_value × 2^(E − 32) with the exponent left out; none for a
reserved code (R41). −0 keeps its sign. -/
def q4El (t c : Nat) : Option El := (q4Val t c).map fun v => .fin (decide (8 ≤ c)) ⟨v, -3⟩

/-! ## Quantising (R53) -/

/-- M of step 1. -/
def q4Range (t : Nat) : Nat := match t with | 0 => 7 | 1 => 6 | 2 => 8 | _ => 12

/-- The largest magnitude of a list. -/
def maxAbs (ys : List Dy) : Dy := ys.foldl (fun a y => if a.lt y.abs then y.abs else a) Dy.zero

/-- The first n ≥ lo, within fuel, with a ≤ m × 2^n. -/
def ceilLog (a : Dy) (m : Nat) (lo : Int) : Nat → Int
  | 0 => lo
  | k + 1 => if Dy.lt ⟨(m : Int), lo⟩ a then ceilLog a m (lo + 1) k else lo

/-- E before its clamp: 32 + ceil(log2(A ÷ M)). -/
def q4Exp (t : Nat) (a : Dy) : Int := 32 + ceilLog a (q4Range t) (a.e + (Nat.log2 a.m.natAbs : Nat) - 5) 8

/-- E as stored. -/
def q4E (t : Nat) (a : Dy) : Nat := if a.isZero then 1 else (max 1 (min 63 (q4Exp t a))).toNat

/-- The codes that may be produced. -/
def q4Codes (t : Nat) : List Nat := if t = 0 then List.range 16 else (List.range 16).filter fun c => c != 8

/-- Distance of q from a code. -/
def q4Dist (t : Nat) (q : Dy) (c : Nat) : Dy := (q.sub ⟨(q4Val t c).getD 0, -3⟩).abs

/-- The code nearest to q; a tie goes to the even code, a negative value that rounds to zero to −0 where there is one. -/
def q4Round (t : Nat) (q : Dy) : Nat :=
  let best := (q4Codes t).foldl (fun b c =>
    if (q4Dist t q c).lt (q4Dist t q b) then c
    else if (q4Dist t q b).lt (q4Dist t q c) then b
    else if c % 2 = 0 ∧ b % 2 = 1 then c else b) 0
  if best = 0 ∧ t = 1 ∧ q.m < 0 then 8 else best

/-- q lies beyond the largest or the smallest code value. -/
def q4Beyond (t : Nat) (q : Dy) : Bool :=
  Dy.lt ⟨((q4Mags t).getD 6 0 : Nat), -3⟩ q || Dy.lt q ⟨if t = 0 then -64 else -((q4Mags t).getD 6 0 : Nat), -3⟩

/-- R53: codes, E and flags of 32 exact values. -/
def quantise (t : Nat) (ys : List Dy) : List Nat × Nat × Nat :=
  let a := maxAbs ys
  let e := q4E t a
  let qs := ys.map fun y => y.scale (32 - (e : Int))
  let codes := qs.map (q4Round t)
  let nx := qs.any fun q => !(q4Dist t q (q4Round t q)).isZero
  let ov := !a.isZero && decide (63 < q4Exp t a) && qs.any (q4Beyond t)
  (codes, e, orNat (if ov then flagOF else 0) (if nx then flagNX else 0))

/-- The sum of squared errors of a type, exactly. -/
def q4Error (t : Nat) (ys : List Dy) : Dy :=
  let (cs, e, _) := quantise t ys
  Dy.sum ((ys.zip cs).map fun p =>
    let d := p.1.sub (Dy.scale ⟨(q4Val t p.2).getD 0, -3⟩ ((e : Int) - 32))
    d.mul d)

/-- The type of least error; a tie goes to the lower (R135). -/
def q4Auto (ys : List Dy) : Nat :=
  [1, 2, 3].foldl (fun b t => if (q4Error t ys).lt (q4Error b ys) then t else b) 0

/-! ## Keyed Hadamard transform (R54, R55) -/

/-- The MurmurHash3 finaliser. -/
def fmix32 (h : Word) : Word :=
  let h := h ^^^ (h >>> 16)
  let h := h * 0x85EBCA6B
  let h := h ^^^ (h >>> 13)
  let h := h * 0xC2B2AE35
  h ^^^ (h >>> 16)

/-- g(b, i): the keyed sign of element i of block b. -/
def keyedSign (lo hi b i : Word) : Bool := (fmix32 (lo ^^^ (b * 0x9E3779B9) ^^^ (i * 0x85EBCA6B) ^^^ hi)).getLsbD 31

/-- The sign of H_32[j][k]. -/
def hadamardNeg (j k : Nat) : Bool := popCount (Nat.land j k) 5 % 2 == 1

/-- Σ over k of H_32[j][k] × x[k]. -/
def hadamardRow (j : Nat) (xs : List Dy) : Dy :=
  Dy.sum ((xs.zip (List.range 32)).map fun p => if hadamardNeg j p.2 then p.1.neg else p.1)

/-- y[j] of the forward transform. -/
def hadamard (lo hi b : Word) (xs : List Dy) : List Dy :=
  let ss := (xs.zip (List.range 32)).map fun p => if keyedSign lo hi b (BitVec.ofNat 32 p.2) then p.1.neg else p.1
  (List.range 32).map fun j => (hadamardRow j ss).scale (-3)

/-- x[k] of the inverse transform. -/
def hadamardInv (lo hi b : Word) (ys : List Dy) : List Dy :=
  (List.range 32).map fun k =>
    let x := (hadamardRow k ys).scale (-2)
    if keyedSign lo hi b (BitVec.ofNat 32 k) then x.neg else x

/-! ## VHQ (R134, R135) -/

/-- Codes, type, E and flags of a block of F32 values, under XF. -/
def vhqBlock (xf : Nat) (seed : DWord) (b : Word) (xs : List Nat) : List Nat × Nat × Nat × Nat :=
  if xs.any fun x => ffF32.isNaN x || ffF32.isInf x then (List.replicate 32 0, (if xf = 4 then 0 else xf), 63, flagNV)
  else
    let ys := hadamard (seed.truncate 32) ((seed >>> 32).truncate 32) b (xs.map ffF32.val)
    let t := if xf = 4 then q4Auto ys else xf
    let r := quantise t ys
    (r.1, t, r.2.1, r.2.2)

/-- Word j of a block's result. -/
def q4Word (codes : List Nat) (t e j : Nat) : Nat :=
  if j < 4 then (List.range 8).foldl (fun x m => x + codes.getD (8 * j + m) 0 * 16 ^ m) 0
  else if j = 4 then t * 64 + e else 0

def execVhq (o : V3) (r : Nat) (q : Nat) (s : State) : Result :=
  .next (checked (operandCause (.vhq o r q) s) s fun s =>
    let act := guarded s o.g
    let out := ((List.range (s.block.lanes / 32)).map fun m =>
      let ls := (List.range 32).map fun k => 32 * m + k
      if ls.any fun i => s.src.mask.getLsbD i then
        let x := vhqBlock q (readS s r) (readV s o.b (32 * m)) (ls.map fun i => if act.getLsbD i then (readV s o.a i).toNat else 0)
        -- flags of a block with no Active lane count on its first lane in the mask
        ls.filterMap fun i => if s.src.mask.getLsbD i then some (i, q4Word x.1 x.2.1 x.2.2.1 (i - 32 * m), x.2.2.2) else none
      else []).flatten
    finish s 7 out fun s => writeV s o.d ((out.filter fun x => act.getLsbD x.1).map fun x => (x.1, BitVec.ofNat 32 x.2.1)))

/-! ## FP8 block conversion (R136) -/

/-- The FP8 format XF names. -/
def ffXf (q : Nat) : FF := if q = 0 then ffE4M3 else ffE5M2

/-- VQ8 of one lane: x an F32 code, e the scale byte. -/
def quant8 (g : FF) (rm : Nat) (sat : Bool) (x e : Nat) : Nat × Nat :=
  match e8m0 e with
  | none => (if g.infs then 0x7E else 0x7F, 0)
  | some k =>
    if ffF32.isNaN x then (ffF32.nanTo g x, ffF32.sigFlag [x])
    else if ffF32.isInf x then g.infTo sat (ffF32.neg x)
    else g.round rm sat (ffF32.neg x) ((ffF32.val x).scale (-k))

/-- VDQ of one lane. -/
def dequant8 (g : FF) (x e : Nat) : Nat × Nat :=
  match e8m0 e with
  | none => (ffF32.defNaN, 0)
  | some k =>
    if g.isNaN x then (g.nanTo ffF32 x, 0)
    else if g.isInf x then (ffF32.inf (g.neg x), 0)
    else ffF32.round 0 false (g.neg x) ((g.val x).scale k)

def execVq8 (o : V2) (r q rm : Nat) (sat : Bool) (s : State) : Result :=
  .next (checked (operandCause (.vq8 o r q rm sat) s) s fun s =>
    laneOp s (ffUnit (ffXf q)) o.g false o.d fun i =>
      quant8 (ffXf q) (roundMode s rm) sat (readV s o.a i).toNat ((readV s r i).toNat % 256))

def execVdq (o : V2) (r q : Nat) (s : State) : Result :=
  .next (checked (operandCause (.vdq o r q) s) s fun s =>
    laneOp s 3 o.g false o.d fun i => dequant8 (ffXf q) ((readV s o.a i).toNat % 256) ((readV s r i).toNat % 256))

/-! ## Block-scaled dot (R137, R138) -/

/-- Byte k of a word. -/
def byteOf (x k : Nat) : Nat := x / 256 ^ k % 256

/-- The exact sum of a group: elements of the Active lanes, scales ea and eb; a scale of 0xFF makes every element a NaN. -/
def vbsdSum (f : FF) (ea eb : Nat) (ps : List (Nat × Nat)) : El × Bool :=
  match e8m0 ea, e8m0 eb with
  | some ka, some kb => dotBlock (ka + kb) (ps.map fun p => (f.el p.1, f.el p.2))
  | _, _ => (.nan, false)

def execVbsd (o : V3) (r q rm : Nat) (s : State) : Result :=
  .next (checked (operandCause (.vbsd o r q rm) s) s fun s =>
    let act := guarded s o.g
    let f := if o.t = 0 then ffE4M3 else ffE5M2
    let out := ((List.range (s.block.lanes / 8)).map fun gr =>
      let ls := (List.range 8).filterMap fun m => if act.getLsbD (8 * gr + m) then some (8 * gr + m) else none
      let w := s.block.w
      let sl := gr / (w / 8) * w + (q % 64 + gr % (w / 8))
      let S := vbsdSum f (byteOf (readV s (o.a + 1) sl).toNat (q / 64 % 4)) (byteOf (readV s (o.b + 1) sl).toNat (q / 64 % 4))
        ((ls.map fun i => (List.range 4).map fun k => (byteOf (readV s o.a i).toNat k, byteOf (readV s o.b i).toNat k)).flatten)
      ls.map fun i =>
        let c := (readV s r i).toNat
        let inv := if S.2 then flagNV else 0
        if ffF32.isNaN c then (i, ffF32.quiet c, orNat inv (ffF32.sigFlag [c]))
        else
          let x := ffF32.accumulate (roundMode s rm) c S.1
          (i, x.1, orNat inv x.2)).flatten
    finish s 3 out fun s => writeV s o.d (out.map fun x => (x.1, BitVec.ofNat 32 x.2.1)))

end Sys2Proof.Machine
end

