-- ==== Sys2Proof/Machine/Home.lean ====
section
/-! DEFINITION. Home slices: the hash that chooses them, their lines over the encrypted HBM, atomics on a location,
reduce-adds held pending, and the accesses of engines that go straight to a slice (R317, R361, R366 to R376). -/

namespace Sys2Proof.Machine

/-! ## Partition entries (R379) -/

def State.part (s : State) (p : Nat) : Nat := (wget s.parts p).toNat
def partV (e : Nat) : Bool := e % 2 == 1
def partBase (e : Nat) : Nat := fld e 2 3
def partSize (e : Nat) : Nat := 2 ^ fld e 5 2
def partKslot (e : Nat) : Nat := fld e 8 4
def partGsbase (e : Nat) : Nat := fld e 12 4
def partGscnt (e : Nat) : Nat := fld e 16 5
def partReghome (e : Nat) : Nat := fld e 24 8
def partWsbase (e : Nat) : Nat := fld e 32 12
def partWscnt (e : Nat) : Nat := fld e 48 13
def partPorts (e : Nat) : Nat := fld e 64 24
def partMqpn (e : Nat) : Nat := fld e 104 24
def partOwner (e : Nat) : Nat := fld e 128 64
def partFcfg (e : Nat) : Nat := fld e 192 64
def partMgid (e : Nat) : Nat := fld e 256 128

/-- A stack group or HBM stack belongs to the partition (R377). -/
def partHas (e g : Nat) : Bool := decide (partBase e ≤ g) && decide (g < partBase e + partSize e)

/-! ## Keys and HBM (R375, R380) -/

/-- The number of the key in a slot, 0 when it holds none. -/
def keyOf (s : State) (slot : Nat) : Nat :=
  match tget s.keys slot with
  | some k => if k.v then k.key else 0
  | none => 0

/-- The slot holds a key. -/
def keyHeld (s : State) (slot : Nat) : Bool := keyOf s slot != 0

/-- A byte of HBM read under the key of owner slot own: unspecified when its sector was written under another. -/
def hbmByte (s : State) (own pa : Nat) : Byte :=
  if (tget s.memKey (pa / 32)).getD 0 = keyOf s own then mget s.mem pa
  else (Config.freeWord s.fresh (2 ^ 40 + pa)).truncate 8

/-- One 32-byte sector written to HBM under the key of slot own. -/
def hbmSector (s : State) (own sec : Nat) (bs : List Byte) (pois : Bool) : State :=
  { s with
    mem := mwrite s.mem (sec * 32) bs
    memKey := if keyOf s own = 0 then tdel s.memKey sec else tset s.memKey sec (keyOf s own)
    memPois := if pois then insertNat sec s.memPois else s.memPois.filter fun k => k != sec }

/-! ## Lines -/

def lineBytes (d : LineData) : List Byte := (List.range 128).map fun i => (d >>> (8 * i)).truncate 8
def bytesLine (bs : List Byte) : LineData := BitVec.ofNat 1024 (leNat (bs.take 128))
def lineByte (d : LineData) (i : Nat) : Byte := (d >>> (8 * i)).truncate 8

/-- A line with byte i replaced. -/
def lineSet (d : LineData) (i : Nat) (b : Byte) : LineData :=
  (d &&& ~~~(BitVec.ofNat 1024 (255 * 256 ^ i))) ||| (b.zeroExtend 1024 <<< (8 * i))

/-- The home slice of a location (R320, R368), chip-hashed within the partition's slices (R378). -/
def homeSlice (s : State) (l : Loc) : Nat :=
  let h := (s.ctx l.part l.ctx).hseed
  let m := (fmix32 (BitVec.ofNat 32 (l.addr / 128) ^^^ BitVec.ofNat 32 h ^^^ BitVec.ofNat 32 (h / 2 ^ 32))).toNat
  let e := s.part l.part
  if l.home = 0 then 24 * partBase e + m * 24 * partSize e / 2 ^ 32
  else if l.home = 1 then 8 * l.homeid + m / 2 ^ 29
  else 24 * l.homeid + m * 24 / 2 ^ 32

/-- The first key of a line's set: bits 15:7 of the physical address choose it (log 8). -/
def setBase (slice line : Nat) : Nat := slice * 8192 + line % 512 * 16

/-- Where a slice holds a line. -/
def findWay (s : State) (slice line : Nat) : Option Nat :=
  (List.range 16).findSome? fun w =>
    match tget s.l2 (setBase slice line + w) with
    | some l => if l.line = line then some (setBase slice line + w) else none
    | none => none

/-- Ways of a set that are pinned, locked or hold pending reduce-adds (R367). -/
def heldWays (s : State) (slice line : Nat) : Nat :=
  ((List.range 16).filter fun w =>
    match tget s.l2 (setBase slice line + w) with
    | some l => l.pin || l.lock || l.rdp
    | none => false).length

/-- The dirty sectors of a line go to HBM under its owner's key. -/
def writeBackLine (s : State) (l : Line) : State :=
  (List.range 4).foldl (fun s j =>
    if l.dirty.getLsbD j then
      hbmSector s l.own (l.line * 4 + j) (((lineBytes l.data).drop (32 * j)).take 32) (l.pois.getLsbD j)
    else s) s

/-- The line as HBM holds it, for owner own. -/
def fillLine (s : State) (line own ctxp : Nat) : Line where
  line := line
  ctxp := ctxp
  own := own
  pois := BitVec.ofNat 4 ((List.range 4).foldl (fun x j => if inList (line * 4 + j) s.memPois then x + 2 ^ j else x) 0)
  dirty := 0
  valid := 15
  rdp := false
  lock := false
  pin := false
  data := bytesLine ((List.range 128).map fun i => hbmByte s own (line * 128 + i))

/-- The way a fill takes: an empty one, else any that is not held (the choice is the slice's own). -/
def victimWay (s : State) (slice line : Nat) : Nat :=
  let ks := (List.range 16).map fun w => setBase slice line + w
  match ks.find? fun k => (tget s.l2 k).isNone with
  | some k => k
  | none =>
    let free := ks.filter fun k =>
      match tget s.l2 k with
      | some l => !(l.pin || l.lock || l.rdp)
      | none => false
    free.getD (Config.freeChoice s.fresh (16 + line) % free.length) (setBase slice line)

def lineAt (s : State) (k : Nat) : Line := (tget s.l2 k).getD ⟨0, 0, 0, 0, 0, 0, false, false, false, 0⟩
def modLine (s : State) (k : Nat) (f : Line → Line) : State := { s with l2 := tset s.l2 k (f (lineAt s k)) }

/-- Bytes written into a resident line; a poisoned sector is clean again only when they cover it (R143). -/
def Line.put (l : Line) (bs : List (Nat × Byte)) : Line :=
  let cov := (List.range 4).foldl (fun x j =>
    if (List.range 32).all fun i => bs.any fun b => b.1 == 32 * j + i then x + 2 ^ j else x) 0
  let dir := (List.range 4).foldl (fun x j => if bs.any fun b => b.1 / 32 == j then x + 2 ^ j else x) 0
  { l with
    data := bs.foldl (fun d b => lineSet d b.1 b.2) l.data
    dirty := l.dirty ||| BitVec.ofNat 4 dir
    pois := l.pois &&& ~~~(BitVec.ofNat 4 cov) }

/-- Bytes o to o + n − 1 of a line as a number. -/
def Line.get (l : Line) (o n : Nat) : Nat := l.data.toNat / 256 ^ o % 256 ^ n

/-- Some sector of [o, o + n) carries poison. -/
def Line.bad (l : Line) (o n : Nat) : Bool := (List.range 4).any fun j => l.pois.getLsbD j && overlaps (32 * j) 32 o n

/-! ## One atomic update (R160, R161) -/

/-- The number format of a KIND. -/
def kindFmt (kind : Nat) : FF := if kind = 0 then ffF32 else if kind = 1 then ffF64 else if kind = 2 then ffBF16 else ffF16

/-- Bytes an atomic of a KIND accesses. -/
def kindSize (kind : Nat) : Nat := if kind = 1 then 8 else 4

/-- The new value of one element of w bits. -/
def atomElem (f : FF) (op w old c e : Nat) : Nat :=
  match op with
  | 0 => elemVadd w old c
  | 1 => elemVsub w old c
  | 2 => elemVmin w old c
  | 3 => elemVmax w old c
  | 4 => elemVminu w old c
  | 5 => elemVmaxu w old c
  | 6 => elemVand w old c
  | 7 => elemVor w old c
  | 8 => elemVxor w old c
  | 9 => c
  | 10 => if old = e then c else old
  | 11 => if old < c then elemVadd w old 1 else old
  | 12 => if c < old then elemVsub w old 1 else old
  | 13 => (f.add 0 old c).1
  | 14 => (f.minmax false old c).1
  | _ => (f.minmax true old c).1

/-- The new value of a location; packed kinds update half 1 (low), half 2 (high) or, for 0, both (R161). -/
def atomNew (op kind half old c e : Nat) : Nat :=
  let f := kindFmt kind
  if kind < 2 then atomElem f op (8 * kindSize kind) old c e
  else
    let lo := if half = 2 then old % 65536 else atomElem f op 16 (old % 65536) (c % 65536) (e % 65536)
    let hi := if half = 1 then old / 65536 else atomElem f op 16 (old / 65536) (c / 65536) (e / 65536)
    lo + hi * 65536

/-- One lane applied to a resident line: a poisoned location is left as it is (R164). The lane keeps the old value. -/
def Line.atom (l : Line) (op kind half : Nat) (a : LaneAtom) : Line × LaneAtom :=
  let n := kindSize kind
  let o := a.loc.addr % 128
  if l.bad o n then (l, { a with pois := true })
  else
    let old := l.get o n
    let new := atomNew op kind half old a.src a.exp
    (l.put (((List.range n).map (o + ·)).zip (natLe n new)), { a with old := old })

/-- Lanes applied in ascending order (R162). -/
def Line.atoms (l : Line) (op kind half : Nat) : List LaneAtom → Line × List LaneAtom
  | [] => (l, [])
  | a :: as =>
    let (l, a') := l.atom op kind half a
    let (l, as') := Line.atoms l op kind half as
    (l, a' :: as')

/-! ## Reduce-adds held pending (R361) -/

def redAt (s : State) (slice : Nat) : List RedPend := (tget s.redbuf slice).getD []

/-- Sorted insertion by source identifier, then issue order. -/
def redInsert (x : RedPend) : List RedPend → List RedPend
  | [] => [x]
  | y :: ys => if x.src < y.src ∨ (x.src = y.src ∧ x.stamp < y.stamp) then x :: y :: ys else y :: redInsert x ys

/-- The lanes of a pending request that touch bytes [a, a + n) of physical memory. -/
def RedPend.touch (r : RedPend) (a n : Nat) (yes : Bool) : RedPend :=
  { r with lanes := r.lanes.filter fun l => overlaps l.loc.addr (kindSize r.kind) a n == yes }

/-- An element of a DCOL: the new value and the flags raised (R227); the operation as an atomic names it, 0 the addition of I32, 13 of
floats, 14 MIN, 15 MAX. -/
def elemUpdate (kind op old c : Nat) : Nat × Nat :=
  let f := kindFmt kind
  if op = 0 then
    let x := sgn 32 old + sgn 32 c
    ((x % (2 : Int) ^ 32).toNat, if x < -(2 : Int) ^ 31 ∨ (2 : Int) ^ 31 ≤ x then flagIOF else 0)
  else if op = 13 then f.add 0 old c
  else f.minmax (op == 15) old c

/-- The element of a half of a word: 0 the whole of kind's size, 1 the low half, 2 the high half. -/
def halfOf (kind half x : Nat) : Nat :=
  if half = 2 then x / 65536 else if half = 1 then x % 65536 else x % 2 ^ (8 * kindSize kind)

/-- The flags an update raises are the job's while it is in flight (R227). -/
def hearFlags (s : State) (r : RedPend) (a : LaneAtom) : State :=
  match tget s.jobs r.job with
  | none => s
  | some j =>
    { s with jobs := tset s.jobs r.job { j with
        flags := orNat j.flags (elemUpdate r.kind r.op (halfOf r.kind r.half a.old) (halfOf r.kind r.half a.src)).2 } }

/-- Pending requests applied to their resident line; a poisoned location drops its update, which is logged (R164). -/
def applyRed (s : State) (slice line : Nat) (r : RedPend) : State :=
  match findWay s slice line with
  | none => s
  | some k =>
    let (l, as) := (lineAt s k).atoms r.op r.kind r.half r.lanes
    let s := { s with l2 := tset s.l2 k l }
    let s := if r.job = 0 then s else as.foldl (fun s a => if a.pois then s else hearFlags s r a) s
    as.foldl (fun s a => if a.pois then logRas s r.loc.part 68 slice a.loc.addr r.loc.ctx else s) s

/-- Every pending request on bytes [a, a + n) of the line is applied, in sorted order. -/
def settleRed (s : State) (slice line a n : Nat) : State :=
  let rs := redAt s slice
  if rs.isEmpty then s
  else
    let now := (rs.map fun r => r.touch a n true).filter fun r => !r.lanes.isEmpty
    let keep := (rs.map fun r => r.touch a n false).filter fun r => !r.lanes.isEmpty
    let s := (now.foldl (fun l r => redInsert r l) []).foldl (fun s r => applyRed s slice line r) s
    let s := { s with redbuf := if keep.isEmpty then tdel s.redbuf slice else tset s.redbuf slice keep }
    match findWay s slice line with
    | some k => modLine s k fun l => { l with rdp := keep.any fun r => r.loc.addr / 128 == line }
    | none => s

/-- A reduce-add becomes pending. A full buffer, or a set with no way to spare, first applies the location of the oldest pending
request and sets the overflow bit. -/
def holdRed (s : State) (slice : Nat) (r : RedPend) : State :=
  let rs := redAt s slice
  let line := r.loc.addr / 128
  let s :=
    if rs.length < 1024 ∧ (heldWays s slice line < 12 ∨ rs.any fun x => x.loc.addr / 128 == line) then s
    else
      match rs.find? fun x => decide (1024 ≤ rs.length) || x.loc.addr / 128 % 512 == line % 512 with
      | some x =>
        match x.lanes with
        | a :: _ =>
          { settleRed s slice (x.loc.addr / 128) a.loc.addr (kindSize x.kind) with redOvf := addOnce slice s.redOvf }
        | [] => s
      | none => s
  let s := { s with redbuf := tset s.redbuf slice (redAt s slice ++ [r]) }
  match findWay s slice line with
  | some k => modLine s k fun l => { l with rdp := true }
  | none => s

/-- The line made resident for owner own, and its key: another owner's copy takes what is pending on it, is written back, or
dropped when its slot holds no key, and fetched anew (R361, R366, R376). -/
def homeLine (s : State) (slice line own ctxp : Nat) : State × Nat :=
  match findWay s slice line with
  | some k =>
    match tget s.l2 k with
    | some l =>
      if l.own = own then (s, k)
      else
        let s := settleRed s slice line (line * 128) 128
        let s := if keyHeld s l.own then writeBackLine s (lineAt s k) else s
        ({ s with l2 := tset s.l2 k { fillLine s line own ctxp with lock := l.lock } }, k)
    | none => (s, k)
  | none =>
    let k := victimWay s slice line
    let s := match tget s.l2 k with
      | some l => writeBackLine s l
      | none => s
    ({ s with l2 := tset s.l2 k (fillLine s line own ctxp) }, k)

/-! ## Accesses of engines at the home slice -/

/-- CTXP of a location (R366). -/
def ctxpOf (l : Loc) : Nat := l.part * 64 + l.ctx

/-- The line of a location made resident, with nothing pending on bytes [a, a + n). -/
def homeFor (s : State) (l : Loc) (own n : Nat) : State × Nat :=
  let slice := homeSlice s l
  let r := homeLine s slice (l.addr / 128) own (ctxpOf l)
  (settleRed r.1 slice (l.addr / 128) l.addr n, r.2)

/-- The pieces of [a, a + n) that lie in one line each. -/
def linePieces (a : Nat) : Nat → Nat → List (Nat × Nat)
  | 0, _ => []
  | fuel + 1, n =>
    if n = 0 then []
    else
      let k := min n (128 - a % 128)
      (a, k) :: linePieces (a + k) fuel (n - k)

/-- A read of n bytes at their home slices: the bytes and whether any was poisoned. -/
def homeRead (s : State) (l : Loc) (own n : Nat) : State × List Byte × Bool :=
  (linePieces l.addr (n / 128 + 2) n).foldl (fun r p =>
    let (s, k) := homeFor r.1 { l with addr := p.1 } own p.2
    let ln := lineAt s k
    (s, r.2.1 ++ ((lineBytes ln.data).drop (p.1 % 128)).take p.2, r.2.2 || ln.bad (p.1 % 128) p.2)) (s, [], false)

/-- The same with, for each byte, whether its sector was poisoned. -/
def homeMarked (s : State) (l : Loc) (own n : Nat) : State × List Byte × List Bool :=
  (linePieces l.addr (n / 128 + 2) n).foldl (fun r p =>
    let (s, k) := homeFor r.1 { l with addr := p.1 } own p.2
    let ln := lineAt s k
    (s, r.2.1 ++ ((lineBytes ln.data).drop (p.1 % 128)).take p.2,
      r.2.2 ++ (List.range p.2).map fun i => ln.bad (p.1 % 128 + i) 1)) (s, [], [])

/-- A write of bytes at their home slices. -/
def homeWrite (s : State) (l : Loc) (own : Nat) (bs : List Byte) : State :=
  ((linePieces l.addr (bs.length / 128 + 2) bs.length).foldl (fun (r : State × List Byte) p =>
    let (s, k) := homeFor r.1 { l with addr := p.1 } own p.2
    (modLine s k fun ln => ln.put (((List.range p.2).map (p.1 % 128 + ·)).zip r.2), r.2.drop p.2)) (s, bs)).1

/-- A read that gives its bytes as a number. -/
def homeNat (s : State) (l : Loc) (own n : Nat) : State × Nat × Bool :=
  let r := homeRead s l own n
  (r.1, leNat r.2.1, r.2.2)

/-- Bytes poisoned at their home: whole sectors. -/
def homePoison (s : State) (l : Loc) (own n : Nat) : State :=
  (linePieces l.addr (n / 128 + 2) n).foldl (fun s p =>
    let (s, k) := homeFor s { l with addr := p.1 } own p.2
    modLine s k fun ln => { ln with
      pois := ln.pois ||| BitVec.ofNat 4 ((List.range 4).foldl (fun x j =>
        if overlaps (32 * j) 32 (p.1 % 128) p.2 then x + 2 ^ j else x) 0)
      dirty := ln.dirty ||| BitVec.ofNat 4 ((List.range 4).foldl (fun x j =>
        if overlaps (32 * j) 32 (p.1 % 128) p.2 then x + 2 ^ j else x) 0) }) s

/-- A chip-hashed location of a context (R317). -/
def chipLoc (part ctx addr : Nat) : Loc := ⟨0, 0, addr, 0, 0, part, ctx⟩

/-- The locations of one byte range that a line lock covers are locked (R154). -/
def lineLocked (s : State) (l : Loc) : Bool :=
  match findWay s (homeSlice s l) (l.addr / 128) with
  | some k => (lineAt s k).lock
  | none => false

end Sys2Proof.Machine
end

