-- ==== Sys2Proof/Machine/Translate.lean ====
section
/-! DEFINITION. Address translation: page-table entries, TLBs, walks, and the checks of an access (R141, R316 to R326). -/

namespace Sys2Proof.Machine

/-! ## Requesters -/

/-- The number a team, a coachman or a dray job waits for walks under. -/
def requester (u : UnitId) : Nat := if u.coach then 2 ^ 20 + blockKey u else teamKey u
def jobRequester (j : Nat) : Nat := 2 ^ 21 + j

/-- The package's own identity as its links carry it (R89, R386). -/
def pkgNow (s : State) : Nat := s.identNow.getD 0 % 2 ^ 17

/-! ## Entries (R318, R319) -/

/-- NORMAL 0, PEER 1, HOST 2. -/
def leafKind (e : Nat) : Nat := fld e 1 2 - 1
def leafR (e : Nat) : Bool := fld e 3 1 == 1
def leafW (e : Nat) : Bool := fld e 4 1 == 1
def leafQ (e : Nat) : Bool := fld e 5 1 == 1
def leafHome (e : Nat) : Nat := fld e 6 2
def leafHomeid (e : Nat) : Nat := fld e 8 5
def leafPkg (e : Nat) : Nat := fld e 40 17

/-- Offset bits of a leaf page of level n. -/
def pageBits (n : Nat) : Nat := if n = 1 then 30 else if n = 2 then 21 else 16

/-- Index of va at level n. -/
def walkIndex (va n : Nat) : Nat :=
  if n = 0 then fld va 39 18 else if n = 1 then fld va 30 9 else if n = 2 then fld va 21 9 else fld va 16 5

/-- A valid table pointer at level n is malformed. -/
def badPointer (e n : Nat) : Bool :=
  n == 3 || fld e 39 25 != 0 || fld e 3 5 != 0 || (n != 2 && fld e 8 4 != 0)

/-- A valid leaf at level n is malformed (R319, R378): a HOMEID is in range when it names a cluster or stack group that R318 names, whichever
partition has it (DEDUCED, log 70); pe is the partition's entry, own the package's identity. -/
def badLeaf (pe own e n : Nat) : Bool :=
  n == 0 || fld e 13 3 != 0 || fld e 16 (pageBits n - 16) != 0 || leafHome e == 3 ||
  (leafHome e == 0 && leafHomeid e != 0) ||
  (leafHome e == 1 && !decide (leafHomeid e < 24)) || (leafHome e == 2 && !decide (leafHomeid e < 8)) ||
  (if leafKind e = 0 then fld e 39 25 != 0 || !partHas pe (fld e 36 3)
   else leafHome e != 0 || leafHomeid e != 0 || leafQ e ||
    (if leafKind e = 1 then fld e 57 7 != 0 || fld e 39 1 != 0 || leafPkg e == own else fld e 48 16 != 0))

/-- What a walk finds: a leaf with its page bits, or nothing. -/
abbrev Found := Option (Nat × Nat)

/-- Address bits that one table of level n, 1 to 3, stands for. -/
def tableBits (n : Nat) : Nat := if n = 1 then 39 else if n = 2 then 30 else 21

/-- A cluster's walk cache of 64 pointers takes one more; which leaves when it is full is free (R324). -/
def keepPointer (s : State) (w : WalkPtr) : State :=
  if s.wcache.any (· == w) then s
  else
    let mine := s.wcache.filter fun x => x.cluster == w.cluster
    let out := mine[Config.freeChoice s.fresh (3 * 2 ^ 20 + w.level) % 64]?
    { s with wcache := (if mine.length < 64 then s.wcache else s.wcache.filter fun x => some x != out) ++ [w] }

/-- A walk from the table of level n (R316, R317): entries are read at the homes chip hashing gives them. A malformed entry is
logged as 347, poison in an entry's line as 353. A walker of the cluster `inst` holds the pointers it finds when `hold` says so (R324). -/
def walkFrom (s : State) (part ctx inst va : Nat) (hold : Bool) : Nat → Nat → Nat → State × Found
  | 0, _, _ => (s, none)
  | fuel + 1, n, table =>
    let a := table + 8 * walkIndex va n
    let r := homeNat s (chipLoc part ctx (a / 128 * 128)) (s.owner part) 128
    let e := r.2.1 / 2 ^ (8 * (a % 128)) % 2 ^ 64
    if r.2.2 then (logRas r.1 part 353 inst a ctx, none)
    else if e % 2 = 0 then (r.1, none)
    else if fld e 1 2 = 0 then
      if badPointer e n then (logRas r.1 part 347 inst a ctx, none)
      else
        let t := fld e 8 31 * 256
        walkFrom (if hold then keepPointer r.1 ⟨inst, part, ctx, n + 1, va / 2 ^ tableBits (n + 1), t⟩ else r.1) part ctx inst va hold fuel (n + 1) t
    else if badLeaf (s.part part) (pkgNow s) e n then (logRas r.1 part 347 inst a ctx, none)
    else (r.1, some (e, pageBits n))

/-- A whole walk of a context. -/
def walk (s : State) (part ctx inst va : Nat) : State × Found :=
  walkFrom s part ctx inst va false 4 0 (s.ctx part ctx).ptbase

/-- The deepest pointer a cluster holds on the path to va (R324). -/
def heldPointer (s : State) (cluster part ctx va : Nat) : Option WalkPtr :=
  [3, 2, 1].findSome? fun n => s.wcache.find? fun w =>
    w.cluster == cluster && w.part == part && w.ctx == ctx && w.level == n && w.pfx == va / 2 ^ tableBits n

/-- A walk by a cluster's walkers, from the deepest pointer they hold. -/
def clusterWalk (s : State) (cluster part ctx va : Nat) : State × Found :=
  match heldPointer s cluster part ctx va with
  | some w => walkFrom s part ctx cluster va true (4 - w.level) w.level w.table
  | none => walkFrom s part ctx cluster va true 4 0 (s.ctx part ctx).ptbase

/-! ## TLBs (R324) -/

/-- The cluster of a core, and its stack group (R8). -/
def clusterOf (core : Nat) : Nat := core / 8
def groupOf (core : Nat) : Nat := core / 24

def TlbEntry.covers (e : TlbEntry) (holder part ctx va : Nat) : Bool :=
  e.holder == holder && e.part == part && e.ctx == ctx && va / 2 ^ e.pbits == e.base / 2 ^ e.pbits

/-- What a translation needs next. -/
inductive Look where
  | leaf (e pbits : Nat)
  | none
  | wait
deriving DecidableEq, Repr

/-- A walk asked for, or joined when one to that page is in flight in the cluster; with 16 in flight there the requester asks again (R324). -/
def askWalk (s : State) (core req part ctx va : Nat) : State :=
  match s.walks.find? fun w => w.2.cluster == clusterOf core && w.2.part == part && w.2.ctx == ctx && w.2.va / 65536 == va / 65536 with
  | some (id, w) =>
    if w.reqs.any fun r => r.1 == req then s
    else { s with walks := tset s.walks id { w with reqs := w.reqs ++ [(req, core)] } }
  | Option.none =>
    if 16 ≤ (s.walks.filter fun w => w.2.cluster == clusterOf core).length then s
    else { s with walks := tset s.walks s.nextOp ⟨clusterOf core, [(req, core)], part, ctx, va / 65536 * 65536⟩, nextOp := s.nextOp + 1 }

/-- One page looked up by a requester on a core (R324). -/
def lookPage (s : State) (core req part ctx va : Nat) : State × Look :=
  match s.tlb.find? fun e => e.covers core part ctx va with
  | some e => (s, .leaf e.leaf e.pbits)
  | Option.none =>
    match s.ctlb.find? fun e => e.covers (clusterOf core) part ctx va with
    | some e => ({ s with tlb := s.tlb ++ [{ e with holder := core }] }, .leaf e.leaf e.pbits)
    | Option.none =>
      if s.misses.any fun m => m.req == req && m.part == part && m.ctx == ctx && m.va / 65536 == va / 65536 then (s, .none)
      else (askWalk s core req part ctx va, .wait)

/-- The requester has used what its walks found. -/
def dropMisses (s : State) (req : Nat) : State :=
  if s.misses = [] then s else { s with misses := s.misses.filter fun m => !(m.req == req) }

/-- The set of a cluster's TLB, of 1 024, that a translation goes to; how it is chosen is not given (log 71). -/
def tlbSet (e : TlbEntry) : Nat := (Config.mapWord 20 [e.part, e.ctx, e.base / 2 ^ e.pbits, e.pbits]).toNat % 1024

/-- A cluster's TLB of 1 024 sets of 8 ways takes a leaf; which leaves a full set is free (R324). -/
def keepLeaf (s : State) (e : TlbEntry) : State :=
  let mine := s.ctlb.filter fun x => x.holder == e.holder
  if mine.length < 8 then { s with ctlb := s.ctlb ++ [e] }
  else
    let set := mine.filter fun x => tlbSet x == tlbSet e
    let out := set[Config.freeChoice s.fresh (4 * 2 ^ 20) % 8]?
    { s with ctlb := (if set.length < 8 then s.ctlb else s.ctlb.filter fun x => some x != out) ++ [e] }

/-- PAGE_WALK_COMPLETE: the walk reads the tables; a leaf enters the TLBs, an unmapped page is told to those who wait. -/
def execPageWalkComplete (id : Nat) (s : State) : Result :=
  .next (match tget s.walks id with
    | Option.none => s
    | some w =>
      let s0 := { s with walks := tdel s.walks id }
      let r := clusterWalk s0 w.cluster w.part w.ctx w.va
      match r.2 with
      | some (e, b) =>
        { keepLeaf r.1 ⟨w.cluster, w.part, w.ctx, w.va, b, e⟩ with
          tlb := r.1.tlb ++ (w.reqs.map fun q => ⟨q.2, w.part, w.ctx, w.va, b, e⟩) }
      | Option.none => { r.1 with misses := r.1.misses ++ (w.reqs.map fun q => ⟨q.1, w.part, w.ctx, w.va⟩) })

/-! ## Locations -/

/-- Bits 63:57 equal bit 56 (R139). -/
def canonical (va : Nat) : Bool := va / 2 ^ 56 == 0 || va / 2 ^ 56 == 255

/-- Where va lies under a leaf. -/
def leafLoc (part ctx e pbits va : Nat) : Loc :=
  match leafKind e with
  | 0 => ⟨0, 0, fld e 16 23 * 65536 + va % 2 ^ pbits, leafHome e, leafHomeid e, part, ctx⟩
  | 1 => ⟨1, leafPkg e, fld e 16 23 * 65536 + va % 2 ^ pbits, 0, 0, part, ctx⟩
  | _ => ⟨2, fld e 44 4, fld e 16 28 * 65536 + va % 2 ^ pbits, 0, 0, part, ctx⟩

/-- Entry idx of n bytes of fabric table k of a partition, read at its home (R346). -/
def fabricEntry (s : State) (part k idx n : Nat) : State × Nat :=
  let r := homeNat s (chipLoc part 0 (partFcfg (s.part part) + Config.fabricTable k + idx * n)) (s.owner part) n
  (r.1, r.2.1)

/-- The host window entry of a context (R363). -/
def hostWindow (s : State) (part ctx win : Nat) : State × Nat := fabricEntry s part 6 (ctx * 16 + win) 32

/-- The outcome of checking one access. -/
inductive Chk where
  | ok (l : Loc)
  | bad (code : Nat)
  | wait
deriving DecidableEq, Repr

/-- What an access requires: R, W, no HOST page (R323). -/
structure Need where
  r : Bool
  w : Bool
  noHost : Bool
deriving DecidableEq, Repr

/-- Permissions, queue pages and host windows (R322, R323, R363). -/
def checkLeaf (s : State) (part ctx e pbits va : Nat) (n : Need) : State × Chk :=
  let u := leafKind e
  let l := leafLoc part ctx e pbits va
  if leafQ e || (n.r && !leafR e) || (n.w && !leafW e) then (s, .bad (65 + 8 * u))
  else if n.noHost && u == 2 then (s, .bad 83)
  else if u == 2 then
    let h := hostWindow s part ctx l.dest
    if h.2 % 2 = 0 then (h.1, .bad 80)
    else if fld h.2 104 44 ≤ l.addr then (h.1, .bad 86)
    else (h.1, .ok l)
  else (s, .ok l)

/-- One address of a requester checked in the order of R141: canonical, aligned, mapped, permitted. -/
def checkVa (s : State) (core req part ctx va size : Nat) (n : Need) : State × Chk :=
  if !canonical va then (s, .bad 64)
  else
    let r := lookPage s core req part ctx va
    match r.2 with
    | .wait => (r.1, .wait)
    | .none => (r.1, .bad (if va % size = 0 then 64 else 66))
    | .leaf e b => if va % size = 0 then checkLeaf r.1 part ctx e b va n else (r.1, .bad (66 + 8 * leafKind e))

/-- The same for the current unit. -/
def checkMine (s : State) (va size : Nat) (n : Need) : State × Chk :=
  checkVa s s.cur.core (requester s.cur) s.block.part s.block.ctx va size n

/-- What checking a list of lanes gives. -/
inductive Chks where
  | ok (ls : List (Nat × Loc))
  | bad (lane ea code : Nat)
  | wait
deriving DecidableEq, Repr

/-- Lanes with their addresses checked in ascending order: the first failing one decides (R141). -/
def checkLanes (size : Nat) (n : Need) : State → List (Nat × Nat) → State × Chks
  | s, [] => (s, .ok [])
  | s, (i, ea) :: ls =>
    let r := checkMine s ea size n
    match r.2 with
    | .wait => (r.1, .wait)
    | .bad c => (r.1, .bad i ea c)
    | .ok l =>
      let q := checkLanes size n r.1 ls
      match q.2 with
      | .ok xs => (q.1, .ok ((i, l) :: xs))
      | .bad j a c => (q.1, .bad j a c)
      | .wait => (q.1, .wait)

/-- Run k on the checked lanes; a failing lane raises its cause, an unfinished walk makes the instruction wait. -/
def withLanes (s : State) (size : Nat) (n : Need) (ls : List (Nat × Nat)) (k : List (Nat × Loc) → State → State) : State :=
  let r := checkLanes size n s ls
  match r.2 with
  | .wait => stall r.1
  | .bad i ea c => raiseAt c i ea (dropMisses r.1 (requester s.cur))
  | .ok xs => k xs (dropMisses r.1 (requester s.cur))

/-- An enabled watch range of the team meets [a, a + n) (R289). -/
def watchHit (s : State) (rd wr : Bool) (a n : Nat) : Bool :=
  !s.src.priv && !s.team.skip &&
    (List.range 2).any fun j =>
      let c := wget s.src.wpc j
      c.getLsbD 63 && ((rd && c.getLsbD 62) || (wr && c.getLsbD 61)) && overlaps a n (wget s.src.wpa j).toNat (2 ^ (c.toNat % 16))

/-- Run k unless a lane's bytes meet a watch range: the lowest such lane is reported (R289). -/
def unwatched (s : State) (rd wr : Bool) (n : Nat) (ls : List (Nat × Nat)) (k : State → State) : State :=
  match ls.find? fun x => watchHit s rd wr x.2 n with
  | some (i, ea) => raiseAt 59 i ea s
  | none => k s

/-- Run k on one checked address of the unit. -/
def withAddr (s : State) (va size : Nat) (n : Need) (k : Loc → State → State) : State :=
  let r := checkMine s va size n
  match r.2 with
  | .wait => stall r.1
  | .bad c => raiseAt c 0 va (dropMisses r.1 (requester s.cur))
  | .ok l => k l (dropMisses r.1 (requester s.cur))

end Sys2Proof.Machine
end

