-- ==== Sys2Proof/Machine/Link.lean ====
section
/-! DEFINITION. What leaves the package: frames over Geldy ports with their sequence numbers, requests to peers, RDMA to
hosts (R347 to R349, R363). -/

namespace Sys2Proof.Machine

def Port.init : Port where
  up := false
  ident := 0
  nextSeq := 0
  expSeq := 0
  unacked := []
  goBacks := 0
  bRemote := []
  store := []
  lost := []
  closed := []
  resend := []

def State.port (s : State) (p : Nat) : Port := (tget s.ports p).getD Port.init
def State.modPort (s : State) (p : Nat) (f : Port → Port) : State := { s with ports := tset s.ports p (f (s.port p)) }
def emit (s : State) (m : OutMsg) : State := { s with outbox := s.outbox ++ [m] }

/-- The frame with another header; what is no frame stays as it is. -/
def OutMsg.rehead (g : FrameHdr → FrameHdr) : OutMsg → OutMsg
  | .req f => .req { f with hdr := g f.hdr }
  | .rsp f => .rsp { f with hdr := g f.hdr }
  | .fwd f => .fwd { f with hdr := g f.hdr }
  | .sum f => .sum { f with hdr := g f.hdr }
  | .mcd f => .mcd { f with hdr := g f.hdr }
  | .mcr f => .mcr { f with hdr := g f.hdr }
  | .col f => .col { f with hdr := g f.hdr }
  | m => m

/-- The header of a numbered frame. -/
def OutMsg.header : OutMsg → Option FrameHdr
  | .req f => some f.hdr
  | .rsp f => some f.hdr
  | .fwd f => some f.hdr
  | .sum f => some f.hdr
  | .mcd f => some f.hdr
  | .mcr f => some f.hdr
  | .col f => some f.hdr
  | .ack _ _ => none
  | .nak _ _ _ => none
  | .notReady _ => none
  | .rdmaWrite _ _ _ _ _ _ => none
  | .rdmaRead _ _ _ _ _ _ => none
  | .rdmaReply _ _ _ => none
  | .rdmaNak _ _ => none
  | .rnr _ _ => none
  | .mgmt _ _ _ _ _ => none
  | .accept _ _ => none
  | .reject _ _ => none

/-- The route entry of a port reaches a package (R346, R348): its layout is not given (log 9). -/
def routeTo (s : State) (part p dst : Nat) : State × Bool :=
  let r := fabricEntry s part 0 p 32
  (r.1, r.2 % 2 == 1 && Config.fabricField 0 dst ((List.range 32).map fun i => byteOf r.2 i) % 2 == 1)

/-- The ports of a partition that are up and reach a package, lowest first, and the reads that told so. -/
def routesTo (s : State) (part dst : Nat) : State × List Nat :=
  (List.range 24).foldl (fun r p =>
    if partPorts (s.part part) / 2 ^ p % 2 = 1 ∧ (s.port p).up = true then
      let q := routeTo r.1 part p dst
      (q.1, if q.2 then r.2 ++ [p] else r.2)
    else r) (s, [])

/-- A frame takes the next sequence number of a port and leaves; it stays unacknowledged (R348). -/
def sendOn (s : State) (p : Nat) (m : OutMsg) : State :=
  let q := s.port p
  let m := m.rehead fun h => { h with port := p, seq := q.nextSeq }
  emit (s.modPort p fun q => { q with nextSeq := (q.nextSeq + 1) % 4096, unacked := q.unacked ++ [(q.nextSeq, m)] }) m

/-- A header before a port has been chosen. -/
def headTo (s : State) (part ctx dst tag : Nat) : FrameHdr where
  port := 0
  part := part
  ctx := ctx
  dst := dst
  src := pkgNow s
  seq := 0
  ackv := false
  ackseq := 0
  tag := tag
  rsv := 0

/-- A port has frames for a package that are not acknowledged. -/
def carries (s : State) (dst p : Nat) : Bool := (s.port p).unacked.any fun x => (x.2.header.map FrameHdr.dst) == some dst

/-- A port may take one more frame (R348). -/
def portRoom (s : State) (p : Nat) : Bool := decide ((s.port p).unacked.length < 2048)

/-- The port a frame for a package takes, of those that reach it: one route at a time, so that frames stay in order (R348, R349, R352).
That is the port with frames for the package not acknowledged, else the lowest with room. -/
def nextPort (s : State) (dst : Nat) (ps : List Nat) : Option Nat :=
  match ps.find? (carries s dst) with
  | some p => if portRoom s p then some p else none
  | none => ps.find? (portRoom s)

/-- Frames of a partition are held for a package. -/
def heldFor (s : State) (part dst : Nat) : Bool := s.unsent.any fun x => x.1 == dst && (x.2.header.map FrameHdr.part) == some part

/-- A frame to a package: by the port of its route, else held, behind what its partition has held for the package already (R348). -/
def sendFrame (s : State) (part dst : Nat) (m : OutMsg) : State :=
  let r := routesTo s part dst
  match (if heldFor s part dst then none else nextPort r.1 dst r.2) with
  | some p => sendOn r.1 p m
  | none => { r.1 with unsent := r.1.unsent ++ [(dst, m)] }

/-- The next request number from a core to a package (R348). -/
def takeNumber (s : State) (core dst : Nat) : State × Nat :=
  let k := core * 2 ^ 17 + dst
  let n := (tget s.reqNum k).getD 0
  ({ s with reqNum := tset s.reqNum k ((n + 1) % 65536) }, n)

/-- An access leaves for a peer; `owner` and `id` say what waits for the answer. -/
def sendPeer (s : State) (part ctx core dst owner id : Nat) (op : PeerOp) : State :=
  let (s, n) := takeNumber s core dst
  let ref := s.nextOp
  let s := { s with
    nextOp := s.nextOp + 1
    remotes := tset s.remotes ref ⟨id, dst, false, 0, part, owner, id, [], 0, false⟩ }
  sendFrame s part dst (.req ⟨headTo s part ctx dst n, core, n, ref, op⟩)

/-- An access leaves for a host (R363): a read of n bytes, or a write. -/
def sendHost (s : State) (l : Loc) (owner id : Nat) (data : Option (List Byte)) (n : Nat) : State :=
  let (s, e) := hostWindow s l.part l.ctx l.dest
  let ref := s.nextOp
  let s := { s with
    nextOp := s.nextOp + 1
    remotes := tset s.remotes ref ⟨id, 0, true, fld e 96 8, l.part, owner, id, [], 0, false⟩ }
  let a := (fld e 192 64 + l.addr) % 2 ^ 64
  match data with
  | some bs => emit s (.rdmaWrite l.part (fld e 96 8) a (fld e 160 32) (ofBytes bs) ref)
  | none => emit s (.rdmaRead l.part (fld e 96 8) a (fld e 160 32) n ref)

end Sys2Proof.Machine
end

