-- ==== Sys2Proof/Machine/Request.lean ====
section
/-! DEFINITION. Between a core and its home slices: L1 and stash lines, line requests and their performance, operations in
flight and their completion, the steps of a release and of an acquire (R69, R70, R144, R145, R149 to R151, R182, R365 to
R371). -/

namespace Sys2Proof.Machine

/-! ## Operations in flight -/

/-- An operation of the current unit with flag f enters flight; with no flag the instruction waits for it (R69). Destinations:
class, register, lanes. -/
def issueOp (s : State) (f : Nat) (hold : Bool) (kind : OpKind) (dests : List (Nat × Nat × Lanes)) (foot : List Foot) : State :=
  let id := s.nextOp
  let t := s.team
  let o : Op := ⟨s.cur, s.block.part, s.block.ctx, f, t.pkt, t.slot, s.nextStamp, 0, kind, none, foot⟩
  let s := { s with ops := tset s.ops id o, nextOp := id + 1, nextStamp := s.nextStamp + 1 }
  let s :=
    if f < 12 then
      s.modTeam fun t => (dests.foldl (fun t d => t.addPend ⟨d.1, d.2.1, d.2.2, f, id, 0⟩) t).flagUp f
    else s
  if hold || decide (12 ≤ f) then stall (setWait s (.op id)) else s

/-- The flag has room for one more operation (R69). -/
def flagRoom (s : State) (f : Nat) : Bool := decide (12 ≤ f) || decide ((s.team.flag f).count < 63)

/-- A precise cause found when data arrived. -/
def raiseFault (f : FaultRec) (s : State) : State :=
  raise { causeOf f.code with lane := f.lane, addr := f.addr, info := f.info, ovf := f.ovf } s

/-- An instruction whose operation may have to be waited for: k issues it; when it is tried again after completion it ends, or
`bad` delivers what it met. -/
def async (s : State) (f : Nat) (bad : FaultRec → State → State) (k : State → State) : State :=
  match myWait s with
  | .op _ => stall s
  | .done none => setWait s .none
  | .done (some r) => bad r (setWait s .none)
  | .none => if flagRoom s f then k s else stall s
  | .barrier _ _ => k s
  | .rcv _ => k s
  | .object _ _ => k s
  | .word _ _ _ => k s

/-- The instruction that waits for operation id may go on. -/
def Team.resolve (t : Team) (id : Nat) (r : Option FaultRec) : Team :=
  { t with waits := t.waits.map fun w => if w.2 = .op id then (w.1, .done r) else w, blocked := false }

/-- Of two faults the one of the lower lane stays (R143). -/
def lowerFault (a b : Option FaultRec) : Option FaultRec :=
  match a, b with
  | none, b => b
  | a, none => a
  | some x, some y => if y.lane < x.lane then some y else some x

/-- An operation leaves flight: its flag falls with its fault, or the instruction that waits for it may go on (R69, R283). -/
def endOp (s : State) (id : Nat) : State :=
  match tget s.ops id with
  | none => s
  | some o =>
    let s := { s with ops := tdel s.ops id }
    if o.flag < 12 then s.modUnit o.unit fun t => (t.complete o.flag (o.fault.map fun r => { r with info := originWord 0 o.pkt o.slot })).resolve id none
    else s.modUnit o.unit fun t => t.resolve id o.fault

def modOp (s : State) (id : Nat) (f : Op → Op) : State :=
  match tget s.ops id with
  | none => s
  | some o => { s with ops := tset s.ops id (f o) }

/-! ## L1 (R144) -/

def sectorLoc (l : Loc) : Loc := { l with addr := l.addr / 32 * 32 }
def lineLoc (l : Loc) : Loc := { l with addr := l.addr / 128 * 128 }
def sameLine (a b : Loc) : Bool := lineLoc a == lineLoc b

def l1Get (s : State) (core : Nat) (l : Loc) : Option L1Sector := s.l1.find? fun x => x.core == core && x.loc == sectorLoc l

def l1Drop (s : State) (core : Nat) (l : Loc) : State :=
  { s with l1 := s.l1.filter fun x => !(x.core == core && x.loc == sectorLoc l) }

def l1Put (s : State) (x : L1Sector) : State :=
  let s := l1Drop s x.core x.loc
  { s with l1 := s.l1 ++ [x] }

/-- p holds of some sector of the line at l. -/
def someSector (p : Loc → Bool) (l : Loc) : Bool := (List.range 4).any fun j => p { l with addr := l.addr + 32 * j }

/-- Replies on their way to a core with a sector that p holds of fill nothing (R182). -/
def noFill (s : State) (core : Nat) (p : Loc → Bool) : State :=
  { s with reqs := s.reqs.map fun r => if r.2.core == core && someSector p r.2.loc then (r.1, { r.2 with nofill := true }) else r }

/-- Byte j of a sector as owner own reads it (R376). -/
def sectorByte (x : L1Sector) (own j : Nat) : Nat := if x.owner = own then (x.data >>> (8 * j)).toNat % 256 else 0

/-- The bytes of [l, l + n) a core's L1 has: a mask, the value, and whether a poisoned sector is among them. -/
def l1Read (s : State) (core own : Nat) (l : Loc) (n : Nat) : Nat × Nat × Bool :=
  match l1Get s core l with
  | none => (0, 0, false)
  | some x =>
    let o := l.addr % 32
    (List.range n).foldl (fun r j =>
      if x.valid || x.dirty.getLsbD (o + j) then
        (r.1 + 2 ^ j, r.2.1 + sectorByte x own (o + j) * 256 ^ j, r.2.2 || (x.pois && !x.dirty.getLsbD (o + j)))
      else r) (0, 0, false)

/-- Bytes stored into L1 by the current unit at virtual address va, as dirty bytes; a sector wholly dirty is clean of poison
(R143, R144). -/
def l1Write (s : State) (own va : Nat) (l : Loc) (bs : List Byte) : State :=
  let new : L1Sector := ⟨s.cur.core, sectorLoc l, false, 0, 0, false, own, s.cur, 0, 0⟩
  let x :=
    match l1Get s s.cur.core l with
    | some x => if x.owner = own then x else new
    | none => new
  let o := l.addr % 32
  let x := (bs.zip (List.range bs.length)).foldl (fun (x : L1Sector) p =>
    { x with
      data := (x.data &&& ~~~(BitVec.ofNat 256 (255 * 256 ^ (o + p.2)))) ||| ((p.1.zeroExtend 256 : BitVec 256) <<< (8 * (o + p.2)))
      dirty := x.dirty ||| BitVec.ofNat 32 (2 ^ (o + p.2)) }) x
  l1Put s { x with
    pois := x.pois && !(x.dirty == -1), unit := s.cur, va := va, org := originWord 0 s.team.pkt s.team.slot }

/-- A clean sector enters L1; dirty bytes stay. -/
def l1Fill (s : State) (core own : Nat) (u : UnitId) (l : Loc) (data : BitVec 256) (pois : Bool) : State :=
  match l1Get s core l with
  | some x =>
    if x.owner = own then
      let keep := (List.range 32).foldl (fun (m : BitVec 256) j =>
        if x.dirty.getLsbD j then m ||| BitVec.ofNat 256 (255 * 256 ^ j) else m) 0
      l1Put s { x with valid := true, data := (x.data &&& keep) ||| (data &&& ~~~keep), pois := pois && !(x.dirty == -1) }
    else l1Put s ⟨core, sectorLoc l, true, data, 0, pois, own, u, 0, 0⟩
  | none => l1Put s ⟨core, sectorLoc l, true, data, 0, pois, own, u, 0, 0⟩

/-! ## Requests (R365, R370, R371) -/

/-- Sectors of a mask as a byte range within the line. -/
def sectorSpan (m : Nat) : Nat × Nat :=
  match (List.range 4).filter fun j => m / 2 ^ j % 2 == 1 with
  | [] => (0, 128)
  | j :: js => (32 * j, 32 * ((j :: js).getLastD j - j + 1))

/-- Runs of consecutive addresses. -/
def byteRuns : List (Nat × Byte) → List (Nat × List Byte)
  | [] => []
  | (a, b) :: rest =>
    match byteRuns rest with
    | (a', bs) :: rs => if a' = a + 1 then (a, b :: bs) :: rs else (a, [b]) :: (a', bs) :: rs
    | [] => [(a, [b])]

/-- Physical source identifier of a unit (R361). -/
def sourceId (s : State) (u : UnitId) : Nat := pkgNow s * 2 ^ 24 + u.core * 2 ^ 10 + u.bslot * 64 + u.team

/-- A request leaves the core: for a home slice, a peer or a host (R321, R349, R363). -/
def sendReq (s : State) (op : Nat) (u : UnitId) (own : Nat) (l : Loc) (kind : ReqKind)
    (va org : Nat := 0) : State :=
  let id := s.nextOp
  let l := lineLoc l
  let s := { s with
    nextOp := id + 1
    nextStamp := s.nextStamp + 1
    reqs := tset s.reqs id ⟨op, u.core, u, l, kind, .sent, 0, 0, false, own, s.nextStamp, 0, va, org⟩ }
  if l.kind = 0 then s
  else if l.kind = 1 then
    sendPeer s l.part l.ctx u.core l.dest 0 id
      (match kind with
       | .load m => .read (l.addr + (sectorSpan m).1) (sectorSpan m).2
       | .store bs => .write (bs.map fun b => (l.addr + b.1, b.2.toNat))
       | .atomic op kd half as => .atomic op kd half (as.map fun a => (a.loc.addr, a.src, a.exp)) none
       | .reduce op kd half as det => .atomic op kd half (as.map fun a => (a.loc.addr, a.src, a.exp))
           (if det then some (sourceId s u) else none))
  else
    match kind with
    | .load m => sendHost s { l with addr := l.addr + (sectorSpan m).1 } 0 id none (sectorSpan m).2
    | .store bs => (byteRuns bs).foldl (fun s r => sendHost s { l with addr := l.addr + r.1 } 0 id (some r.2) r.2.length) s
    | .atomic _ _ _ _ => s
    | .reduce _ _ _ _ _ => s

/-- The dirty bytes of a sector go home; it keeps its clean bytes. -/
def writeBackSector (s : State) (x : L1Sector) : State :=
  if x.dirty = 0 then s
  else
    let bs := (List.range 32).filterMap fun j =>
      if x.dirty.getLsbD j then some (x.loc.addr % 128 + j, (x.data >>> (8 * j)).truncate 8) else none
    let s := sendReq s 0 x.unit x.owner x.loc (.store bs) x.va x.org
    let s := noFill s x.core (sameLine x.loc)
    if x.valid then l1Put s { x with dirty := 0 } else l1Drop s x.core x.loc

/-- The dirty bytes of every sector that p holds of go home. -/
def flushL1 (s : State) (p : L1Sector → Bool) : State := (s.l1.filter p).foldl writeBackSector s

/-- Clean copies that p holds of are dropped, dirty bytes stay, and replies on their way fill none (R182). -/
def dropClean (s : State) (core : Nat) (p : Loc → Bool) : State :=
  let s := noFill s core p
  { s with l1 := s.l1.filterMap fun x =>
      if x.core == core && p x.loc then (if x.dirty = 0 then none else some { x with valid := false, pois := false }) else some x }

/-- A sector of line l that mask m names. -/
def inSectors (l : Loc) (m : Nat) (x : Loc) : Bool := sameLine l x && m / 2 ^ (x.addr % 128 / 32) % 2 == 1

/-- Sectors m of a line: a core's L1 bytes go home and its copies are dropped (R159). -/
def flushSectors (s : State) (core : Nat) (l : Loc) (m : Nat) : State :=
  dropClean (flushL1 s fun x => x.core == core && inSectors l m x.loc) core (inSectors l m)

/-- The same for a whole line. -/
def flushLine (s : State) (core : Nat) (l : Loc) : State := flushSectors s core l 15

/-- Lines of a core's L1. -/
def l1Lines (s : State) (core : Nat) : List Loc := ((s.l1.filter fun x => x.core == core).map fun x => lineLoc x.loc).eraseDups

/-- Room in a core's L1 for a sector of l: with 1 024 other lines there, one of them is evicted (R8, R144). -/
def l1Room (s : State) (core : Nat) (l : Loc) : State :=
  let ls := l1Lines s core
  if ls.length < 1024 ∨ ls.any (sameLine l) = true then s
  else
    match ls[Config.freeChoice s.fresh (2 ^ 20 + core) % ls.length]? with
    | none => s
    | some v => (s.l1.filter fun x => x.core == core && sameLine x.loc v).foldl (fun s x => l1Drop (writeBackSector s x) core x.loc) s

/-! ## Stash lines (R148 to R151) -/

/-- Where offset o of a stash slot lies in global memory. -/
def stashLoc (e : StashSlot) (o : Nat) : Option Loc :=
  (e.pages.find? fun p => p.1 == (e.base + o) / 65536).map fun p => { p.2 with addr := p.2.addr + (e.base + o) % 65536 }

/-- The dirty bytes of 128-byte line k of a slot that p holds of, by offset in the range, go home (R150); a byte whose page is mapped no
longer is dropped (log 10). -/
def writeBackStash (s : State) (key slot k : Nat) (p : Nat → Bool := fun _ => true) : State :=
  match tget s.blocks key with
  | none => s
  | some b =>
    match tget b.stash slot with
    | none => s
    | some e =>
      let ds := e.dirty.filter fun o => o / 128 == k && p o
      let own := s.owner b.part
      let m := (tget e.marks k).getD ⟨⟨key / 16, key % 16, 0, true⟩, 0, 0⟩
      let bs := ds.filterMap fun o =>
        (winByte b (e.off + o)).map fun w => (o % 128, readLocal1 s 0 (key / 16) own w)
      let s := match stashLoc e (128 * k) with
        | some l => if bs.isEmpty then s else noFill (sendReq s 0 m.unit own l (.store bs) m.va m.org) (key / 16) (sameLine l)
        | none => s
      s.modBlockAt key fun b => { b with
        stash := tset b.stash slot { e with dirty := e.dirty.filter fun o => !(o / 128 == k && p o) } }

/-- Every dirty byte of a slot goes home. -/
def flushSlot (s : State) (key slot : Nat) : State :=
  match (tget s.blocks key).bind fun b => tget b.stash slot with
  | none => s
  | some e => (e.dirty.map fun o => o / 128).eraseDups.foldl (fun s k => writeBackStash s key slot k) s

/-- Every dirty stash byte of a block goes home. -/
def flushStash (s : State) (key : Nat) : State :=
  match tget s.blocks key with
  | none => s
  | some b => b.stash.foldl (fun s e => flushSlot s key e.1) s

/-- Line k of a slot is filled no longer. -/
def unfill (s : State) (key slot : Nat) (p : Nat → Bool) : State :=
  s.modBlockAt key fun b =>
    match tget b.stash slot with
    | some e => { b with stash := tset b.stash slot { e with
        filled := e.filled.filter (fun k => !p k), pois := e.pois.filter fun k => !p (k / 4) } }
    | none => b

/-- The stash lines of a block that hold bytes of a global line: slot and line number. -/
def stashLines (b : Block) (l : Loc) : List (Nat × Nat) :=
  (b.stash.map fun e => (List.range (e.2.len / 128)).filterMap fun k =>
    match stashLoc e.2 (128 * k) with
    | some x => if sameLine x l then some (e.1, k) else none
    | none => none).flatten

/-- The stash has dirty bytes of line k of a slot in sectors m. -/
def stashDirty (b : Block) (slot k m : Nat) : Bool :=
  match tget b.stash slot with
  | some e => e.dirty.any fun o => o / 128 == k && m / 2 ^ (o % 128 / 32) % 2 == 1
  | none => false

/-- Sectors m of a global line: a block's dirty stash bytes go home, the stash line is filled no longer, and an L1 copy that lacks those
bytes is dropped (R145, R151). -/
def flushStashAt (s : State) (key : Nat) (l : Loc) (m : Nat) : State :=
  match tget s.blocks key with
  | none => s
  | some b =>
    if b.stash = [] then s
    else
      (stashLines b l).foldl (fun s p =>
        let s' := writeBackStash s key p.1 p.2 fun o => m / 2 ^ (o % 128 / 32) % 2 == 1
        let s' := if stashDirty b p.1 p.2 m then dropClean s' (key / 16) (inSectors l m) else s'
        unfill (noFill s' (key / 16) (sameLine l)) key p.1 fun k => k == p.2) s

/-- The same for the current block. -/
def flushStashLine (s : State) (l : Loc) (m : Nat) : State := flushStashAt s (blockKey s.cur) l m

/-- The blocks of a core. -/
def coreBlocks (s : State) (core : Nat) : List Nat := (s.blocks.filter fun b => b.1 / 16 == core).map Prod.fst

/-- Sectors m of a line: every copy a core has goes home and is dropped (R159). -/
def flushCore (s : State) (core : Nat) (l : Loc) (m : Nat) : State :=
  (coreBlocks s core).foldl (fun s k => flushStashAt s k l m) (flushSectors s core l m)

/-- Lines of some locations of at most 8 aligned bytes, with the sectors touched, in order of first appearance (R365). -/
def touchedLines (ls : List Loc) : List (Loc × Nat) :=
  ((ls.map lineLoc).eraseDups).map fun l =>
    (l, (List.range 4).foldl (fun m j => if ls.any fun x => lineLoc x == l && x.addr % 128 / 32 == j then m + 2 ^ j else m) 0)

/-- Stash lines of a core's blocks with a byte that p holds of are filled no longer; dirty bytes stay (R151, R193). -/
def unfillWhere (s : State) (core : Nat) (p : Loc → Bool) : State :=
  (coreBlocks s core).foldl (fun s key =>
    match tget s.blocks key with
    | none => s
    | some b => b.stash.foldl (fun s e =>
        if e.2.filled.isEmpty then s
        else unfill s key e.1 fun k => (List.range 128).any fun j => (stashLoc e.2 (128 * k + j)).any p) s) s

/-! ## Performance at the home slice -/

def modReq (s : State) (id : Nat) (f : Req → Req) : State :=
  match tget s.reqs id with
  | none => s
  | some r => { s with reqs := tset s.reqs id (f r) }

/-- The request has been performed now; replies keep this order (R371). -/
def Req.did (r : Req) (n : Nat) : Req := { r with stage := .performed, arrive := n }

/-- Lanes of an atomic that have been applied. -/
def Req.applied (r : Req) : Nat :=
  match r.stage with
  | .applying n => n
  | .sent => 0
  | .filling => 0
  | .performed => 0
  | .failed _ => 0

/-- An atomic has applied its next lane. -/
def Req.lane (r : Req) (n : Nat) (kind : ReqKind) (count : Nat) : Req :=
  if r.applied + 1 < count then { r with stage := .applying (r.applied + 1), kind := kind } else { r.did n with kind := kind }

/-- The next lane of an atomic applied to line k; the lanes with what it found, and whether it met poison (R162, R164). -/
def applyLane (s : State) (slice line k op kind half n : Nat) (as : List LaneAtom) : State × List LaneAtom × Option LaneAtom :=
  match as[n]? with
  | none => (s, as, none)
  | some a =>
    let s := settleRed s slice line a.loc.addr (kindSize kind)
    let x := (lineAt s k).atom op kind half a
    ({ s with l2 := tset s.l2 k x.1 }, as.set n x.2, if x.2.pois then some x.2 else none)

/-- The core has an atomic on the line that has been applied in part. -/
def halfDone (s : State) (core : Nat) (l : Loc) : Bool :=
  s.reqs.any fun q => q.2.core == core && sameLine q.2.loc l && (match q.2.stage with
    | .applying _ => true
    | .sent => false
    | .filling => false
    | .performed => false
    | .failed _ => false)

/-- A request is performed in its line, of an atomic the next lane (R161, R162, R177, R183, R361, R365). What a load reads between two lanes
of an atomic of its core fills no L1. -/
def performReq (s : State) (id : Nat) : State :=
  match tget s.reqs id with
  | none => s
  | some r =>
    let slice := homeSlice s r.loc
    let line := r.loc.addr / 128
    let (s, k) := homeLine s slice line r.owner (ctxpOf r.loc)
    let s := { s with nextStamp := s.nextStamp + 1 }
    let n := s.nextStamp
    match r.kind with
    | .load m =>
      let sp := sectorSpan m
      let s := settleRed s slice line (r.loc.addr + sp.1) sp.2
      let l := lineAt s k
      let part := halfDone s r.core r.loc
      modReq s id fun r => { r.did n with data := l.data, pois := l.pois &&& BitVec.ofNat 4 m, nofill := r.nofill || part }
    | .store bs =>
      let s := bs.foldl (fun s b => settleRed s slice line (r.loc.addr + b.1) 1) s
      modReq (modLine s k fun l => l.put bs) id fun r => r.did n
    | .atomic op kind half as =>
      let x := applyLane s slice line k op kind half r.applied as
      modReq x.1 id fun r => r.lane n (.atomic op kind half x.2.1) as.length
    | .reduce op kind half as det =>
      if det then
        modReq (holdRed s slice ⟨r.loc, op, kind, half, as, sourceId s r.unit, r.stamp, r.owner, r.core, 0⟩) id fun r => r.did n
      else
        let x := applyLane s slice line k op kind half r.applied as
        let s := match x.2.2 with
          | some a => logRas x.1 r.loc.part 68 slice a.loc.addr r.loc.ctx
          | none => x.1
        modReq s id fun r => r.lane n (.reduce op kind half as det) as.length

/-- An operation is a tile of this core, not yet copied, over a line. -/
def tileOver (core : Nat) (l : Loc) (before : Nat) (o : Op) : Bool :=
  match o.kind with
  | .tile _ rows _ _ locked =>
    !locked && o.unit.core == core && decide (o.stamp < before) &&
      rows.any fun r => { r.1 with addr := 0 } == { l with addr := 0 } && overlaps r.1.addr r.2.1 l.addr 128
  | _ => false

/-- An earlier tile of the request's core stands before it (R145). -/
def behindTile (s : State) (r : Req) : Bool := s.ops.any fun o => tileOver r.core r.loc r.stamp o.2

/-- The half of a packed atomic a request updates: 0 for anything else. -/
def Req.half (r : Req) : Nat :=
  match r.kind with
  | .load _ => 0
  | .store _ => 0
  | .atomic _ _ h _ => h
  | .reduce _ _ h _ _ => h

def Req.isAtomic (r : Req) : Bool :=
  match r.kind with
  | .load _ => false
  | .store _ => false
  | .atomic _ _ _ _ => true
  | .reduce _ _ _ _ _ => true

def Req.isStore (r : Req) : Bool :=
  match r.kind with
  | .load _ => false
  | .store _ => true
  | .atomic _ _ _ _ => false
  | .reduce _ _ _ _ _ => false

/-- r must follow q, which arrived at the line before it: what waits there goes in arrival order (R367); the lanes of an atomic come before
what their own team sends later, the core's later stores, and later atomics, but not before the other half of a packed location (R145,
R161, R163). -/
def mustFollow (s : State) (r q : Req) : Bool :=
  let other := r.half + q.half == 3
  match q.stage with
  | .filling => q.core == r.core || !behindTile s q
  | .applying _ => !other && (q.unit == r.unit || (q.core == r.core && r.isStore) || r.isAtomic)
  | .sent => false
  | .performed => false
  | .failed _ => false

/-- A request at its slice may be served: its line is free, no earlier tile of its core stands before it, and it follows nothing that waits
(R145, R155, R177, R367). -/
def reqReady (s : State) (id : Nat) (r : Req) : Bool :=
  !lineLocked s r.loc && !behindTile s r &&
    s.reqs.all fun q => !(q.1 != id && sameLine q.2.loc r.loc && decide (q.2.arrive < r.arrive) && mustFollow s r q.2)

/-- A request may arrive: what its core sent to the slice before it has arrived (R371). -/
def arrivesNext (s : State) (id : Nat) (r : Req) : Bool :=
  r.loc.kind == 0 && s.reqs.all fun q => !(decide (q.1 < id) && q.2.stage == .sent && q.2.loc.kind == 0 && q.2.core == r.core &&
    homeSlice s q.2.loc == homeSlice s r.loc)

/-- The HBM channel of a physical address (R372): stack × 32 + channel. -/
def channelOf (pa : Nat) : Nat := fld pa 36 3 * 32 + Nat.xor (fld pa 8 5) (fld pa 16 5)

/-- The key under which a line waits at its channel. -/
def fillKey (slice line : Nat) : Nat := slice * 2 ^ 32 + line

/-- A request at its slice is served when its line is there and its turn has come; a line that is not there is asked for, when its channel has room
for one more (R367, R372). -/
def serveReq (s : State) (id : Nat) : State :=
  match tget s.reqs id with
  | none => s
  | some r =>
    if (findWay s (homeSlice s r.loc) (r.loc.addr / 128)).isSome then (if reqReady s id r then performReq s id else s)
    else
      let c := channelOf r.loc.addr
      let q := (tget s.channels c).getD ⟨[], false⟩
      if 64 ≤ q.queue.length then s
      else { s with channels := tset s.channels c { q with queue := addOnce (fillKey (homeSlice s r.loc) (r.loc.addr / 128)) q.queue } }

/-- A request arrives at its slice, or goes on there. -/
def arriveReq (s : State) (id : Nat) : State :=
  match tget s.reqs id with
  | none => s
  | some r =>
    match r.stage with
    | .sent =>
      if arrivesNext s id r then
        serveReq (modReq { s with nextStamp := s.nextStamp + 1 } id fun r => { r with stage := .filling, arrive := s.nextStamp }) id
      else s
    | .filling => serveReq s id
    | .applying _ => serveReq s id
    | .performed => s
    | .failed _ => s

/-- SLICE_LOAD: a read request reaches its home slice (R183). -/
def execSliceLoad (id : Nat) (s : State) : Result :=
  .next (match (tget s.reqs id).map Req.kind with
    | some (.load _) => arriveReq s id
    | _ => s)

/-- SLICE_STORE: a write request takes its place in coherence order (R177). -/
def execSliceStore (id : Nat) (s : State) : Result :=
  .next (match (tget s.reqs id).map Req.kind with
    | some (.store _) => arriveReq s id
    | _ => s)

/-- SLICE_ATOMIC: the next lane of an atomic is applied, in lane order (R162). -/
def execSliceAtomic (id : Nat) (s : State) : Result :=
  .next (match (tget s.reqs id).map Req.kind with
    | some (.atomic _ _ _ _) => arriveReq s id
    | _ => s)

/-- SLICE_REDUCE: the next lane of a reduce-add is applied, or the request is held in deterministic mode (R361). -/
def execSliceReduce (id : Nat) (s : State) : Result :=
  .next (match (tget s.reqs id).map Req.kind with
    | some (.reduce _ _ _ _ _) => arriveReq s id
    | _ => s)

/-- A request waits at its slice. -/
def Req.atSlice (r : Req) : Bool :=
  match r.stage with
  | .filling => true
  | .applying _ => true
  | .sent => false
  | .performed => false
  | .failed _ => false

/-- Requests that wait at a slice for a line, in arrival order. -/
def fillWaiters (s : State) (slice line : Nat) : List Nat :=
  let rs := s.reqs.filter fun r => r.2.atSlice && homeSlice s r.2.loc == slice && r.2.loc.addr / 128 == line
  (rs.foldr (fun x l =>
    let le := l.filter fun y => decide (y.2.arrive < x.2.arrive)
    let ge := l.filter fun y => !decide (y.2.arrive < x.2.arrive)
    le ++ x :: ge) []).map Prod.fst

/-- A channel whose oldest request has reached its age cap serves no other (R372). -/
def cappedOut (s : State) (slice line : Nat) : Bool :=
  match tget s.channels (channelOf (line * 128)) with
  | some q => q.capped && q.queue.head? != some (fillKey slice line)
  | none => false

/-- The line is fetched for the first that waits for it. -/
def fetchFor (s : State) (slice line : Nat) (ids : List Nat) : State :=
  match ids with
  | [] => s
  | id :: _ =>
    match tget s.reqs id with
    | none => s
    | some r => (homeLine s slice line r.owner (ctxpOf r.loc)).1

/-- SLICE_LINE_FILL: the line arrives from HBM and those who wait for it proceed, each in its turn (R155, R367). -/
def execSliceLineFill (slice line : Nat) (s : State) : Result :=
  .next (
    let c := channelOf (line * 128)
    match tget s.channels c with
    | none => s
    | some q =>
      if !inList (fillKey slice line) q.queue || cappedOut s slice line then s
      else
        let ids := fillWaiters s slice line
        let s := { s with channels := tset s.channels c ⟨q.queue.filter (fun k => k != fillKey slice line), false⟩ }
        ids.foldl serveReq (fetchFor s slice line ids))

/-! ## Replies (R69, R143, R149, R163, R371) -/

/-- No reply the same slice sent this core earlier is still on its way. -/
def replyInOrder (s : State) (r : Req) : Bool :=
  r.loc.kind != 0 || s.reqs.all fun q =>
    !(q.2.stage == .performed && q.2.loc.kind == 0 && q.2.core == r.core && decide (q.2.arrive < r.arrive) &&
      homeSlice s q.2.loc == homeSlice s r.loc)

/-- The answer is there: performed or failed, or, from a host, at any time. -/
def replied (r : Req) : Bool :=
  match r.stage with
  | .performed => true
  | .failed _ => true
  | .sent => r.loc.kind == 2
  | .filling => false
  | .applying _ => false

/-- The fault of a reply: a failure; of a host's, a protection NAK (R362), for a read a failed integrity check (R296), or none. -/
def replyCode (s : State) (r : Req) : Option Nat :=
  match r.stage with
  | .failed c => some c
  | .sent =>
    let pick := Config.freeChoice s.fresh 1 % 3
    if pick = 1 then some 305 else if pick = 2 ∧ r.isStore = false then some 87 else none
  | .performed => none
  | .filling => none
  | .applying _ => none

/-- The data of a reply: what a host sends is not known here. -/
def replyData (s : State) (r : Req) : LineData :=
  if r.stage = .sent then
    (List.range 16).foldl (fun (d : LineData) j => d ||| ((Config.freeWord s.fresh j).zeroExtend 1024 <<< (64 * j))) 0
  else r.data

/-- A lane takes its missing bytes from a reply of its line. -/
def LaneLoad.take (x : LaneLoad) (d : LineData) (pois : BitVec 4) (code : Option Nat) : LaneLoad :=
  let o := x.loc.addr % 128
  let miss := (List.range x.n).filter fun j => x.have_ / 2 ^ j % 2 == 0
  { x with
    val := miss.foldl (fun v j => v + (lineByte d (o + j)).toNat * 256 ^ j) x.val
    have_ := 2 ^ x.n - 1
    bad := x.bad || (!miss.isEmpty && (code.isSome || miss.any fun j => pois.getLsbD ((o + j) / 32))) }

/-- Some byte of the lane is still to come. -/
def LaneLoad.open_ (x : LaneLoad) : Bool := x.have_ != 2 ^ x.n - 1

/-- The poison code of a page kind, or of the stash (R142). -/
def poisonCode (stash : Bool) (l : Loc) : Nat := if stash then 100 else 68 + 8 * l.kind

/-- The lowest faulting lane of a load. -/
def lanesFault (stash : Bool) (code : Option Nat) (xs : List LaneLoad) : Option FaultRec :=
  (xs.find? fun x => x.bad).map fun x => ⟨code.getD (poisonCode stash x.loc), x.ea, 0, x.lane, false⟩

/-- A load's words go to its registers: with a flag every lane without a fault, with none only when no lane has one (R143). -/
def landLoad (s : State) (id : Nat) : State :=
  match tget s.ops id with
  | none => s
  | some o =>
    match o.kind with
    | .load dst wide lanes _ =>
      let good := lanes.filter fun x => !x.bad
      let words := good.map fun x => (x.lane, BitVec.ofNat 32 x.val)
      let highs := if wide then good.map fun x => (x.lane, BitVec.ofNat 32 (x.val / 2 ^ 32)) else []
      let s :=
        if o.flag < 12 then
          s.modUnit o.unit fun t =>
            ((t.storeV dst words).storeV (dst + 1) highs).spoil id (maskOf ((lanes.filter fun x => x.bad).map fun x => x.lane))
        else if o.fault = none then s.modUnit o.unit fun t => if wide then (t.putV dst words).putV (dst + 1) highs else t.putV dst words
        else s
      endOp s id
    | _ => s

/-- A load with nothing left to come completes. -/
def settleLoad (s : State) (id : Nat) : State :=
  if s.reqs.any fun r => r.2.op == id then s else landLoad s id

/-- A fill writes the bytes of a stash line that are not dirty, and fills it; poison is kept by sector (R149). -/
def fillStash (s : State) (key slot : Nat) (l : Loc) (own : Nat) (d : LineData) (bad : BitVec 4) : State :=
  match (tget s.blocks key).bind fun b => (tget b.stash slot).map fun e => (b, e) with
  | none => s
  | some (b, e) =>
    match (stashLines b l).find? fun p => p.1 == slot with
    | none => s
    | some (_, k) =>
      if inList k e.filled then s
      else
        let s := (List.range 128).foldl (fun s j =>
          if inList (128 * k + j) e.dirty then s
          else match winByte b (e.off + 128 * k + j) with
            | some w => putLocal s 0 (key / 16) own w [lineByte d j]
            | none => s) s
        s.modBlockAt key fun b => { b with stash := tset b.stash slot { e with
          filled := insertNat k e.filled
          pois := (List.range 4).foldl (fun l j => if bad.getLsbD j then insertNat (4 * k + j) l else l) e.pois } }

/-- LOAD_COMPLETE: a reply fills L1 or the stash and its lanes; the last one completes its load (R69, R143, R144). -/
def execLoadComplete (id : Nat) (s : State) : Result :=
  .next (match tget s.reqs id with
    | none => s
    | some r =>
      match r.kind with
      | .load m =>
        if !(replied r && replyInOrder s r) then s
        else
          let code := replyCode s r
          let d := replyData s r
          let st := match (tget s.ops r.op).map Op.kind with
            | some (.load _ _ _ st) => st
            | _ => 0
          let s := { s with reqs := tdel s.reqs id, remotes := s.remotes.filter fun q => !(q.2.owner == 0 && q.2.req == id) }
          let s :=
            if r.nofill || code.isSome then s
            else if st = 0 then
              (List.range 4).foldl (fun s j =>
                if m / 2 ^ j % 2 = 1 then
                  l1Fill (l1Room s r.core r.loc) r.core r.owner r.unit { r.loc with addr := r.loc.addr + 32 * j } ((d >>> (256 * j)).truncate 256) (r.pois.getLsbD j)
                else s) s
            else (List.range 8).foldl (fun s j => fillStash s (r.unit.core * 16 + r.unit.bslot) j r.loc r.owner d r.pois) s
          let s := modOp s r.op fun o =>
            match o.kind with
            | .load dst wide lanes st =>
              let lanes := lanes.map fun x => if x.open_ && sameLine x.loc r.loc then x.take d r.pois code else x
              { o with kind := .load dst wide lanes st, fault := lowerFault o.fault (lanesFault (st != 0) code lanes) }
            | _ => o
          settleLoad s r.op
      | _ => s)

/-- STORE_ACK: a posted store, or a reduce-add, has reached its home and leaves the counters; a failure is recorded for the
next WAIT (R32, R297). -/
def execStoreAck (id : Nat) (s : State) : Result :=
  .next (match tget s.reqs id with
    | none => s
    | some r =>
      match r.kind with
      | .load _ => s
      | .atomic _ _ _ _ => s
      | _ =>
        if !replied r then s
        else
          let s' := { s with reqs := tdel s.reqs id, remotes := s.remotes.filter fun q => !(q.2.owner == 0 && q.2.req == id) }
          match replyCode s r with
          | some c =>
            let p := match r.kind with
              | .reduce _ _ _ (a :: _) _ => (a.lane, a.ea)
              | _ => (0, r.va)
            s'.modUnit r.unit fun t => t.recordFault 15 ⟨c, p.2, r.org, p.1, false⟩
          | none => s')

/-- An atomic's old values go to its registers (R160, R164). -/
def landAtomic (s : State) (id : Nat) : State :=
  match tget s.ops id with
  | none => s
  | some o =>
    match o.kind with
    | .atomic dst wide lanes _ =>
      let good := lanes.filter fun x => !x.pois
      let words := good.map fun x => (x.lane, BitVec.ofNat 32 x.old)
      let highs := if wide then good.map fun x => (x.lane, BitVec.ofNat 32 (x.old / 2 ^ 32)) else []
      let badl := maskOf ((lanes.filter fun x => x.pois).map fun x => x.lane)
      let s := s.modUnit o.unit fun t =>
        if o.flag < 12 then ((t.storeV dst words).storeV (dst + 1) highs).spoil id badl
        else
          let t := if wide then (t.putV dst words).putV (dst + 1) highs else t.putV dst words
          { t with unspec := if badl = 0 then t.unspec
              else t.unspec ++ ⟨0, dst, badl⟩ :: (if wide then [⟨0, dst + 1, badl⟩] else []) }
      endOp s id
    | _ => s

/-- Lanes of an operation take the old values a reply brings; the halves of a packed atomic each bring theirs (R161). -/
def takeOld (half : Nat) (new : List LaneAtom) (x : LaneAtom) : LaneAtom :=
  match new.find? fun a => a.lane == x.lane with
  | none => x
  | some a =>
    { x with
      pois := x.pois || a.pois
      old := if half = 1 then x.old / 65536 * 65536 + a.old % 65536
             else if half = 2 then x.old % 65536 + a.old / 65536 * 65536 else a.old }

/-- ATOMIC_COMPLETE: a reply with old values; the last one completes the atomic (R163, R164). -/
def execAtomicComplete (id : Nat) (s : State) : Result :=
  .next (match tget s.reqs id with
    | none => s
    | some r =>
      match r.kind with
      | .atomic _ _ half new =>
        if !(replied r && replyInOrder s r) then s
        else
          let code := replyCode s r
          let new := if code.isSome then new.map fun a => { a with pois := true } else new
          let s := { s with reqs := tdel s.reqs id, remotes := s.remotes.filter fun q => !(q.2.owner == 0 && q.2.req == id) }
          let s := modOp s r.op fun o =>
            match o.kind with
            | .atomic dst wide lanes acq =>
              let lanes := lanes.map (takeOld half new)
              let f := (lanes.find? fun x => x.pois).map fun x => (⟨code.getD (poisonCode false x.loc), x.ea, 0, x.lane, false⟩ : FaultRec)
              { o with kind := .atomic dst wide lanes acq, fault := lowerFault o.fault f }
            | _ => o
          if s.reqs.any fun q => q.2.op == r.op then s else landAtomic s r.op
      | _ => s)

/-! ## Releases and acquires (R182) -/

/-- Reads and writes of memory whose effect a release waits for. -/
def opAccess (o : Op) : Bool :=
  match o.kind with
  | .load _ _ _ _ => true
  | .atomic _ _ _ _ => true
  | .tile _ _ _ _ _ => true
  | .enq _ _ _ _ _ _ _ => true
  | .deq _ _ _ _ _ _ _ _ => true
  | .grab _ _ _ _ _ _ => true
  | _ => false

/-- Accesses of the current team still in flight, but for operation `but`. -/
def accessLeft (s : State) (but : Nat) : Bool :=
  s.ops.any fun o => o.1 != but && o.2.unit == s.cur && opAccess o.2

/-- Reads of memory whose value an acquire waits for. -/
def opReads (o : Op) : Bool :=
  match o.kind with
  | .load _ _ _ _ => true
  | .atomic _ _ _ _ => true
  | .tile store _ _ _ _ => !store
  | .deq _ _ _ _ _ _ _ _ => true
  | .grab _ _ _ _ _ _ => true
  | _ => false

/-- Reads of the current team that have not taken their values (R182). -/
def readsLeft (s : State) : Bool := s.ops.any fun o => o.2.unit == s.cur && opReads o.2

def writeKind : ReqKind → Bool
  | .load _ => false
  | .store _ => true
  | .atomic _ _ _ _ => true
  | .reduce _ _ _ _ _ => true

/-- The request has not been performed at its home yet. -/
def unperformed (r : Req) : Bool :=
  match r.stage with
  | .sent => true
  | .filling => true
  | .applying _ => true
  | .performed => false
  | .failed _ => false

/-- A release of a scope waits for writes to a page of this kind (R182). -/
def inScope (scope kind : Nat) : Bool := kind == 0 || (kind == 1 && decide (5 ≤ scope)) || (kind == 2 && decide (6 ≤ scope))

/-- The pages an operation in flight still writes: the rows of a TST, the ring or spill area of an ENQ, and none. -/
def opWrites (o : Op) : List Loc :=
  match o.kind with
  | .tile true rows _ _ false => rows.map Prod.fst
  | .enq q _ _ _ _ _ none => [q]
  | _ => []

/-- Writes of a core not performed at the level of a scope (R182). -/
def writesLeft (s : State) (core scope : Nat) : Bool :=
  (s.reqs.any fun r => r.2.core == core && writeKind r.2.kind && unperformed r.2 && inScope scope r.2.loc.kind) ||
    s.ops.any fun o => o.2.unit.core == core && (opWrites o.2).any fun l => inScope scope l.kind

/-- The steps of a release: dirty bytes go home, and the answer says whether all is performed. -/
def releaseStep (s : State) (scope but : Nat) : State × Bool :=
  if scope = 0 then (s, !accessLeft s but)
  else if scope = 1 then
    (s, !(accessLeft s but || s.reqs.any fun r => r.2.unit == s.cur && writeKind r.2.kind && unperformed r.2 && r.2.op == 0 &&
      (match r.2.kind with | .reduce _ _ _ _ _ => true | _ => false)))
  else
    let s := flushStash (flushL1 s fun x => x.core == s.cur.core) (blockKey s.cur)
    (s, !(accessLeft s but || writesLeft s s.cur.core scope))

/-- What an acquire does once the team's earlier reads have taken their values. -/
def acquireStep (s : State) (scope : Nat) : State :=
  if scope ≤ 1 then s
  else
    let s := dropClean (flushStash s (blockKey s.cur)) s.cur.core fun _ => true
    s.block.stash.foldl (fun s e => unfill s (blockKey s.cur) e.1 fun _ => true) s

end Sys2Proof.Machine
end

