-- ==== Sys2Proof/Machine/LoadStore.lean ====
section
/-! DEFINITION. Loads and stores of every space, prefetch, the parameter block, the stash, tiles, code as data (R88, R139 to
R156). -/

namespace Sys2Proof.Machine

/-! ## Effective addresses (R140) -/

/-- The address of lane i. -/
def eaOf (s : State) (b a : Nat) (off : Int) (i : Nat) : Nat :=
  let x : Int := if a = 63 then 0 else sgn 32 (readV s a i).toNat
  (((readS s b).toNat + x + off) % (2 : Int) ^ 64).toNat

/-- The Active lanes with their addresses. -/
def laneEas (s : State) (b a g : Nat) (off : Int) : List (Nat × Nat) := (active s g).map fun i => (i, eaOf s b a off i)

/-- A vector destination, one register or the pair, over some lanes. -/
def vecDests (r : Nat) (wide : Bool) (m : Lanes) : List (Nat × Nat × Lanes) := if wide then [(0, r, m), (0, r + 1, m)] else [(0, r, m)]

/-- An operation that could complete at once has the instruction end at once. -/
def endNow (s : State) : State :=
  match myWait s with
  | .done none => (setWait s .none).withFate .completed
  | .done (some r) => raiseFault r (setWait s .none)
  | .none => s
  | .op _ => s
  | .barrier _ _ => s
  | .rcv _ => s
  | .object _ _ => s
  | .word _ _ _ => s

/-! ## Global loads and stores (R143, R144) -/

def ownerNow (s : State) : Nat := s.owner s.block.part

/-- The lines that lanes with something still to come need, in the order of their lowest lane, with sector masks (R365). -/
def openLines (ls : List LaneLoad) : List (Loc × Nat) :=
  let os := ls.filter LaneLoad.open_
  ((os.map fun x => lineLoc x.loc).eraseDups).map fun l =>
    (l, (List.range 4).foldl (fun m j => if os.any fun x => lineLoc x.loc == l && x.loc.addr % 128 / 32 == j then m + 2 ^ j else m) 0)

/-- A load of checked lanes: what L1 has is taken now, the rest is asked for. -/
def startLoad (s : State) (f d n : Nat) (wide : Bool) (xs : List (Nat × Nat × Loc)) : State :=
  let s := (touchedLines (xs.map fun x => x.2.2)).foldl (fun s l => flushStashLine s l.1 l.2) s
  let own := ownerNow s
  let lanes : List LaneLoad := xs.map fun x =>
    let r := l1Read s s.cur.core own x.2.2 n
    if r.2.2 then ⟨x.1, x.2.2, x.2.1, n, 2 ^ n - 1, 0, true⟩ else ⟨x.1, x.2.2, x.2.1, n, r.1, r.2.1, false⟩
  let id := s.nextOp
  let u := s.cur
  let s := issueOp s f false (.load (logV s d) wide lanes 0) (vecDests (logV s d) wide (maskOf (xs.map Prod.fst))) []
  let s := modOp s id fun o => { o with fault := lanesFault false none lanes }
  if (openLines lanes).isEmpty then endNow (landLoad s id)
  else (openLines lanes).foldl (fun s l => sendReq s id u own l.1 (.load l.2)) s

/-- Checked lanes with their addresses. -/
def zipEas (eas : List (Nat × Nat)) (xs : List (Nat × Loc)) : List (Nat × Nat × Loc) :=
  (eas.zip xs).map fun p => (p.1.1, p.1.2, p.2.2)

def loadGlobal (n : Nat) (wide : Bool) (o : MOp) (off : Int) (s : State) : State :=
  async s o.f raiseFault fun s =>
    let eas := laneEas s o.s o.a o.g off
    withLanes s n ⟨true, false, false⟩ eas fun xs s =>
      unwatched s true false n eas fun s => startLoad s o.f o.d n wide (zipEas eas xs)

def storeGlobal (n : Nat) (wide : Bool) (o : MSt) (off : Int) (s : State) : State :=
  let vals := (active s o.g).map fun i => readN s wide o.d i
  let eas := laneEas s o.s o.a o.g off
  withLanes s n ⟨false, true, false⟩ eas fun xs s =>
    unwatched s false true n eas fun s =>
      let s := (touchedLines (xs.map Prod.snd)).foldl (fun s l => flushStashLine s l.1 l.2) s
      ((zipEas eas xs).zip vals).foldl (fun s p =>
        l1Write (l1Room s s.cur.core p.1.2.2) (ownerNow s) p.1.2.1 p.1.2.2 (natLe n p.2)) s

/-! ## Scratchpad (R143, R190, R191) -/

/-- The first lane outside the window, or misaligned, with its address and code (R141). -/
def localCause (s : State) (n : Nat) : List (Nat × Nat) → Option (Nat × Nat × Nat)
  | [] => none
  | (i, ea) :: ls =>
    if !winOk s.block ea n then some (i, ea, 94) else if ea % n ≠ 0 then some (i, ea, 90) else localCause s n ls

def withLocal? (s : State) (n : Nat) (write : Bool) (ls : List (Nat × Nat)) (k : State → State) : State :=
  match localCause s n ls with
  | some (i, ea, c) => raiseAt c i ea s
  | none => if windowBusy s ((ls.map fun x => winFoot s.block x.2 n write).flatten) then stall s else k s

/-- A flagged destination that is complete at once: unreadable until the WAIT, with its faulting lanes (R70, R143). -/
def landFlagged (s : State) (f d : Nat) (wide : Bool) (good : List (Nat × Nat)) (bad : List Nat) (r : Option FaultRec) : State :=
  let id := s.nextOp
  let m := maskOf (good.map Prod.fst ++ bad)
  let s := { s with nextOp := id + 1 }
  s.modTeam fun t =>
    let t := (vecDests (logV s d) wide m).foldl (fun t x => t.addPend ⟨x.1, x.2.1, x.2.2, f, id, 0⟩) t
    let t := t.storeV (logV s d) (good.map fun x => (x.1, BitVec.ofNat 32 x.2))
    let t := if wide then t.storeV (logV s d + 1) (good.map fun x => (x.1, BitVec.ofNat 32 (x.2 / 2 ^ 32))) else t
    let t := t.spoil id (maskOf bad)
    match r with
    | some r => t.recordFault f { r with info := originWord 0 t.pkt t.slot }
    | none => t

def loadLocal (n : Nat) (wide : Bool) (o : MOp) (off : Int) (s : State) : State :=
  let eas := laneEas s o.s o.a o.g off
  withLocal? s n false eas fun s =>
    let bad := eas.filter fun x => winPoisoned s x.2 n
    let good := (eas.filter fun x => !winPoisoned s x.2 n).map fun x => (x.1, leNat (readWin s x.2 n))
    let r := bad.head?.map fun x => (⟨92, x.2, 0, x.1, false⟩ : FaultRec)
    if o.f < 12 then (if flagRoom s o.f then landFlagged s o.f o.d wide good (bad.map Prod.fst) r else stall s)
    else
      match r with
      | some r => raiseFault r s
      | none => writeN s wide o.d good

def storeLocal (n : Nat) (wide : Bool) (o : MSt) (off : Int) (s : State) : State :=
  let eas := laneEas s o.s o.a o.g off
  withLocal? s n true eas fun s =>
    let s' := eas.foldl (fun s' x => writeWin s' x.2 (natLe n (readN s wide o.d x.1))) s
    clearCovered s' 0 s.cur.core ((eas.map fun x => winOffsets s.block x.2 n).flatten)

/-! ## The stash (R148 to R151) -/

/-- The slot that maps a global address, and the offset in it. -/
def stashFind (b : Block) (ea : Nat) : Option (Nat × StashSlot × Nat) :=
  (b.stash.find? fun e => decide (e.2.base ≤ ea) && decide (ea < e.2.base + e.2.len)).map fun e => (e.1, e.2, ea - e.2.base)

/-- Lanes of LDX and STX checked: mapped, aligned, translated and permitted, with the codes of the stash (R142, R149). -/
def checkStash (n : Need) : State → List (Nat × Nat) → State × Chks
  | s, [] => (s, .ok [])
  | s, (i, ea) :: ls =>
    match stashFind s.block ea with
    | none => (s, .bad i ea 96)
    | some _ =>
      if ea % 4 ≠ 0 then (s, .bad i ea 98)
      else
        let r := checkMine s ea 1 n
        match r.2 with
        | .wait => (r.1, .wait)
        | .bad c => (r.1, .bad i ea (96 + c % 8))
        | .ok l =>
          let q := checkStash n r.1 ls
          match q.2 with
          | .ok xs => (q.1, .ok ((i, l) :: xs))
          | .bad j a c => (q.1, .bad j a c)
          | .wait => (q.1, .wait)

/-- The scratchpad lines an LDX of these lanes fills: those of the addresses that are not filled (R149). -/
def stashFills (b : Block) (ls : List (Nat × Nat)) : List Foot :=
  (((ls.filterMap fun x => match stashFind b x.2 with
    | some (_, e, o) => if inList (o / 128) e.filled then none else some (e.off + o / 128 * 128)
    | none => none).eraseDups).map fun o => winFoot b o 128 true).flatten

/-- Lanes of LDX and STX: checked, then clear of what is in flight on their bytes; a fill writes its whole line (R191). -/
def withStash (s : State) (n : Need) (write : Bool) (ls : List (Nat × Nat)) (k : List (Nat × Nat × Loc) → State → State) : State :=
  let r := checkStash n s ls
  match r.2 with
  | .wait => stall r.1
  | .bad i ea c => raiseAt c i ea (dropMisses r.1 (requester s.cur))
  | .ok xs =>
    let fs := (ls.map fun x => match stashFind s.block x.2 with
      | some (_, e, o) => winFoot s.block (e.off + o) 4 write
      | none => []).flatten ++ (if write then [] else stashFills s.block ls)
    unwatched (dropMisses r.1 (requester s.cur)) (!write) write 4 ls fun s =>
      if windowBusy s fs then stall s else k (zipEas ls xs) s

/-- What a lane of LDX finds in the scratchpad: bytes of a filled line, or the dirty ones. -/
def stashLane (s : State) (x : Nat × Nat × Loc) : LaneLoad :=
  match stashFind s.block x.2.1 with
  | none => ⟨x.1, x.2.2, x.2.1, 4, 0, 0, false⟩
  | some (_, e, o) =>
    let full := inList (o / 128) e.filled
    let have_ := (List.range 4).foldl (fun m j => if full || inList (o + j) e.dirty then m + 2 ^ j else m) 0
    let bs := readWin s (e.off + o) 4
    ⟨x.1, x.2.2, x.2.1, 4, have_,
      (List.range 4).foldl (fun v j => if have_ / 2 ^ j % 2 = 1 then v + (bs.getD j 0).toNat * 256 ^ j else v) 0,
      full && inList (o / 32) e.pois && (List.range 4).any fun j => !inList (o + j) e.dirty⟩

/-- Line of a stash offset is not filled. -/
def unfilled (s : State) (ea : Nat) : Bool :=
  match stashFind s.block ea with
  | some (_, e, o) => !inList (o / 128) e.filled
  | none => false

def loadStash (o : MOp) (off : Int) (s : State) : State :=
  async s o.f raiseFault fun s =>
    withStash s ⟨true, false, false⟩ false (laneEas s o.s o.a o.g off) fun xs s =>
      let need := ((xs.filter fun x => unfilled s x.2.1).map fun x => lineLoc x.2.2).eraseDups
      let s := need.foldl (fun s l => flushLine s s.cur.core l) s
      let lanes := xs.map (stashLane s)
      let id := s.nextOp
      let u := s.cur
      let d := logV s o.d
      let fs := stashFills s.block (laneEas s o.s o.a o.g off)
      let s := issueOp s o.f false (.load d false lanes 1) (vecDests d false (maskOf (xs.map Prod.fst))) fs
      let s := modOp s id fun o => { o with fault := lanesFault true none lanes }
      if need.isEmpty then endNow (landLoad s id)
      else need.foldl (fun s l => sendReq s id u (ownerNow s) l (.load 15)) s

def storeStash (o : MSt) (off : Int) (s : State) : State :=
  withStash s ⟨false, true, false⟩ true (laneEas s o.s o.a o.g off) fun xs s =>
    let s0 := s
    let s := ((xs.map fun x => lineLoc x.2.2).eraseDups).foldl (fun s l => flushLine s s.cur.core l) s
    xs.foldl (fun s x =>
      match stashFind s.block x.2.1 with
      | none => s
      | some (k, e, p) =>
        let s := writeWin s (e.off + p) (natLe 4 (readV s0 o.d x.1).toNat)
        let s := clearCovered s 0 s.cur.core (winOffsets s.block (e.off + p) 4)
        s.modBlock fun b => { b with stash := tset b.stash k { e with
          dirty := [p, p + 1, p + 2, p + 3].foldl (fun l y => insertNat y l) e.dirty
          marks := tset e.marks (p / 128) ⟨s0.cur, x.2.1, originWord 0 s0.team.pkt s0.team.slot⟩ } }) s

/-- The pieces of a range by 64 KiB page: their first addresses. -/
def pageStarts (a n : Nat) : List Nat :=
  a :: (List.range ((a + n - 1) / 65536 - a / 65536)).map fun k => (a / 65536 + k + 1) * 65536

/-- XMAP with base address a (R148). -/
def mapStash (b : Nat) (off : Int) (s : State) : State :=
  let a := (((readS s b).toNat + off) % (2 : Int) ^ 64).toNat
  let w := (readS s (b + 1)).toNat
  let slot := fld w 56 3
  let len := fld w 32 21
  let loff := fld w 0 20
  let bad :=
    fld w 59 5 != 0 || fld w 53 3 != 0 || fld w 20 12 != 0 || loff % 128 != 0 || len % 128 != 0 || decide (len < 128) ||
    decide (1048576 < len) || a % 128 != 0 || (tget s.block.stash slot).isSome ||
    s.block.stash.any fun e => overlaps e.2.off e.2.len loff len || overlaps e.2.base e.2.len a len
  if bad then raiseCode 27 s
  else if !inWindow s.block loff len then raiseAt 94 0 loff s
  else
    withLanes s 1 ⟨false, true, false⟩ ((pageStarts a len).map fun v => (0, v)) fun xs s =>
      let pages := ((pageStarts a len).zip xs).map fun p => (p.1 / 65536, { p.2.2 with addr := p.2.2.addr - p.1 % 65536 })
      s.modBlock fun b => { b with stash := tset b.stash slot ⟨a, len, loff, pages, [], [], [], []⟩ }

def execXmap (b : Nat) (s : State) : Result := .next (mapStash b 0 s)
def execXmapLong (b off : Nat) (s : State) : Result := .next (mapStash b (sgn 24 off) s)

/-- The slot an operand of XUNMAP, XWB or XINV names; more than three bits raise 27. -/
def withSlot (b : Nat) (s : State) (k : Nat → State → State) : State :=
  if (readS s b).toNat < 8 then k (readS s b).toNat s else raiseCode 27 s

/-- XWB: the dirty bytes go home, the lines stay filled (R150). -/
def execXwb (b : Nat) (s : State) : Result := .next (withSlot b s fun k s => flushSlot s (blockKey s.cur) k)

/-- XUNMAP: XWB, then the slot is empty. -/
def execXunmap (b : Nat) (s : State) : Result :=
  .next (withSlot b s fun k s => (flushSlot s (blockKey s.cur) k).modBlock fun b => { b with stash := tdel b.stash k })

/-- XINV: filled and dirty state is discarded. A fill on its way still fills its line when it arrives (DESIGN CHOICE, log 65). -/
def execXinv (b : Nat) (s : State) : Result :=
  .next (withSlot b s fun k s => s.modBlock fun b =>
    match tget b.stash k with
    | some e => { b with stash := tset b.stash k { e with filled := [], dirty := [], pois := [] } }
    | none => b)

/-! ## The parameter block (R146) -/

/-- The launch's parameter bytes. -/
def paramBytes (s : State) : List Byte := match tget s.graphs s.block.gslot with | some g => g.params | none => []

def loadParam (n d b : Nat) (off : Int) (s : State) : State :=
  let a := eaOf s b 63 off 0
  if (paramBytes s).length < a + n then raiseAt 110 0 a s
  else if a % n ≠ 0 then raiseAt 106 0 a s
  else writeS s d (BitVec.ofNat 64 (leNat (((paramBytes s).drop a).take n)))

def execLdk32 (d b : Nat) (s : State) : Result := .next (loadParam 4 d b 0 s)
def execLdk32Long (d b off : Nat) (s : State) : Result := .next (loadParam 4 d b (sgn 24 off) s)
def execLdk64 (d b : Nat) (s : State) : Result := .next (loadParam 8 d b 0 s)
def execLdk64Long (d b off : Nat) (s : State) : Result := .next (loadParam 8 d b (sgn 24 off) s)

/-! ## Prefetch (R147) -/

/-- Lanes prefetched one after the other; one that fails a check is dropped. -/
def prefetchLanes : State → List Nat → State × Bool
  | s, [] => (s, true)
  | s, ea :: ls =>
    let r := checkMine s ea 1 ⟨true, false, false⟩
    match r.2 with
    | .wait => (r.1, false)
    | .bad _ => prefetchLanes r.1 ls
    | .ok l =>
      let q := prefetchLanes r.1 ls
      if q.2 && !((l1Get q.1 q.1.cur.core l).any fun x => x.valid) then
        (sendReq q.1 0 q.1.cur (ownerNow q.1) l (.load (2 ^ (l.addr % 128 / 32))), true)
      else q

def prefetch (a b g : Nat) (off : Int) (s : State) : State :=
  let r := prefetchLanes s ((laneEas s b a g off).map Prod.snd)
  if r.2 then dropMisses r.1 (requester s.cur) else stall r.1

def execPfg (a b g : Nat) (s : State) : Result :=
  .next (checked (operandCause (.pfg a b g) s) s fun s => prefetch a b g 0 s)
def execPfgLong (a b g off : Nat) (s : State) : Result :=
  .next (checked (operandCause (.pfgLong a b g off) s) s fun s => prefetch a b g (sgn 24 off) s)

/-! ## Tiles (R152 to R156) -/

/-- The shape word of a tile. -/
structure Shape where
  scope : Nat
  stride : Nat
  rb : Nat
  rows : Nat
  loff : Nat
  ok : Bool
deriving DecidableEq, Repr

def shapeOf (w : Nat) (store : Bool) : Shape :=
  let rb := (fld w 26 5 + 1) * 16
  let rows := fld w 20 6 + 1
  let stride := fld w 32 24 * 16
  ⟨fld w 56 3, stride, rb, rows, fld w 0 20,
    fld w 59 5 == 0 && fld w 31 1 == 0 && decide (rows * rb ≤ 16384) && decide (fld w 56 3 < 6) &&
      !(store && decide (1 < rows) && decide (stride < rb))⟩

/-- Address of row k. -/
def rowAt (base : Nat) (h : Shape) (k : Nat) : Nat := (base + k * h.stride) % 2 ^ 64

/-- A row in pieces of one page each: address and length. -/
def rowPieces (a n : Nat) : List (Nat × Nat) :=
  if a / 65536 = (a + n - 1) / 65536 then [(a, n)] else [(a, 65536 - a % 65536), (a + (65536 - a % 65536), n - (65536 - a % 65536))]

/-- The pages of a list of addresses, ascending. -/
def pagesOf (as : List Nat) : List Nat := as.foldl (fun l a => insertNat (a / 65536) l) []

/-- The piece at address a under page locations found by address. -/
def pieceLoc (ps : List (Nat × Loc)) (a : Nat) : Loc :=
  match ps.find? fun p => p.1 / 65536 == a / 65536 with
  | some p => { p.2 with addr := p.2.addr / 65536 * 65536 + a % 65536 }
  | none => ⟨0, 0, 0, 0, 0, 0, 0⟩

/-- The core offsets footprints stand for, in order. -/
def footOffsets (fs : List Foot) : List Nat := (fs.map fun f => (List.range f.len).map (f.start + ·)).flatten

/-- A core's sector without the bytes that `under` names: clean copies go, other dirty bytes stay. -/
def cutSector (core : Nat) (under : Loc → Nat → Bool) (x : L1Sector) : Option L1Sector :=
  let d := (List.range 32).foldl (fun (d : BitVec 32) j =>
    if under x.loc j then d &&& ~~~(BitVec.ofNat 32 (2 ^ j)) else d) x.dirty
  if !(x.core == core && (List.range 32).any (under x.loc)) then some x
  else if d = 0 then none
  else some { x with dirty := d, valid := false, pois := false }

/-- Lines of a tile's pieces. -/
def tileLines (ps : List (Loc × Nat × Nat)) : List Loc :=
  ((ps.map fun p => (linePieces p.1.addr 8 p.2.1).map fun q => lineLoc { p.1 with addr := q.1 }).flatten).eraseDups

/-- Byte j from a location lies under a tile. -/
def underTile (ps : List (Loc × Nat × Nat)) (l : Loc) (j : Nat) : Bool :=
  ps.any fun p =>
    { p.1 with addr := 0 } == { l with addr := 0 } && decide (p.1.addr ≤ l.addr + j) && decide (l.addr + j < p.1.addr + p.2.1)

/-- The dirty stash bytes of a core's blocks under a tile: changed by f, slot by slot. -/
def stashUnder (s : State) (core : Nat) (f : State → Nat → Nat → StashSlot → State) : State :=
  (coreBlocks s core).foldl (fun s key =>
    match tget s.blocks key with
    | none => s
    | some b => b.stash.foldl (fun s e => if e.2.dirty.isEmpty then s else f s key e.1 e.2) s) s

/-- L1 and stash bytes of the issuing core under a tile: a TST's are older and are discarded, a TLD's go home first (R154). -/
def clearUnder (s : State) (store : Bool) (ps : List (Loc × Nat × Nat)) : State :=
  let core := s.cur.core
  let lines := tileLines ps
  let under (e : StashSlot) (o : Nat) : Bool := (stashLoc e o).any fun l => underTile ps l 0
  let s :=
    if store then
      stashUnder { s with l1 := s.l1.filterMap (cutSector core (underTile ps)) } core fun s key slot e =>
        s.modBlockAt key fun b => { b with stash := tset b.stash slot { e with dirty := e.dirty.filter fun o => !under e o } }
    else
      stashUnder (lines.foldl (fun s l => flushLine s core l) s) core fun s key slot e =>
        (((e.dirty.filter (under e)).map fun o => o / 128).eraseDups).foldl (fun s k => writeBackStash s key slot k (under e)) s
  unfillWhere (lines.foldl (fun s l => noFill s core (sameLine l)) s) core fun l => underTile ps l 0

/-- A tile that passed its checks enters flight; at a peer it travels as one request (R154, R349). -/
def startTile (store : Bool) (f : Nat) (h : Shape) (ps : List (Loc × Nat × Nat)) (s : State) : State :=
  let n := h.rows * h.rb
  let fs := winFoot s.block h.loff n (!store)
  if windowBusy s fs then stall s
  else if store && winPoisoned s h.loff n then
    if f < 12 then s.modTeam fun t => t.recordFault f ⟨92, h.loff, originWord 0 t.pkt t.slot, 0, false⟩ else raiseAt 92 0 h.loff s
  else
    let data := if store then readWin s h.loff n else []
    let s := clearUnder s store ps
    let id := s.nextOp
    let u := s.cur
    let s := issueOp s f false (.tile store ps data h.scope false) [] fs
    match ps with
    | (l, _, _) :: _ =>
      if l.kind = 1 then
        sendPeer s l.part l.ctx u.core l.dest 1 id
          (if store then
            .tileWrite ((ps.foldl (fun (r : List (Nat × List Nat) × List Byte) p =>
              (r.1 ++ [(p.1.addr, ofBytes (r.2.take p.2.1))], r.2.drop p.2.1)) ([], data)).1)
          else .tileRead (ps.map fun p => (p.1.addr, p.2.1)))
      else s
    | [] => s

/-- TLD and TST: the checks of R153 in their order. -/
def tile (store : Bool) (b f : Nat) (off : Int) (s : State) : State :=
  async s f raiseFault fun s =>
    let h := shapeOf (readS s (b + 1)).toNat store
    let base := (((readS s b).toNat + off) % (2 : Int) ^ 64).toNat
    let rows := (List.range h.rows).map (rowAt base h)
    if !h.ok then raiseCode 27 s
    else if h.loff % 16 ≠ 0 then raiseAt 90 0 h.loff s
    else if !winOk s.block h.loff (h.rows * h.rb) then raiseAt 94 0 h.loff s
    else
      match rows.find? fun a => !(canonical a && canonical (a + h.rb - 1)) with
      | some a => raiseAt 64 0 a s
      | none =>
        if base % 16 ≠ 0 then withAddr s base 16 ⟨false, false, false⟩ fun _ s => s
        else
          let pieces := (rows.map fun a => rowPieces a h.rb).flatten
          let pages := (pagesOf (pieces.map Prod.fst)).map fun p =>
            (0, (pieces.map Prod.fst).foldl (fun m a => if a / 65536 = p then min m a else m) (p * 65536 + 65535))
          withLanes s 1 ⟨!store, store, true⟩ pages fun xs s =>
            let ls := (pages.map Prod.snd).zip (xs.map Prod.snd)
            let ps := pieces.map fun q => (pieceLoc ls q.1, q.2, q.1)
            match ps with
            | [] => s
            | (l, _, _) :: _ =>
              if ps.any fun p => p.1.kind != l.kind || p.1.dest != l.dest then raiseAt (70 + 8 * l.kind) 0 base s
              else if l.kind == 0 && h.scope == 5 then raiseCode 27 s
              else unwatched s (!store) store h.rb (rows.map fun a => (0, a)) fun s => startTile store f h ps s

def execTld (b f : Nat) (s : State) : Result := .next (tile false b f 0 s)
def execTldLong (b f off : Nat) (s : State) : Result := .next (tile false b f (sgn 24 off) s)
def execTst (b f : Nat) (s : State) : Result := .next (tile true b f 0 s)
def execTstLong (b f off : Nat) (s : State) : Result := .next (tile true b f (sgn 24 off) s)

/-- Another operation is an older tile with a common line (R155). -/
def tileBefore (ls : List Loc) (stamp : Nat) (o : Op) : Bool :=
  match o.kind with
  | .tile _ ps _ _ _ => decide (o.stamp < stamp) && (tileLines ps).any fun l => ls.any (sameLine l)
  | _ => false

/-- A tile may lock: no older tile shares a line, its core's earlier requests to its lines are performed, and every set it
locks in has a way to spare (R154, R155, R367). -/
def tileReady (s : State) (o : Op) (ps : List (Loc × Nat × Nat)) : Bool :=
  let ls := tileLines ps
  (ls.all fun l => l.kind == 0 && !lineLocked s l && decide (heldWays s (homeSlice s l) (l.addr / 128) < 12)) &&
    !(s.ops.any fun x => tileBefore ls o.stamp x.2) &&
    s.reqs.all fun r => !(r.2.core == o.unit.core && decide (r.2.stamp < o.stamp) && unperformed r.2 && ls.any (sameLine r.2.loc))

/-- Data of a tile load goes to the scratchpad, the bytes of poisoned sectors with their poison (R154). -/
def landTile (s : State) (o : Op) (bs : List Byte) (bad : List Bool) : State :=
  let offs := footOffsets o.foot
  let own := s.owner o.part
  let s := (offs.zip bs).foldl (fun s p => putLocal s 0 o.unit.core own p.1 [p.2]) s
  (offs.zip bad).foldl (fun s p => if p.2 then setPois s 0 o.unit.core p.1 1 else s) s

/-- TILE_LOCK_ACQUIRED: the tile holds all its lines and copies its rows. -/
def execTileLockAcquired (id : Nat) (s : State) : Result :=
  .next (match tget s.ops id with
    | none => s
    | some o =>
      match o.kind with
      | .tile store ps data scope false =>
        if !tileReady s o ps then s
        else
          let own := s.owner o.part
          let lock (s : State) : State :=
            (tileLines ps).foldl (fun s l =>
              let r := homeLine s (homeSlice s l) (l.addr / 128) own (ctxpOf l)
              modLine r.1 r.2 fun x => { x with lock := true }) s
          if store then
            let s := (ps.foldl (fun (r : State × List Byte) p => (homeWrite r.1 p.1 own (r.2.take p.2.1), r.2.drop p.2.1)) (s, data)).1
            modOp (lock s) id fun o => { o with kind := .tile store ps [] scope true }
          else
            let r := ps.foldl (fun (r : State × List Byte × List Bool × List (Nat × Bool)) p =>
              let q := homeMarked r.1 p.1 own p.2.1
              (q.1, r.2.1 ++ q.2.1, r.2.2.1 ++ q.2.2, r.2.2.2 ++ [(p.2.2, q.2.2.any (· == true))])) (s, [], [], [])
            let s := landTile (lock r.1) o r.2.1 r.2.2.1
            let f := (r.2.2.2.find? fun p => p.2).map fun p => (⟨68, p.1, 0, 0, false⟩ : FaultRec)
            modOp s id fun o => { o with kind := .tile store ps [] scope true, fault := f }
      | _ => s)

/-- TILE_COMPLETE: the lines are unlocked, the core's clean copies of them are dropped, the stash lines it covers are filled no longer, and
the flag is released. -/
def execTileComplete (id : Nat) (s : State) : Result :=
  .next (match tget s.ops id with
    | none => s
    | some o =>
      match o.kind with
      | .tile _ ps _ _ true =>
        let s := (tileLines ps).foldl (fun s l =>
          if l.kind = 0 then
            match findWay s (homeSlice s l) (l.addr / 128) with
            | some k => modLine s k fun x => { x with lock := false }
            | none => s
          else s) s
        let s := dropClean s o.unit.core fun l => (tileLines ps).any (sameLine l)
        endOp (unfillWhere s o.unit.core fun l => underTile ps l 0) id
      | _ => s)

/-! ## Code as data (R88) -/

/-- SLDL of code-relative address a: in U mode the kernel's image as it was loaded, in P mode the handler image (R281). The manual says neither
when the handler image is loaded nor what a failed read of it raises: it is read from memory as it stands, through translation, and a
failed walk or permission raises its code of R142 (DESIGN CHOICE, log 66). -/
def loadCode (d a : Nat) (s : State) : State :=
  if a % 8 ≠ 0 ∨ imagePackets s * 12 < a + 8 then raiseCode 3 s
  else if s.src.priv then
    let r := checkMine s (imageBase s + a) 8 ⟨true, false, true⟩
    match r.2 with
    | .wait => stall r.1
    | .bad c => raiseAt c 0 (imageBase s + a) (dropMisses r.1 (requester s.cur))
    | .ok l =>
      let q := homeNat (dropMisses r.1 (requester s.cur)) l (ownerNow s) 8
      writeS q.1 d (BitVec.ofNat 64 q.2.1)
  else writeS s d (BitVec.ofNat 64 (leNat (mread s.block.kern.image a 8)))

/-- The address S[A] + imm. -/
def codeAddr (s : State) (a : Nat) (imm : Int) : Nat := (((readS s a).toNat + imm) % (2 : Int) ^ 64).toNat

def execSldl (d a i : Nat) (s : State) : Result := .next (loadCode d (codeAddr s a (sgn 12 i)) s)
def execSldlLong (d a i : Nat) (s : State) : Result := .next (loadCode d (codeAddr s a (sgn 32 i)) s)

/-! ## The loads and stores themselves -/

/-- LDG.8: a global load of 1 byte (R143). -/
def execLdg8 (o : MOp) (s : State) : Result :=
  .next (checked (operandCause (.ldg8 o) s) s fun s => loadGlobal 1 false o 0 s)

/-- STG.8: a posted global store of 1 byte (R143). -/
def execStg8 (o : MSt) (s : State) : Result :=
  .next (checked (operandCause (.stg8 o) s) s fun s => storeGlobal 1 false o 0 s)

/-- LDG.8 with an offset: a global load of 1 byte (R143). -/
def execLdg8Long (o : MOp) (off : Nat) (s : State) : Result :=
  .next (checked (operandCause (.ldg8Long o off) s) s fun s => loadGlobal 1 false o (sgn 24 off) s)

/-- STG.8 with an offset: a posted global store of 1 byte (R143). -/
def execStg8Long (o : MSt) (off : Nat) (s : State) : Result :=
  .next (checked (operandCause (.stg8Long o off) s) s fun s => storeGlobal 1 false o (sgn 24 off) s)

/-- LDG.16: a global load of 2 bytes (R143). -/
def execLdg16 (o : MOp) (s : State) : Result :=
  .next (checked (operandCause (.ldg16 o) s) s fun s => loadGlobal 2 false o 0 s)

/-- STG.16: a posted global store of 2 bytes (R143). -/
def execStg16 (o : MSt) (s : State) : Result :=
  .next (checked (operandCause (.stg16 o) s) s fun s => storeGlobal 2 false o 0 s)

/-- LDG.16 with an offset: a global load of 2 bytes (R143). -/
def execLdg16Long (o : MOp) (off : Nat) (s : State) : Result :=
  .next (checked (operandCause (.ldg16Long o off) s) s fun s => loadGlobal 2 false o (sgn 24 off) s)

/-- STG.16 with an offset: a posted global store of 2 bytes (R143). -/
def execStg16Long (o : MSt) (off : Nat) (s : State) : Result :=
  .next (checked (operandCause (.stg16Long o off) s) s fun s => storeGlobal 2 false o (sgn 24 off) s)

/-- LDG.32: a global load of 4 bytes (R143). -/
def execLdg32 (o : MOp) (s : State) : Result :=
  .next (checked (operandCause (.ldg32 o) s) s fun s => loadGlobal 4 false o 0 s)

/-- STG.32: a posted global store of 4 bytes (R143). -/
def execStg32 (o : MSt) (s : State) : Result :=
  .next (checked (operandCause (.stg32 o) s) s fun s => storeGlobal 4 false o 0 s)

/-- LDG.32 with an offset: a global load of 4 bytes (R143). -/
def execLdg32Long (o : MOp) (off : Nat) (s : State) : Result :=
  .next (checked (operandCause (.ldg32Long o off) s) s fun s => loadGlobal 4 false o (sgn 24 off) s)

/-- STG.32 with an offset: a posted global store of 4 bytes (R143). -/
def execStg32Long (o : MSt) (off : Nat) (s : State) : Result :=
  .next (checked (operandCause (.stg32Long o off) s) s fun s => storeGlobal 4 false o (sgn 24 off) s)

/-- LDG.64: a global load of 8 bytes (R143). -/
def execLdg64 (o : MOp) (s : State) : Result :=
  .next (checked (operandCause (.ldg64 o) s) s fun s => loadGlobal 8 true o 0 s)

/-- STG.64: a posted global store of 8 bytes (R143). -/
def execStg64 (o : MSt) (s : State) : Result :=
  .next (checked (operandCause (.stg64 o) s) s fun s => storeGlobal 8 true o 0 s)

/-- LDG.64 with an offset: a global load of 8 bytes (R143). -/
def execLdg64Long (o : MOp) (off : Nat) (s : State) : Result :=
  .next (checked (operandCause (.ldg64Long o off) s) s fun s => loadGlobal 8 true o (sgn 24 off) s)

/-- STG.64 with an offset: a posted global store of 8 bytes (R143). -/
def execStg64Long (o : MSt) (off : Nat) (s : State) : Result :=
  .next (checked (operandCause (.stg64Long o off) s) s fun s => storeGlobal 8 true o (sgn 24 off) s)

/-- LDL.32: scratchpad (R143, R190). -/
def execLdl32 (o : MOp) (s : State) : Result :=
  .next (checked (operandCause (.ldl32 o) s) s fun s => loadLocal 4 false o 0 s)

/-- STL.32: scratchpad (R143, R190). -/
def execStl32 (o : MSt) (s : State) : Result :=
  .next (checked (operandCause (.stl32 o) s) s fun s => storeLocal 4 false o 0 s)

/-- LDL.32 with an offset: scratchpad (R143, R190). -/
def execLdl32Long (o : MOp) (off : Nat) (s : State) : Result :=
  .next (checked (operandCause (.ldl32Long o off) s) s fun s => loadLocal 4 false o (sgn 24 off) s)

/-- STL.32 with an offset: scratchpad (R143, R190). -/
def execStl32Long (o : MSt) (off : Nat) (s : State) : Result :=
  .next (checked (operandCause (.stl32Long o off) s) s fun s => storeLocal 4 false o (sgn 24 off) s)

/-- LDL.64: scratchpad (R143, R190). -/
def execLdl64 (o : MOp) (s : State) : Result :=
  .next (checked (operandCause (.ldl64 o) s) s fun s => loadLocal 8 true o 0 s)

/-- STL.64: scratchpad (R143, R190). -/
def execStl64 (o : MSt) (s : State) : Result :=
  .next (checked (operandCause (.stl64 o) s) s fun s => storeLocal 8 true o 0 s)

/-- LDL.64 with an offset: scratchpad (R143, R190). -/
def execLdl64Long (o : MOp) (off : Nat) (s : State) : Result :=
  .next (checked (operandCause (.ldl64Long o off) s) s fun s => loadLocal 8 true o (sgn 24 off) s)

/-- STL.64 with an offset: scratchpad (R143, R190). -/
def execStl64Long (o : MSt) (off : Nat) (s : State) : Result :=
  .next (checked (operandCause (.stl64Long o off) s) s fun s => storeLocal 8 true o (sgn 24 off) s)

/-- LDX: through a stash mapping (R149). -/
def execLdx (o : MOp) (s : State) : Result :=
  .next (checked (operandCause (.ldx o) s) s fun s => loadStash o 0 s)

/-- STX: through a stash mapping (R149). -/
def execStx (o : MSt) (s : State) : Result :=
  .next (checked (operandCause (.stx o) s) s fun s => storeStash o 0 s)

/-- LDX with an offset: through a stash mapping (R149). -/
def execLdxLong (o : MOp) (off : Nat) (s : State) : Result :=
  .next (checked (operandCause (.ldxLong o off) s) s fun s => loadStash o (sgn 24 off) s)

/-- STX with an offset: through a stash mapping (R149). -/
def execStxLong (o : MSt) (off : Nat) (s : State) : Result :=
  .next (checked (operandCause (.stxLong o off) s) s fun s => storeStash o (sgn 24 off) s)

end Sys2Proof.Machine
end

