-- ==== Sys2Proof/Machine/Atomic.lean ====
section
/-! DEFINITION. Atomics and reduces, global and in the scratchpad (R157 to R164), and programmable tables (R127 to R129). -/

namespace Sys2Proof.Machine

/-- The lanes of an atomic with their addresses (R157). -/
def atomEas (s : State) (b v g : Nat) : List (Nat × Nat) := laneEas s b v g 0

/-- Acquire and release in MODE (R82). -/
def isAcquire (m : Nat) : Bool := m % 2 == 1
def isRelease (m : Nat) : Bool := decide (2 ≤ m)

/-- Run k once the release steps of a scope are done (R182, R184). -/
def afterRelease (s : State) (want : Bool) (scope : Nat) (k : State → State) : State :=
  if want then
    let r := releaseStep s scope 0
    if r.2 then k r.1 else stall r.1
  else k s

/-- The lanes of an atomic as its requests carry them. -/
def atomLanes (s : State) (wide : Bool) (cr d : Nat) (xs : List (Nat × Nat × Loc)) : List LaneAtom :=
  xs.map fun x => ⟨x.1, x.2.2, x.2.1, readN s wide cr x.1, readN s wide d x.1, 0, false⟩

/-- The requests of an atomic: one a line, two for a packed one, in the order of the lowest lane (R161, R162, R365). -/
def sendAtoms (s : State) (kind : Nat) (lanes : List LaneAtom) (send : State → Loc → Nat → List LaneAtom → State) : State :=
  (touchedLines (lanes.map LaneAtom.loc)).foldl (fun s l =>
    let s := flushCore s s.cur.core l.1 l.2
    let as := lanes.filter fun x => lineLoc x.loc == l.1
    if kind < 2 ∨ l.1.kind ≠ 0 then send s l.1 0 as else send (send s l.1 1 as) l.1 2 as) s

/-- ATG once its lanes are checked and its release is done. -/
def startAtom (o : AtOp) (xs : List (Nat × Nat × Loc)) (s : State) : State :=
  let wide := o.kind == 1
  let lanes := atomLanes s wide o.cr o.d xs
  let id := s.nextOp
  let u := s.cur
  let own := ownerNow s
  let d := logV s o.d
  let s := issueOp s o.f (isAcquire o.mode) (.atomic d wide lanes (isAcquire o.mode)) (vecDests d wide (maskOf (xs.map Prod.fst))) []
  let s := sendAtoms s o.kind lanes fun s l half as => sendReq s id u own l (.atomic o.op o.kind half as)
  if lanes.isEmpty then landAtomic s id else s

/-- The end of an atomic that its team waited for: an acquire takes its steps, a poisoned lane is reported after the rest has
taken effect (R164, R184). -/
def endAtom (o : AtOp) (r : Option FaultRec) (s : State) : State :=
  if isAcquire o.mode && readsLeft s then stall s
  else
    let s := setWait (if isAcquire o.mode then acquireStep s o.scope else s) .none
    match r with
    | none => s.withFate .completed
    | some f => raise { causeOf f.code with lane := f.lane, addr := f.addr, after := true, ovf := f.ovf } s

/-- ATG (R157 to R164). -/
def execAtg (o : AtOp) (s : State) : Result :=
  .next (checked (operandCause (.atg o) s) s fun s =>
    match myWait s with
    | .op _ => stall s
    | .done r => endAtom o r s
    | _ =>
      if !flagRoom s o.f then stall s
      else
        let eas := atomEas s o.s o.v o.g
        withLanes s (kindSize o.kind) ⟨true, true, true⟩ eas fun xs s =>
          unwatched s true true (kindSize o.kind) eas fun s =>
            afterRelease s (isRelease o.mode) o.scope fun s =>
              let s := startAtom o (zipEas eas xs) s
              match myWait s with
              | .done r => endAtom o r s
              | _ => s)

/-- REDG: posted (R163). -/
def execRedg (o : RedOp) (s : State) : Result :=
  .next (checked (operandCause (.redg o) s) s fun s =>
    let eas := atomEas s o.s o.v o.g
    withLanes s (kindSize o.kind) ⟨true, true, true⟩ eas fun xs s =>
      unwatched s true true (kindSize o.kind) eas fun s =>
      afterRelease s (isRelease o.mode) o.scope fun s =>
        let lanes := atomLanes s (o.kind == 1) o.cr o.cr (zipEas eas xs)
        let det := s.myCtx.redmode % 2 == 1
        let org := originWord 0 s.team.pkt s.team.slot
        sendAtoms s o.kind lanes fun s l half as =>
          sendReq s 0 s.cur (ownerNow s) l (.reduce o.op o.kind half as det) 0 org)

/-! ## In the scratchpad (R159) -/

/-- Lanes applied one after the other, each a write that sleepers test; a poisoned location is left as it is. -/
def localAtoms (op kind : Nat) : State → List LaneAtom → State × List LaneAtom
  | s, [] => (s, [])
  | s, a :: as =>
    let n := kindSize kind
    if winPoisoned s a.ea n then
      let r := localAtoms op kind s as
      (r.1, { a with pois := true } :: r.2)
    else
      let old := leNat (readWin s a.ea n)
      let r := localAtoms op kind (wakeSleepers (writeWin s a.ea (natLe n (atomNew op kind 0 old a.src a.exp)))) as
      (r.1, { a with old := old } :: r.2)

def noLoc : Loc := ⟨0, 0, 0, 0, 0, 0, 0⟩

/-- ATL. -/
def execAtl (o : AtOp) (s : State) : Result :=
  .next (checked (operandCause (.atl o) s) s fun s =>
    let eas := atomEas s o.s o.v o.g
    let n := kindSize o.kind
    withLocal? s n true eas fun s =>
      if !flagRoom s o.f || (isAcquire o.mode && readsLeft s) then stall s
      else
        afterRelease s (isRelease o.mode) o.scope fun s =>
          let wide := o.kind == 1
          let r := localAtoms o.op o.kind s (atomLanes s wide o.cr o.d (eas.map fun x => (x.1, x.2, noLoc)))
          let good := (r.2.filter fun a => !a.pois).map fun a => (a.lane, a.old)
          let bad := r.2.filter fun a => a.pois
          let f := bad.head?.map fun a => (⟨92, a.ea, 0, a.lane, false⟩ : FaultRec)
          if o.f < 12 then landFlagged r.1 o.f o.d wide good (bad.map fun a => a.lane) f
          else
            let s := writeN r.1 wide o.d good
            match f with
            | none => s
            | some f =>
              let m := maskOf (bad.map fun a => a.lane)
              let s := s.modTeam fun t => { t with
                unspec := t.unspec ++ (vecDests (logV s o.d) wide m).map fun x => ⟨x.1, x.2.1, x.2.2⟩ }
              raise { causeOf f.code with lane := f.lane, addr := f.addr, after := true } s)

/-- REDL: an update dropped on poison is logged (R164). -/
def execRedl (o : RedOp) (s : State) : Result :=
  .next (checked (operandCause (.redl o) s) s fun s =>
    let eas := atomEas s o.s o.v o.g
    withLocal? s (kindSize o.kind) true eas fun s =>
      afterRelease s (isRelease o.mode) o.scope fun s =>
        let r := localAtoms o.op o.kind s (atomLanes s (o.kind == 1) o.cr o.cr (eas.map fun x => (x.1, x.2, noLoc)))
        r.2.foldl (fun s a =>
          if a.pois then logRas s s.block.part 92 s.cur.core ((winByte s.block a.ea).getD 0) s.block.ctx else s) r.1)

/-! ## Programmable tables (R127 to R129) -/

/-- Keys of a core's table n and of its banks. -/
def tableKey (core n : Nat) : Nat := core * 4 + n
def bankKey (core n bank : Nat) : Nat := tableKey core n * 2 + bank

/-- The current bank of a table, if it is loaded. -/
def tableNow (s : State) (core n : Nat) : Option Bank := tget s.tables (bankKey core n ((tget s.tabCur (tableKey core n)).getD 0))

/-- A header is legal: N, SHIFT, X0 and reserved bytes (R127). -/
def headerOk (h : Nat) : Bool :=
  let n := fld h 48 16
  let sh := sgn 16 (fld h 32 16)
  decide (2 ≤ n) && decide (n ≤ 1024) && decide (-126 ≤ sh) && decide (sh ≤ 126) &&
    !(ffF32.isNaN (fld h 0 32) || ffF32.isInf (fld h 0 32)) && fld h 64 64 == 0

/-- A load of table n on the core is under way. -/
def tableBusy (s : State) (core n : Nat) : Bool :=
  s.ops.any fun o => o.2.unit.core == core &&
    (match o.2.kind with
     | .tabld m _ _ _ => m == n
     | _ => false)

/-- TABLD: checks the header and starts loading the shadow bank (R128). Poison in the header raises 92 at issue, flag or no flag (DESIGN
CHOICE, log 81); bytes of a mapped stash range are read as the scratchpad holds them (DESIGN CHOICE, log 82). -/
def execTabld (n b f : Nat) (s : State) : Result :=
  .next (async s f raiseFault fun s =>
    let off := (readS s b).toNat
    if off % 16 ≠ 0 ∨ inWindow s.block off 16 = false then raiseAt 19 0 off s
    else if windowBusy s (winFoot s.block off 16 false) then stall s
    else if winPoisoned s off 16 then raiseAt 92 0 off s
    else
      let hb := readWin s off 16
      let h := leNat hb
      let len := 16 + 4 * fld h 48 16
      if !headerOk h || !inWindow s.block off len then raiseAt 19 0 off s
      else if tableBusy s s.cur.core n || windowBusy s (winFoot s.block off len false) then stall s
      else issueOp s f false (.tabld n off (fld h 48 16) hb) [] (winFoot s.block off len false))

/-- TABLE_SWAP: the copy completes, the shadow bank becomes current, the flag is released; poison cancels the swap (R128). -/
def execTableSwap (core n : Nat) (s : State) : Result :=
  .next (match s.ops.find? fun o => o.2.unit.core == core && (match o.2.kind with | .tabld m _ _ _ => m == n | _ => false) with
    | none => s
    | some (id, o) =>
      match o.kind with
      | .tabld _ off cnt hb =>
        let offs := (footOffsets o.foot).drop 16
        if offs.any fun w => poisoned s 0 core w 1 then
          endOp (modOp s id fun o => { o with fault := some ⟨92, off, 0, 0, false⟩ }) id
        else
          let bs := offs.map fun w => readLocal1 s 0 core (s.owner o.part) w
          let h := leNat hb
          let es := (List.range cnt).map fun j => (BitVec.ofNat 32 (leNat ((bs.drop (4 * j)).take 4)) : Word)
          let sh := 1 - (tget s.tabCur (tableKey core n)).getD 0
          endOp { s with
            tables := tset s.tables (bankKey core n sh) ⟨cnt, fld h 32 16, fld h 0 32, es⟩
            tabCur := tset s.tabCur (tableKey core n) sh } id
      | _ => s)

/-- FTAB of one lane (R129). -/
def tableAt (b : Bank) (rm x : Nat) : Nat × Nat :=
  let f := ffF32
  let y (j : Nat) : Nat := (b.entries.getD j 0).toNat
  if f.isNaN x then (f.quiet x, f.sigFlag [x])
  else if f.isInf x then ((if f.neg x then y 0 else y (b.n - 1)), 0)
  else
    let t := ((f.val x).sub (f.val b.x0)).scale (sgn 16 b.shift)
    if t.m ≤ 0 then (y 0, 0)
    else if !t.lt ⟨((b.n - 1 : Nat) : Int), 0⟩ then (y (b.n - 1), 0)
    else
      let j := t.floor.toNat
      let fr := t.sub ⟨(j : Int), 0⟩
      let y0 := y j
      let y1 := y (j + 1)
      match f.nanOf [y0, y1] with
      | some r => r
      | none =>
        if f.isInf y0 then f.invalid
        else if f.isInf y1 then (if fr.isZero then f.invalid else (y1, 0))
        else
          let d := (f.val y1).sub (f.val y0)
          let dneg := if d.isZero then zeroSign rm [f.neg y1, !f.neg y0] else decide (d.m < 0)
          f.round rm false (zeroSign rm [f.neg y0, dneg]) ((f.val y0).add (fr.mul d))

/-- FTAB: an empty table raises 19 (R129). -/
def execFtab (d a n g : Nat) (s : State) : Result :=
  .next (checked (operandCause (.ftab d a n g) s) s fun s =>
    match tableNow s s.cur.core n with
    | none => raiseCode 19 s
    | some b => laneOp s 3 g false d fun i => tableAt b (roundMode s 7) (readV s a i).toNat)

end Sys2Proof.Machine
end

