-- ==== Sys2Proof/Machine/Queue.lean ====
section
/-! DEFINITION. Queues and mangers: descriptors, ENQ, DEQ, GRAB, QLEN, QCLS, refill and closing (R165 to R172, R263). -/

namespace Sys2Proof.Machine

/-! ## Descriptors (R165) -/

/-- A number with its bits lo to lo + n − 1 replaced. -/
def setFld (x lo n v : Nat) : Nat := x - fld x lo n * 2 ^ lo + v % 2 ^ n * 2 ^ lo

def qRing (d : Nat) : Nat := fld d 0 64
def qSpill (d : Nat) : Nat := fld d 64 64
def qSpcap (d : Nat) : Nat := fld d 128 32
def qCap (d : Nat) : Nat := fld d 160 16 + 1
def qLowat (d : Nat) : Nat := max (fld d 176 16) 1
def qKind (d : Nat) : Nat := fld d 200 4
def qRec (d : Nat) : Nat := if qKind d = 3 then 16 else (fld d 192 8 + 1) * 16
def qClosed (d : Nat) : Bool := fld d 204 1 == 1
def qProds (d : Nat) : Nat := fld d 207 9
def qWslot (d : Nat) : Nat := fld d 216 12
def qWen (d : Nat) : Bool := fld d 228 1 == 1
def qRhead (d : Nat) : Nat := fld d 232 16
def qRcnt (d : Nat) : Nat := fld d 248 17
def qShead (d : Nat) : Nat := fld d 272 32
def qScnt (d : Nat) : Nat := fld d 304 32
def qExtx (d : Nat) : Nat := fld d 336 32
def qExty (d : Nat) : Nat := fld d 368 32
def qNext (d : Nat) : Nat := fld d 400 40
def qTotal (d : Nat) : Nat := fld d 440 40

/-- A non-zero reserved bit. -/
def qReserved (d : Nat) : Bool := fld d 480 32 != 0 || fld d 265 7 != 0 || fld d 229 3 != 0 || fld d 205 2 != 0

/-- A non-zero reserved bit or a reserved QKIND. -/
def qBad (d : Nat) : Bool := qReserved d || decide (3 < qKind d)

/-- The backlog of a queue. -/
def qBacklog (d : Nat) : Nat := if qKind d = 1 then qTotal d - qNext d else qRcnt d + qScnt d

/-- Nothing is left in it. -/
def qEmpty (d : Nat) : Bool := qBacklog d == 0

def qOwner (s : State) (q : Loc) : Nat := s.owner q.part

/-- The descriptor as its home slice has it. -/
def readDesc (s : State) (q : Loc) : State × Nat :=
  let r := homeNat s q (qOwner s q) 64
  (r.1, r.2.1)

/-- The descriptor written back; its home slice knows the queue from then on (R300). -/
def writeDesc (s : State) (q : Loc) (d : Nat) : State :=
  let s := homeWrite s q (qOwner s q) (natLe 64 d)
  { s with queueLocs := if s.queueLocs.any (· == q) then s.queueLocs else s.queueLocs ++ [q] }

/-- Where a global address of the queue's context lies (log 27). -/
def ctxLoc (s : State) (part ctx va : Nat) : State × Option Loc :=
  let r := walk s part ctx 0 va
  (r.1, r.2.map fun e => leafLoc part ctx e.1 e.2 va)

/-- The pieces of [va, va + n) of a context by page: their places, on NORMAL pages, and lengths. -/
def ctxPieces (s : State) (part ctx va n : Nat) : State × List (Option Loc × Nat) :=
  (pageStarts va n).foldl (fun r a =>
    let q := ctxLoc r.1 part ctx a
    (q.1, r.2 ++ [(q.2.filter fun l => l.kind == 0, min (va + n) (a / 65536 * 65536 + 65536) - a)])) (s, [])

/-- Bytes of global memory of a context; those of a page that is not mapped here read as zero (log 27). Poison in them is passed over: the
bytes count as they stand (DESIGN CHOICE, log 73). -/
def readCtx (s : State) (part ctx va n : Nat) : State × List Byte :=
  let ps := ctxPieces s part ctx va n
  ps.2.foldl (fun r p =>
    match p.1 with
    | some l => (let x := homeRead r.1 l (r.1.owner part) p.2; (x.1, r.2 ++ x.2.1))
    | none => (r.1, r.2 ++ List.replicate p.2 0)) (ps.1, [])

/-- Bytes written to global memory of a context; those for a page that is not mapped here are dropped (log 27). -/
def writeCtx (s : State) (part ctx va : Nat) (bs : List Byte) : State :=
  let ps := ctxPieces s part ctx va bs.length
  (ps.2.foldl (fun (r : State × List Byte) p =>
    match p.1 with
    | some l => (homeWrite r.1 l (r.1.owner part) (r.2.take p.2), r.2.drop p.2)
    | none => (r.1, r.2.drop p.2)) (ps.1, bs)).1

/-- A line is pinned where the set has a way to spare for it (R165, R367). -/
def pinLine (s : State) (l : Loc) : State :=
  match findWay s (homeSlice s l) (l.addr / 128) with
  | none => s
  | some k =>
    let x := lineAt s k
    if x.pin || x.lock || x.rdp || decide (heldWays s (homeSlice s l) (l.addr / 128) < 12) then modLine s k fun x => { x with pin := true }
    else s

/-- The lines of [va, va + n) of a ring are pinned from their first use on (R165, log 74). -/
def pinRing (s : State) (part ctx va n : Nat) : State :=
  let ps := ctxPieces s part ctx va n
  ps.2.foldl (fun s p =>
    match p.1 with
    | some l => (linePieces l.addr (p.2 / 128 + 2) p.2).foldl (fun s q => pinLine s { l with addr := q.1 }) s
    | none => s) ps.1

def ringAddr (d i : Nat) : Nat := qRing d + i % qCap d * qRec d
def spillAddr (d i : Nat) : Nat := qSpill d + i % qSpcap d * qRec d

/-- Record i of a queue's ring, read and written. -/
def readRing (s : State) (q : Loc) (d i : Nat) : State × List Byte :=
  let r := readCtx s q.part q.ctx (ringAddr d i) (qRec d)
  (pinRing r.1 q.part q.ctx (ringAddr d i) (qRec d), r.2)

def writeRing (s : State) (q : Loc) (d i : Nat) (bs : List Byte) : State :=
  pinRing (writeCtx s q.part q.ctx (ringAddr d i) bs) q.part q.ctx (ringAddr d i) bs.length

/-! ## Steps at the home slice (R167 to R172) -/

/-- One record placed: at the ring tail, at the spill tail, or refused. -/
def putRecord (s : State) (q : Loc) (d : Nat) (r : List Byte) : State × Nat × Bool :=
  if qScnt d = 0 ∧ qRcnt d < qCap d then
    (writeRing s q d (qRhead d + qRcnt d) r, setFld d 248 17 (qRcnt d + 1), true)
  else if qScnt d < qSpcap d then
    (writeCtx s q.part q.ctx (spillAddr d (qShead d + qScnt d)) r, setFld d 304 32 (qScnt d + 1), true)
  else (s, d, false)

/-- Records placed in order until one is refused; the number accepted. -/
def putRecords (q : Loc) : State → Nat → List (List Byte) → State × Nat × Nat
  | s, d, [] => (s, d, 0)
  | s, d, r :: rs =>
    let p := putRecord s q d r
    if p.2.2 then
      let x := putRecords q p.1 p.2.1 rs
      (x.1, x.2.1, x.2.2 + 1)
    else (p.1, p.2.1, 0)

/-- Records taken from the ring head. -/
def takeRecords (q : Loc) : State → Nat → Nat → State × Nat × List (List Byte)
  | s, d, 0 => (s, d, [])
  | s, d, k + 1 =>
    let r := readRing s q d (qRhead d)
    let d' := setFld (setFld d 232 16 ((qRhead d + 1) % qCap d)) 248 17 (qRcnt d - 1)
    let x := takeRecords q r.1 d' k
    (x.1, x.2.1, r.2 :: x.2.2)

/-- A refill begins when its condition holds (R168). -/
def startRefill (s : State) (q : Loc) (d : Nat) : State :=
  if qScnt d = 0 ∨ qLowat d ≤ qRcnt d ∨ qKind d = 1 ∨ s.refills.any (fun r => r.2 == q) then s
  else { s with refills := tset s.refills s.nextOp q, nextOp := s.nextOp + 1 }

/-- A whole step on a descriptor: f changes it, and a refill starts where its condition became true. -/
def queueStep {α : Type} (s : State) (q : Loc) (f : State → Nat → State × Nat × α) : State × α :=
  let r := readDesc s q
  let x := f r.1 r.2
  (startRefill (writeDesc x.1 q x.2.1) q x.2.1, x.2.2)

/-- ENQ of a list of records at the home slice: accepted, status. -/
def enqueue (s : State) (q : Loc) (all : Bool) (recs : List (List Byte)) : State × Nat × Nat :=
  let r := queueStep s q fun s d =>
    let room := if qScnt d = 0 then (qCap d - qRcnt d) + (qSpcap d - qScnt d) else qSpcap d - qScnt d
    if qClosed d then (s, d, (0, 3))
    else if all && decide (room < recs.length) then (s, d, (0, 4))
    else
      let x := putRecords q s d recs
      (x.1, x.2.1, (x.2.2, if x.2.2 < recs.length then 4 else 0))
  (r.1, r.2.1, r.2.2)

/-- DEQ of at most n records: the records and whether the queue is at its end. -/
def dequeue (s : State) (q : Loc) (n : Nat) : State × List (List Byte) × Bool :=
  let r := queueStep s q fun s d =>
    let x := takeRecords q s d (min n (qRcnt d))
    (x.1, x.2.1, (x.2.2, qClosed x.2.1 && qEmpty x.2.1))
  (r.1, r.2.1, r.2.2)

/-- A close, serialised at the home slice (R171). -/
def closeQueue (s : State) (q : Loc) : State :=
  (queueStep s q fun s d =>
    let d := setFld d 204 1 1
    (s, if qKind d = 1 then setFld d 400 40 (qTotal d) else d, ())).1

/-- The remaining dequeue budget of a block, none for no limit (R28). -/
def budgetLeft (s : State) (key : Nat) : Option Nat :=
  match tget s.blocks key with
  | some b => if b.budget = 0 then none else some (b.budget - b.counted)
  | none => none

/-- Records delivered to a block from its input queue (R28, R33). -/
def countRecords (s : State) (key k : Nat) : State :=
  s.modBlockAt key fun b => { b with counted := b.counted + k, recs := b.recs + k }

/-- The queue an operation goes to. -/
def opQueue (o : Op) : Option Loc :=
  match o.kind with
  | .enq q _ _ _ _ _ _ => some q
  | .deq q _ _ _ _ _ _ _ => some q
  | .grab q _ _ _ _ _ => some q
  | _ => none

/-- The operation has been answered. -/
def opAnswered (o : Op) : Bool :=
  match o.kind with
  | .enq _ _ _ _ _ _ r => r.isSome
  | .deq _ _ _ _ _ _ _ r => r.isSome
  | .grab _ _ _ _ _ r => r.isSome
  | _ => false

/-- A queue operation arrives only after those its core sent to the same slice before it (R371). -/
def queueReady (s : State) (id : Nat) (o : Op) (q : Loc) : Bool :=
  o.arrive == 0 && !opAnswered o &&
  (s.ops.all fun x => !(decide (x.1 < id) && x.2.unit.core == o.unit.core && x.2.arrive == 0 && !opAnswered x.2 &&
    (opQueue x.2).any fun q' => homeSlice s q' == homeSlice s q)) &&
  s.reqs.all fun r => !(decide (r.1 < id) && r.2.core == o.unit.core && r.2.stage == .sent && r.2.loc.kind == 0 &&
    homeSlice s r.2.loc == homeSlice s q && !lineLocked s r.2.loc)

/-- A DEQ that waits at the slice. -/
def heldDeq (q : Loc) (o : Op) : Bool :=
  match o.kind with
  | .deq q' _ _ _ _ _ _ r => q' == q && r.isNone && o.arrive != 0
  | _ => false

/-- What a DEQ or GRAB may take: its lanes, cut by the budget when it counts; and whether the budget left nothing. -/
def budgetCut (s : State) (o : Op) (n : Nat) (inq : Bool) : Nat × Bool :=
  match inq, budgetLeft s (blockKey o.unit) with
  | true, some b => (min n b, decide (0 < n ∧ b = 0))
  | _, _ => (n, false)

/-- The lanes of a mask. -/
def laneCount (m : Lanes) : Nat := (lanesOf m 1024).length

/-- ENQ_AT_HOME: the home slice places the accepted records (R167). -/
def execEnqAtHome (id : Nat) (s : State) : Result :=
  .next (match tget s.ops id with
    | none => s
    | some o =>
      match o.kind with
      | .enq q all pa x recs act none =>
        if !queueReady s id o q then s
        else
          let r := enqueue s q all (recs.map Prod.snd)
          modOp r.1 id fun o => { o with kind := .enq q all pa x [] act (some r.2) }
      | _ => s)

/-- A DEQ is served now, or held when it would deliver nothing and waits (R169). -/
def serveDeq (s : State) (id : Nat) : State :=
  match tget s.ops id with
  | none => s
  | some o =>
    match o.kind with
    | .deq q wait pa x rec act inq none =>
      let (n, cut) := budgetCut s o (laneCount act) inq
      let r := dequeue s q n
      let st := if cut then 2 else if r.2.2 then 1 else 0
      if wait && r.2.1.isEmpty && st == 0 then
        if o.arrive = 0 then
          let s := { r.1 with nextStamp := r.1.nextStamp + 1 }
          modOp s id fun o => { o with arrive := s.nextStamp }
        else r.1
      else
        let s := if inq then countRecords r.1 (blockKey o.unit) r.2.1.length else r.1
        modOp s id fun o => { o with kind := .deq q wait pa x rec act inq (some (r.2.1, st)) }
    | _ => s

/-- Something is there for a DEQ that waits. -/
def queueStirs (s : State) (q : Loc) : Bool :=
  let d := (readDesc s q).2
  qRcnt d != 0 || (qClosed d && qEmpty d)

/-- DEQ_AT_HOME: records are delivered from the ring head, or a waiting DEQ is held; it keeps behind those that wait (R169). -/
def execDeqAtHome (id : Nat) (s : State) : Result :=
  .next (match tget s.ops id with
    | none => s
    | some o =>
      match o.kind with
      | .deq q _ _ _ _ _ _ none =>
        if !queueReady s id o q || ((s.ops.any fun x => heldDeq q x.2) && queueStirs s q) then s else serveDeq s id
      | _ => s)

/-- DEQ_WAIT_SERVED: the oldest held DEQ is answered once a record reached the ring or the queue closed (R169). -/
def execDeqWaitServed (id : Nat) (s : State) : Result :=
  .next (match tget s.ops id with
    | none => s
    | some o =>
      match o.kind with
      | .deq q _ _ _ _ _ _ none =>
        if heldDeq q o && !(s.ops.any fun x => heldDeq q x.2 && decide (x.2.arrive < o.arrive)) then serveDeq s id else s
      | _ => s)

/-- GRAB_AT_HOME: consecutive indices of a manger (R172); an extent of 0, which the spec rules out, acts as 1 (DESIGN CHOICE, log 75). -/
def execGrabAtHome (id : Nat) (s : State) : Result :=
  .next (match tget s.ops id with
    | none => s
    | some o =>
      match o.kind with
      | .grab q x dst act inq none =>
        if !queueReady s id o q then s
        else
          let (n, cut) := budgetCut s o (laneCount act) inq
          let r := queueStep s q fun s d =>
            let k := min n (qTotal d - qNext d)
            let cs := (List.range k).map fun j =>
              let m := qNext d + j
              let ex := max (qExtx d) 1
              let ey := max (qExty d) 1
              (m % ex, m / ex % ey, m / (ex * ey))
            let d' := setFld d 400 40 (qNext d + k)
            (s, if qNext d' = qTotal d' then setFld d' 204 1 1 else d',
              (cs, if cut then 2 else if qNext d' = qTotal d' then 1 else 0))
          let s := if inq then countRecords r.1 (blockKey o.unit) r.2.1.length else r.1
          modOp s id fun o => { o with kind := .grab q x dst act inq (some r.2) }
      | _ => s)

/-- A result scalar of an operation. -/
def landS (flag : Nat) (x : Nat) (v : DWord) (t : Team) : Team :=
  if flag < 12 then { t with sregs := tset t.sregs x v } else t.putS x v

def landP (flag : Nat) (p : Nat) (m v : Lanes) (t : Team) : Team :=
  if flag < 12 then { t with pregs := tset t.pregs p ((wget t.pregs p &&& ~~~m) ||| (v &&& m)) } else t.putP p m v

/-- The first k lanes of a mask. -/
def firstLanes (act : Lanes) (k : Nat) : Lanes := maskOf ((lanesOf act 1024).take k)

/-- The clean copies of a core go: L1 sectors and filled stash lines of all its blocks. -/
def acquireCore (s : State) (core : Nat) : State := unfillWhere (dropClean s core fun _ => true) core fun _ => true

/-- An event queue at a location. -/
def eventQueue (s : State) (q : Loc) : Bool := qKind (readDesc s q).2 == 3

/-- QUEUE_REPLY: records, predicate, count and status are written and the flag is released (R170); whoever takes completion events
receives their blocks' writes (R181, R188). -/
def execQueueReply (id : Nat) (s : State) : Result :=
  .next (match tget s.ops id with
    | none => s
    | some o =>
      match o.kind with
      | .enq _ _ pa x _ act (some (acc, st)) =>
        endOp (s.modUnit o.unit fun t =>
          landS o.flag (x + 1) (BitVec.ofNat 64 st) (landS o.flag x (BitVec.ofNat 64 acc) (landP o.flag pa act (firstLanes act acc) t))) id
      | .deq q _ pa x rec act _ (some (rs, st)) =>
        let s := if eventQueue s q && !rs.isEmpty then acquireCore s o.unit.core else s
        let offs := footOffsets o.foot
        let own := s.owner o.part
        let s := if o.unit.coach then s else
          ((rs.foldl (fun (r : State × List Nat) bs =>
            ((r.2.zip bs).foldl (fun s p => putLocal s 0 o.unit.core own p.1 [p.2]) r.1, r.2.drop rec)) (s, offs)).1)
        endOp (s.modUnit o.unit fun t =>
          landS o.flag (x + 1) (BitVec.ofNat 64 st) (landS o.flag x (BitVec.ofNat 64 rs.length) (landP o.flag pa act (firstLanes act rs.length) t))) id
      | .grab _ x dst act _ (some (cs, st)) =>
        let ls := lanesOf act 1024
        let at_ (f : Nat × Nat × Nat → Nat) : List (Nat × Word) :=
          (ls.zip (List.range ls.length)).map fun p => (p.1, match cs[p.2]? with
            | some c => BitVec.ofNat 32 (f c)
            | none => -1)
        endOp (s.modUnit o.unit fun t =>
          let t := ((t.putV dst (at_ fun c => c.1)).putV (dst + 1) (at_ fun c => c.2.1)).putV (dst + 2) (at_ fun c => c.2.2)
          landS 15 (x + 1) (BitVec.ofNat 64 st) (landS 15 x (BitVec.ofNat 64 cs.length) t)) id
      | _ => s)

/-- QUEUE_REFILL_MOVE: the oldest spilled record moves to the ring tail; the refill ends when the ring is full or the spill
area empty (R168). -/
def execQueueRefillMove (k : Nat) (s : State) : Result :=
  .next (match tget s.refills k with
    | none => s
    | some q =>
      let r := readDesc s q
      let d := r.2
      if qScnt d = 0 ∨ qCap d ≤ qRcnt d then { r.1 with refills := tdel r.1.refills k }
      else
        let x := readCtx r.1 q.part q.ctx (spillAddr d (qShead d)) (qRec d)
        let s := writeRing x.1 q d (qRhead d + qRcnt d) x.2
        let d := setFld (setFld (setFld d 248 17 (qRcnt d + 1)) 272 32 ((qShead d + 1) % qSpcap d)) 304 32 (qScnt d - 1)
        let s := writeDesc s q d
        if qScnt d = 0 ∨ qCap d ≤ qRcnt d then { s with refills := tdel s.refills k } else s)

/-- PRODS_DECREMENT: a finished stage no longer feeds an output queue; at 0 the queue closes (R263). -/
def execProdsDecrement (k : Nat) (s : State) : Result :=
  .next (match tget s.prodMsgs k with
    | none => s
    | some q =>
      let s := { s with prodMsgs := tdel s.prodMsgs k }
      (queueStep s q fun s d =>
        let d := setFld d 207 9 (qProds d - 1)
        (s, if qProds d = 0 then (if qKind d = 1 then setFld (setFld d 204 1 1) 400 40 (qTotal d) else setFld d 204 1 1) else d, ())).1)

/-! ## The instructions (R166) -/

/-- The queue address checked: mapped and permitted (64, 65), aligned and on a NORMAL queue page (224), a legal descriptor (226),
an accepted QKIND (225). -/
def withQueue (s : State) (va : Nat) (write : Bool) (kinds : List Nat) (k : Loc → Nat → State → State) : State :=
  if !canonical va then raiseAt 64 0 va s
  else
    let r := lookPage s s.cur.core (requester s.cur) s.block.part s.block.ctx va
    match r.2 with
    | .wait => stall r.1
    | .none => raiseAt 64 0 va (dropMisses r.1 (requester s.cur))
    | .leaf e b =>
      let s := dropMisses r.1 (requester s.cur)
      let l := leafLoc s.block.part s.block.ctx e b va
      if l.kind = 0 ∧ (leafR e = false ∨ (write = true ∧ leafW e = false)) then raiseAt 65 0 va s
      else if va % 64 ≠ 0 ∨ l.kind ≠ 0 ∨ leafQ e = false then raiseAt 224 0 va s
      else
        let q := readDesc s l
        if qBad q.2 then raiseAt 226 0 va q.1
        else if !inList (qKind q.2) kinds then raiseAt 225 0 va q.1
        else k l q.2 q.1

/-- The queue is the block's input queue (R28). -/
def isInput (s : State) (va : Nat) : Bool :=
  match tget s.graphs s.block.gslot with
  | some g =>
    match g.stages[s.block.stage]? with
    | some st => g.queues[st.inq]? == some va
    | none => false
  | none => false

/-- The record addresses of the Active lanes. -/
def recordEas (s : State) (base rec : Nat) : List (Nat × Nat) := (activeAll s).map fun i => (i, base + i * rec)

/-- The first Active lane whose record lies outside the window or in a mapped stash range. -/
def recordCause (s : State) (rec : Nat) (ls : List (Nat × Nat)) : Option (Nat × Nat) :=
  ls.find? fun x => !winOk s.block x.2 rec

/-- The flag a queue instruction counts under: none where no lane is present (R17). -/
def laneFlag (s : State) (f : Nat) : Nat := if (activeAll s).isEmpty then 15 else f

/-- Destinations of ENQ and DEQ: the predicate, the count and the status. -/
def queueDests (s : State) (pa x : Nat) : List (Nat × Nat × Lanes) := [(2, pa, s.src.mask), (1, x, 1), (1, x + 1, 1)]

/-- ENQ (R167). A flagged one that meets poison leaves the status scalar as it was (DESIGN CHOICE, log 76). With no lane present it has no
effect (R17, log 27). -/
def execEnq (b v f m : Nat) (s : State) : Result :=
  .next (async s (laneFlag s f) raiseFault fun s =>
    let va := (readS s b).toNat
    let base := (readS s (b + 1)).toNat
    withQueue s va true [0, 2] fun q d s =>
      let ls := recordEas s base (qRec d)
      if base % 16 ≠ 0 then raiseAt 90 0 base s
      else if ls.isEmpty then s
      else
        match recordCause s (qRec d) ls with
        | some (i, a) => raiseAt 94 i a s
        | none =>
          let fs := (ls.map fun x => winFoot s.block x.2 (qRec d) false).flatten
          let x := physS s.src (b + 2)
          if windowBusy s fs then stall s
          else
            match ls.find? fun x => winPoisoned s x.2 (qRec d) with
            | some (i, a) =>
              if f < 12 then
                let s := { s with nextOp := s.nextOp + 1 }
                s.modTeam fun t =>
                  let t := (t.addPend ⟨1, x, 1, f, s.nextOp - 1, 0⟩).recordFault f ⟨92, a, originWord 0 t.pkt t.slot, i, false⟩
                  { t with sregs := tset t.sregs x 0 }
              else raiseAt 92 i a s
            | none =>
              issueOp s f false (.enq q (m == 1) v x (ls.map fun y => (y.1, readWin s y.2 (qRec d))) s.src.mask none)
                (queueDests s v x) fs)

/-- DEQ (R169). With no lane present it has no effect (R17, log 27). -/
def execDeq (b v f m : Nat) (s : State) : Result :=
  .next (async s (laneFlag s f) raiseFault fun s =>
    let va := (readS s b).toNat
    let base := (readS s (b + 1)).toNat
    withQueue s va true [0, 3] fun q d s =>
      let ls := recordEas s base (qRec d)
      if base % 16 ≠ 0 then raiseAt 90 0 base s
      else if ls.isEmpty then s
      else
        match recordCause s (qRec d) ls with
        | some (i, a) => raiseAt 94 i a s
        | none =>
          let fs := (ls.map fun x => winFoot s.block x.2 (qRec d) true).flatten
          let x := physS s.src (b + 2)
          if windowBusy s fs then stall s
          else issueOp s f false (.deq q (m == 1) v x (qRec d) s.src.mask (isInput s va) none) (queueDests s v x) fs)

/-- GRAB (R172). With no lane present it has no effect (R17, log 27). -/
def execGrab (b v : Nat) (s : State) : Result :=
  .next (checked (operandCause (.grab b v) s) s fun s => async s 15 raiseFault fun s =>
    let va := (readS s b).toNat
    withQueue s va true [1] fun q _ s =>
      if (activeAll s).isEmpty then s
      else issueOp s 15 false (.grab q (physS s.src (b + 2)) (logV s v) s.src.mask (isInput s va) none) [] [])

/-- A queue operation its core sent earlier to the same slice has not arrived (R371). -/
def queueBehind (s : State) (q : Loc) : Bool :=
  s.ops.any fun x => x.2.unit.core == s.cur.core && x.2.arrive == 0 && !opAnswered x.2 &&
    (opQueue x.2).any fun q' => homeSlice s q' == homeSlice s q

/-- QLEN (R171). -/
def execQlen (b v : Nat) (s : State) : Result :=
  .next (withQueue s (readS s b).toNat false [0, 1, 2, 3] fun q d s =>
    if queueBehind s q then stall s else writeS s v (BitVec.ofNat 64 (qBacklog d % 2 ^ 63 + if qClosed d then 2 ^ 63 else 0)))

/-- QCLS (R171). -/
def execQcls (b : Nat) (s : State) : Result :=
  .next (withQueue s (readS s b).toNat true [0, 1, 2, 3] fun q d s =>
    if queueBehind s q then stall s else if qClosed d then s else closeQueue s q)

end Sys2Proof.Machine
end

