-- ==== Sys2Proof/Machine/Sync.lean ====
section
/-! DEFINITION. Fences, the harness, arrival objects, guards, EXIT (R98, R182, R194 to R208). -/

namespace Sys2Proof.Machine

/-! ## Releases and acquires as steps of an instruction -/

/-- Run k once the acquire of a scope is done: the team's earlier reads have taken their values first (R182). -/
def afterAcquire (s : State) (scope : Nat) (k : State → State) : State :=
  if readsLeft s then stall s else k (acquireStep s scope)

/-- FENCE: 1 acquire, 2 release, 3 both, the acquire after the release (R182, R205). At TEAM scope it does nothing. -/
def execFence (p m : Nat) (s : State) : Result :=
  .next (if p = 0 then s
    else afterRelease s (decide (2 ≤ m)) p fun s => if m % 2 = 1 then afterAcquire s p id else s)

/-! ## The harness (R196 to R199) -/

/-- The key of barrier n of a level for a block; none when the block has no such barrier (R196, R198). -/
def barrierKey (b : Block) (key level n : Nat) : Option Nat :=
  if level = 1 then some (1 * 2 ^ 40 + key * 16 + n)
  else if level = 2 then (if b.hsize = 0 then none else some (2 * 2 ^ 40 + b.hitch * 8 + n))
  else if level = 3 then
    (if b.joins / 2 ^ n % 2 = 1 then some (3 * 2 ^ 40 + ((b.part * 64 + b.ctx) * 8 + groupOf (key / 16)) * 4 + n) else none)
  else (if b.joinp / 2 ^ n % 2 = 1 then some (4 * 2 ^ 40 + (b.part * 64 + b.ctx) * 4 + n) else none)

def barrierAt (s : State) (k : Nat) : Barrier := (tget s.barriers k).getD ⟨0, [], [], [], []⟩

def hasUnit (u : UnitId) (l : List UnitId) : Bool := l.any (· == u)

/-- The members a block contributes. -/
def ofBlock (key : Nat) (u : UnitId) : Bool := blockKey u == key

/-- Those that wait for generation c of a barrier wake; a coachman's latest arrival there is complete (R197, R251). -/
def wakeWaiters (s : State) (k c : Nat) : State :=
  { s with
    teams := s.teams.map fun t => (t.1, { t.2 with
      waits := t.2.waits.map fun w => if w.2 = .barrier k c then (w.1, .done none) else w
      blocked := t.2.blocked && !(t.2.waits.any fun w => w.2 == .barrier k c) })
    coaches := s.coaches.map fun t => (t.1, { t.2 with
      wait := if t.2.wait = .barrier k c then .done none else t.2.wait
      arrived := t.2.arrived.filter fun a => 2 ^ 40 + t.1 * 16 + a.1 != k }) }

/-- The generation completes once every member has arrived or departs; held changes then take effect (R197). -/
def settleBarrier (s : State) (k : Nat) : State :=
  let b := barrierAt s k
  if b.members.isEmpty || !(b.members.all fun u => hasUnit u b.arrived || hasUnit u b.leaving) then s
  else
    let left := b.members.filter fun u => !hasUnit u b.leaving
    let ms := b.held.foldl (fun ms h => (ms.filter fun u => !ofBlock h.1 u) ++ h.2) left
    wakeWaiters { s with barriers := tset s.barriers k ⟨(b.gen + 1) % 16, ms, [], [], []⟩ } k b.gen

/-- A unit arrives. -/
def arriveAt (s : State) (k : Nat) (u : UnitId) : State :=
  let b := barrierAt s k
  settleBarrier { s with barriers := tset s.barriers k { b with arrived := b.arrived ++ [u] } } k

/-- A unit waits at no rein FIFO any more (R175). -/
def leaveReaders (s : State) (u : UnitId) : State :=
  { s with cores := s.cores.map fun c =>
      if c.2.readers.any fun r => hasUnit u r.2 then (c.1, { c.2 with readers := c.2.readers.map fun r => (r.1, r.2.filter fun v => !(v == u)) })
      else c }

/-- A unit departs from every barrier it is a member of, and from the changes held for it (R197). -/
def departAll (s0 : State) (u : UnitId) : State :=
  let s := leaveReaders s0 u
  ((s.barriers.filter fun b => hasUnit u b.2.members || b.2.held.any fun h => hasUnit u h.2).map Prod.fst).foldl (fun s k =>
    let b := barrierAt s k
    settleBarrier { s with barriers := tset s.barriers k { b with
      leaving := if hasUnit u b.members then b.leaving ++ [u] else b.leaving
      held := b.held.map fun h => (h.1, h.2.filter fun v => !(v == u)) } } k) s

/-- A block's members of a barrier change: at once when `now` or no generation is in progress, else at the boundary (R199). A join held for the
boundary since the launch stays held when a BMSK of its block is applied at once, and applies there (DESIGN CHOICE, log 67). -/
def changeMembers (s : State) (k key : Nat) (ms : List UnitId) (now : Bool) : State :=
  let b := barrierAt s k
  if b.members.isEmpty || (now && b.arrived.isEmpty && b.leaving.isEmpty) then
    { s with barriers := tset s.barriers k { b with members := (b.members.filter fun u => !ofBlock key u) ++ ms } }
  else { s with barriers := tset s.barriers k { b with held := (b.held.filter fun h => h.1 != key) ++ [(key, ms)] } }

/-- Run k on a barrier of the block that has members; else 192. -/
def withBarrier (s : State) (level n : Nat) (k : Nat → Barrier → State → State) : State :=
  match barrierKey s.block (blockKey s.cur) level n with
  | none => raiseCode 192 s
  | some key => if (barrierAt s key).members.isEmpty then raiseCode 192 s else k key (barrierAt s key) s

/-- An arrival: a member only, a release first, a second one in a generation waits for its end (R197, R199). -/
def arriveMine (s : State) (level n : Nat) (k : Nat → Nat → State → State) : State :=
  withBarrier s level n fun key b s =>
    if !hasUnit s.cur b.members then raiseCode 192 s
    else if hasUnit s.cur b.arrived then stall s
    else afterRelease s true level fun s => k key b.gen (arriveAt s key s.cur)

/-- BARV (R198). -/
def execBarv (d v p : Nat) (s : State) : Result :=
  .next (arriveMine s p v fun _ c s => writeS s d (BitVec.ofNat 64 c))

/-- Sleep on a generation; the wake is an acquire at the level. -/
def sleepOn (s : State) (key c level : Nat) : State :=
  if (barrierAt s key).gen = c then stall (setWait s (.barrier key c)) else afterAcquire s level id

/-- A sleeper whose condition has been met: the acquire may still wait for earlier reads, the condition is tested no more
(R182, R203). -/
def metNow (s : State) (scope : Nat) : State :=
  if readsLeft s then stall (setWait s (.done none)) else acquireStep s scope

/-- The note of a sleep is taken back. -/
def awake (s : State) : State := if myWait s = .none then s else setWait s .none

/-- A sleeper that has woken goes on; one whose generation completed while it was switched out wakes now (R312). -/
def resumeSleep (s : State) (level : Nat) (k : State → State) : State :=
  let woken (s : State) : State := metNow (setWait s .none) level
  match myWait s with
  | .barrier key c => if (barrierAt s key).gen = c then stall s else woken s
  | .done _ => woken s
  | .none => k s
  | .op _ => k s
  | .rcv _ => k s
  | .object _ _ => k s
  | .word _ _ _ => k s

/-- BWAT (R198). -/
def execBwat (a v p : Nat) (s : State) : Result :=
  .next (resumeSleep s p fun s => withBarrier s p v fun key b s =>
    let k := (readS s a).toNat % 16
    if k = b.gen then sleepOn s key k p
    else if k = (b.gen + 15) % 16 then metNow s p
    else raiseCode 193 s)

/-- BSYN (R198). -/
def execBsyn (v p : Nat) (s : State) : Result :=
  .next (resumeSleep s p fun s => arriveMine s p v fun key c s => sleepOn s key c p)

/-- The units BMSK names: bit t for team t, and the coachman. -/
def maskUnits (s : State) (m : Nat) (coach : Bool) : List UnitId :=
  ((List.range s.block.nteams).filter fun t => m / 2 ^ t % 2 == 1).map (fun t => ⟨s.cur.core, s.cur.bslot, t, false⟩) ++
    (if coach then [⟨s.cur.core, s.cur.bslot, 0, true⟩] else [])

/-- BMSK (R199). -/
def execBmsk (a v p m : Nat) (s : State) : Result :=
  .next (match barrierKey s.block (blockKey s.cur) p v with
    | none => raiseCode 192 s
    | some key => changeMembers s key (blockKey s.cur) (maskUnits s (readS s a).toNat (p == 1 && m == 1)) true)

/-! ## Arrival objects (R200 to R203) -/

def aoPend (x : Nat) : Nat := fld x 4 20
def aoExp (x : Nat) : Nat := fld x 24 20
def aoIn (x : Nat) : Int := sgn 40 (fld x 44 40)
def aoOut (x : Nat) : Nat := fld x 84 40

def aoPack (gen pend ex : Nat) (inb : Int) (out : Nat) : Nat :=
  gen % 16 + pend % 2 ^ 20 * 2 ^ 4 + ex % 2 ^ 20 * 2 ^ 24 + (inb % (2 : Int) ^ 40).toNat * 2 ^ 44 + out % 2 ^ 40 * 2 ^ 84

/-- Object x with other counts outstanding; its reserved bits stay. -/
def aoCounts (x : Nat) (inb : Int) (out : Nat) : Nat :=
  aoPack (aoGen x) (aoPend x) (aoExp x) inb out + fld x 124 4 * 2 ^ 124

/-- A phase with nothing pending completes in the same update. -/
def aoSettle (x : Nat) : Nat :=
  if aoPend x = 0 ∧ aoIn x = 0 ∧ aoOut x = 0 then
    aoPack (aoGen x + 1) (aoExp x) (aoExp x) 0 0 + fld x 124 4 * 2 ^ 124
  else x

/-- The object is mid-phase (R200). -/
def aoBusy (x : Nat) : Bool := aoPend x != aoExp x || aoIn x != 0 || aoOut x != 0

/-- n bytes of the window at off, checked and clear of other operations, for an arrival or sleep instruction (R201). AARV and AWAT (`shared`)
come between the updates that jobs make of the object (R200). -/
def withObject (s : State) (off n align : Nat) (write read : Bool) (k : State → State) (shared : Bool := false) : State :=
  if !winOk s.block off n then raiseAt 94 0 off s
  else if off % align ≠ 0 then raiseAt 90 0 off s
  else if scoreboardWith (if shared then footBeside s.block (blockKey s.cur) off else Job.foot) s s.cur.core (winFoot s.block off n write)
      s.nextStamp then stall s
  else if read && winPoisoned s off n then raiseAt 92 0 off s
  else k s

def readObj (s : State) (off : Nat) : Nat := leNat (readWin s off 16)
def writeObj (s : State) (off x : Nat) : State := writeWin s off (natLe 16 x)

/-- AINI (R201). -/
def execAini (a v : Nat) (s : State) : Result :=
  .next (
    let off := (readS s a).toNat
    let e := (readS s v).toNat
    withObject s off 16 16 true false fun s =>
      if e = 0 ∨ 0xFFFFF < e then raiseCode 201 s
      else clearCovered (writeObj s off (aoPack 0 e e 0 0)) 0 s.cur.core (winOffsets s.block off 16))

/-- AARV (R202). -/
def execAarv (a v p m : Nat) (s : State) : Result :=
  .next (
    let off := (readS s a).toNat
    let b : Nat := (readS s v).toNat % 2 ^ 40
    withObject s off 16 16 true true (shared := true) fun s =>
      let x := readObj s off
      if aoBad x then raiseCode 200 s
      else if (2 : Int) ^ 39 - 1 < aoIn x + b then raiseCode 201 s
      else if m = 0 ∧ aoPend x = 0 then stall s
      else
        afterRelease s true p fun s =>
          let y := aoPack (aoGen x) (if m = 0 then aoPend x - 1 else aoPend x) (aoExp x) (aoIn x + b) (aoOut x)
          writeS (writeObj s off (aoSettle y)) v (BitVec.ofNat 64 (aoGen x)))

/-- AWAT (R203). -/
def execAwat (a v p : Nat) (s : State) : Result :=
  .next (resumeSleep s p fun s =>
    let off := (readS s a).toNat
    let k := (readS s v).toNat % 16
    withObject s off 16 16 false true (shared := true) fun s =>
      let x := readObj s off
      if aoBad x then raiseCode 200 s
      else if aoGen x = k then stall (setWait s (.object off k))
      else metNow (awake s) p)

/-- WADR (R203). -/
def execWadr (a v p m : Nat) (s : State) : Result :=
  .next (resumeSleep s p fun s =>
    let off := (readS s a).toNat
    let c := (readS s v).toNat % 2 ^ 32
    withObject s off 4 4 false true fun s =>
      if wordMeets m (leNat (readWin s off 4)) c then metNow (awake s) p else stall (setWait s (.word off m c)))

/-! ## Guards (R185, R186, R204 to R208) -/

def gXptr (h : Nat) : Nat := fld h 128 64
def gNteth (h : Nat) : Nat := fld h 17 7
def gExcl (h : Nat) : Bool := fld h 16 1 == 1
def gHold (h : Nat) : Nat := fld h 0 16

/-- The header is inconsistent. -/
def gBad (h : Nat) : Bool :=
  fld h 192 64 != 0 || fld h 24 104 != 0 || decide (64 < gNteth h) || (decide (8 < gNteth h) && gXptr h == 0) ||
    gXptr h % 64 != 0 || (gExcl h && gHold h != 0)

/-- The header of a guard. Poison in it, or in its tethers, is passed over: the bytes count as they stand (DESIGN CHOICE, log 68). -/
def readHead (s : State) (l : Loc) : State × Nat :=
  let r := homeNat s l (s.owner l.part) 32
  (r.1, r.2.1)

def writeHead (s : State) (l : Loc) (h : Nat) : State := homeWrite s l (s.owner l.part) (natLe 32 h)

/-- Tether j: base and length. -/
def readTether (s : State) (l : Loc) (h j : Nat) : State × Nat × Nat :=
  let r :=
    if j < 8 then (let r := homeRead s { l with addr := l.addr + 32 + 12 * j } (s.owner l.part) 12; (r.1, r.2.1))
    else readCtx s l.part l.ctx (gXptr h + 12 * (j - 8)) 12
  (r.1, leNat (r.2.take 8), leNat (r.2.drop 8))

def writeTether (s : State) (l : Loc) (h j : Nat) (t : Nat × Nat) : State :=
  let bs := natLe 8 t.1 ++ natLe 4 t.2
  if j < 8 then homeWrite s { l with addr := l.addr + 32 + 12 * j } (s.owner l.part) bs
  else writeCtx s l.part l.ctx (gXptr h + 12 * (j - 8)) bs

def tethers (s : State) (l : Loc) (h : Nat) : State × List (Nat × Nat) :=
  (List.range (gNteth h)).foldl (fun r j =>
    let q := readTether r.1 l h j
    (q.1, r.2 ++ [q.2])) (s, [])

/-- The pieces of global memory some regions stand for. -/
def regionPieces (s : State) (part ctx : Nat) (rs : List (Nat × Nat)) : State × List (Loc × Nat) :=
  rs.foldl (fun r t =>
    (pageStarts t.1 t.2).foldl (fun r a =>
      let q := ctxLoc r.1 part ctx a
      let e := min (t.1 + t.2) (a / 65536 * 65536 + 65536)
      (q.1, match q.2 with
        | some l => r.2 ++ [(l, e - a)]
        | none => r.2)) r) (s, [])

/-- A sector touches one of the pieces. -/
def inPieces (ps : List (Loc × Nat)) (n : Nat) (l : Loc) : Bool :=
  ps.any fun p => { p.1 with addr := 0 } == { l with addr := 0 } && overlaps p.1.addr p.2 l.addr n

/-- Stash lines of a block within the pieces: written back and, for a grant, filled no longer. -/
def flushBlockPieces (drop : Bool) (ps : List (Loc × Nat)) (s : State) (key : Nat) : State :=
  match tget s.blocks key with
  | none => s
  | some b => b.stash.foldl (fun s e =>
      (List.range (e.2.len / 128)).foldl (fun s k =>
        if (stashLoc e.2 (128 * k)).any (inPieces ps 128) then
          let s := writeBackStash s key e.1 k
          if drop then unfill s key e.1 fun j => j == k else s
        else s) s) s

/-- The same for every block of the current core. -/
def flushStashPieces (drop : Bool) (s : State) (ps : List (Loc × Nat)) : State :=
  (coreBlocks s s.cur.core).foldl (flushBlockPieces drop ps) s

/-- At a grant: clean copies within the tethered regions go (R186, R206). -/
def guardAcquire (s : State) (rs : List (Nat × Nat)) : State :=
  let r := regionPieces s s.block.part s.block.ctx rs
  flushStashPieces true (dropClean r.1 s.cur.core (inPieces r.2 32)) r.2

/-- An operation in flight still writes within the pieces; where an ENQ puts its records is the home slice's to say. -/
def opWritesIn (ps : List (Loc × Nat)) (o : Op) : Bool :=
  match o.kind with
  | .tile true rows _ _ false => rows.any fun r => inPieces ps r.2.1 r.1
  | .enq _ _ _ _ _ _ none => true
  | _ => false

/-- At a release: dirty copies within the tethered regions go home, and the core's writes to them arrive, whatever the page (R186,
R207). -/
def guardRelease (s : State) (rs : List (Nat × Nat)) : State × Bool :=
  let r := regionPieces s s.block.part s.block.ctx rs
  let s := flushStashPieces false (flushL1 r.1 fun x => x.core == s.cur.core && inPieces r.2 32 x.loc) r.2
  (s, !((s.reqs.any fun q => q.2.core == s.cur.core && writeKind q.2.kind && unperformed q.2 && inPieces r.2 128 q.2.loc) ||
    s.ops.any fun o => o.2.unit.core == s.cur.core && opWritesIn r.2 o.2))

/-- A request for a guard: location, mode (0 exclusive, 1 shared), whether granted. -/
def guardReqOf (o : Op) : Option (Loc × Nat × Bool) :=
  match o.kind with
  | .guardReq _ l m _ g => some (l, m, g.isSome)
  | _ => none

/-- An arrived request waits ahead of the one that arrived at n: any, or an exclusive one. -/
def guardAhead (s : State) (l : Loc) (n : Nat) (exclOnly : Bool) : Bool :=
  s.ops.any fun o =>
    match guardReqOf o.2 with
    | some (l', m, g) => l' == l && !g && o.2.arrive != 0 && decide (o.2.arrive < n) && (!exclOnly || m == 0)
    | none => false

/-- A request may be granted (R185). -/
def guardFree (s : State) (l : Loc) (m n : Nat) (h : Nat) : Bool :=
  !gExcl h && (if m = 0 then gHold h == 0 && !guardAhead s l n false else !guardAhead s l n true)

/-- The grant at the home slice, when it is due; a peer's request is answered with the tethers. -/
def tryGrant (s : State) (id : Nat) : State :=
  match tget s.ops id with
  | none => s
  | some o =>
    match o.kind with
    | .guardReq va l m sc none =>
      let r := readHead s l
      if o.arrive ≠ 0 ∧ guardFree r.1 l m o.arrive r.2 = true then
        let t := tethers r.1 l r.2
        let s := writeHead t.1 l (if m = 0 then setFld r.2 16 1 1 else setFld r.2 0 16 (gHold r.2 + 1))
        match s.remotes.find? fun x => x.2.owner == 5 && x.2.id == id with
        | some (k, x) =>
          let s := { s with ops := tdel s.ops id, remotes := tdel s.remotes k }
          sendFrame s l.part x.peer (.rsp ⟨headTo s l.part l.ctx x.peer x.qp, x.req, 0, (t.2.map fun q => [q.1, q.2]).flatten⟩)
        | none => modOp s id fun o => { o with kind := .guardReq va l m sc (some t.2) }
      else r.1
    | _ => s

/-- Requests that have arrived at a slice and wait. -/
def guardWaiters (s : State) (slice : Nat) : Nat :=
  (s.ops.filter fun o =>
    match guardReqOf o.2 with
    | some (l, _, g) => !g && o.2.arrive != 0 && homeSlice s l == slice
    | none => false).length

/-- GUARD_REQUEST_AT_HOME: an ACQ reaches the guard's home slice and is granted or queued, up to 1 024 (R185, R206). -/
def execGuardRequestAtHome (id : Nat) (s : State) : Result :=
  .next (match tget s.ops id with
    | none => s
    | some o =>
      match o.kind with
      | .guardReq _ l _ _ none =>
        if o.arrive ≠ 0 ∨ l.kind ≠ 0 ∨ 1024 ≤ guardWaiters s (homeSlice s l) then s
        else
          let n := s.nextStamp
          tryGrant (modOp { s with nextStamp := n + 1 } id fun o => { o with arrive := n }) id
      | _ => s)

/-- GUARD_GRANT: a queued request is granted in its turn (R185). -/
def execGuardGrant (id : Nat) (s : State) : Result := .next (tryGrant s id)

/-- The release at the home slice. -/
def guardFreeAt (s : State) (l : Loc) (mode : Nat) : State :=
  let r := readHead s l
  writeHead r.1 l (if mode = 0 then setFld r.2 16 1 0 else setFld r.2 0 16 (gHold r.2 - 1))

/-- GUARD_RELEASE_AT_HOME (R207). -/
def execGuardReleaseAtHome (id : Nat) (s : State) : Result :=
  .next (match tget s.ops id with
    | none => s
    | some o =>
      match o.kind with
      | .guardRel l m => if l.kind = 0 then endOp (guardFreeAt s l m) id else s
      | _ => s)

/-- The tether changes of TETH and UNTE at the home slice: 0, or the code raised (R208). -/
def tetherAt (s : State) (l : Loc) (add : Bool) (t : Nat × Nat) : State × Nat :=
  let r := readHead s l
  let h := r.2
  let n := gNteth h
  if gBad h then (r.1, 209)
  else if add then
    if n = 64 then (r.1, 213)
    else if n = 8 ∧ gXptr h = 0 then (r.1, 209)
    else (writeHead (writeTether r.1 l h n t) l (setFld h 17 7 (n + 1)), 0)
  else
    let q := tethers r.1 l h
    match (List.range n).find? fun j => q.2[j]? == some t with
    | none => (q.1, 213)
    | some j => (writeHead (writeTether q.1 l h j (q.2.getD (n - 1) (0, 0))) l (setFld h 17 7 (n - 1)), 0)

/-- A guard operand checked: 128-aligned, mapped with R and W, not on a HOST page (R204, R205). -/
def withGuard (s : State) (va : Nat) (k : Loc → State → State) : State :=
  if va % 128 ≠ 0 then raiseAt 208 0 va s else withAddr s va 1 ⟨true, true, true⟩ k

def heldGuard (s : State) (va : Nat) : Option HeldGuard := s.team.guards.find? fun g => g.addr == va

/-- A guard request or release enters flight: to a peer as a frame. -/
def sendGuard (s : State) (l : Loc) (kind : OpKind) (code : Nat) : State :=
  let id := s.nextOp
  let s := issueOp s 15 true kind [] []
  if l.kind = 1 then sendPeer s l.part l.ctx s.cur.core l.dest 4 id (.guardOp code l.addr 0 0) else s

/-- ACQ: on a PEER page at DOMAIN or wider; the team's earlier reads take their values first (R182, R204, R206). -/
def execAcq (g p m : Nat) (s : State) : Result :=
  .next (
    let va := (readS s g).toNat
    match myWait s with
    | .op id =>
      match (tget s.ops id).map Op.kind with
      | some (.guardReq va _ m sc (some rs)) =>
        let s := guardAcquire { (setWait s .none) with ops := tdel s.ops id } rs
        (s.modTeam fun t => { t with guards := t.guards ++ [⟨va, m, sc⟩] }).withFate .completed
      | _ => stall s
    | .done (some r) => raiseFault r (setWait s .none)
    | _ =>
      withGuard s va fun l s =>
        if l.kind = 1 ∧ p < 5 then raiseCode 35 s
        else if (heldGuard s va).isSome || decide (8 ≤ s.team.guards.length) then raiseAt 211 0 va s
        else
          let r := if l.kind = 0 then readHead s l else (s, 0)
          if gBad r.2 then raiseAt 209 0 va r.1
          else if readsLeft r.1 then stall r.1
          else sendGuard r.1 l (.guardReq va l m p none) m)

/-- At a release of a guard that lies in a peer, whose tethers only the peer has: every dirty byte goes home, those within the
tethered regions among them (R186, R207). -/
def guardReleaseAll (s : State) : State × Bool :=
  let s := (coreBlocks s s.cur.core).foldl flushStash (flushL1 s fun x => x.core == s.cur.core)
  (s, !writesLeft s s.cur.core 6)

/-- The release of a held guard: the team's earlier reads and writes are done, its regions go home, then the home slice is told (R182,
R187, R207). -/
def releaseGuard (s : State) (h : HeldGuard) (l : Loc) : State :=
  let r := if l.kind = 0 then readHead s l else (s, 0)
  let t := if l.kind = 0 then tethers r.1 l r.2 else (r.1, [])
  let q := if l.kind = 0 then guardRelease t.1 t.2 else guardReleaseAll t.1
  if accessLeft q.1 0 || !q.2 then stall q.1
  else
    let s := q.1.modTeam fun t => { t with guards := t.guards.filter fun g => g.addr != h.addr }
    sendGuard s l (.guardRel l h.mode) (2 + h.mode)

/-- REL: the steps of R207 are the same at every scope, so p names only what the pair synchronises (R181). -/
def execRel (g _p : Nat) (s : State) : Result :=
  .next (async s 15 raiseFault fun s =>
    let va := (readS s g).toNat
    withGuard s va fun l s =>
      match heldGuard s va with
      | none => raiseAt 210 0 va s
      | some h =>
        let r := if l.kind = 0 then readHead s l else (s, 0)
        if gBad r.2 then raiseAt 209 0 va r.1 else releaseGuard r.1 h l)

/-- A region TETH and UNTE accept (R208). -/
def regionOk (base len hi : Nat) : Bool :=
  decide (1 ≤ len) && hi == 0 && decide (base + len - 1 < 2 ^ 64) && canonical base && canonical (base + len - 1)

/-- TETH and UNTE. -/
def tether (add : Bool) (g v : Nat) (s : State) : State :=
  async s 15 raiseFault fun s =>
    let va := (readS s g).toNat
    let base := (readS s v).toNat
    let len := (readS s (v + 1)).toNat % 2 ^ 32
    withGuard s va fun l s =>
      match heldGuard s va with
      | some ⟨_, 0, _⟩ =>
        if !regionOk base len ((readS s (v + 1)).toNat / 2 ^ 32) then raiseAt 213 0 va s
        else if l.kind = 0 then
          let r := tetherAt s l add (base, len)
          if r.2 = 0 then r.1 else raiseAt r.2 0 va r.1
        else
          let id := s.nextOp
          let s := issueOp s 15 true (.guardRel l 0) [] []
          sendPeer s l.part l.ctx s.cur.core l.dest 4 id (.guardOp (if add then 4 else 5) l.addr base len)
      | _ => raiseAt 212 0 va s

/-- TETH and UNTE carry no scope (R205). -/
def execTeth (g v _p : Nat) (s : State) : Result := .next (tether true g v s)
def execUnte (g v _p : Nat) (s : State) : Result := .next (tether false g v s)

/-! ## The end of a team (R98, R197, R207) -/

/-- The team ends: its mask stack is discarded, it departs from its barriers and holds nothing. -/
def endTeam (s : State) (st : UnitStatus) : State :=
  departAll ((s.modTeam fun t => { t with status := st, mstack := [], waits := [], ibuf := none }).withFate .ended) s.cur

/-- The first guard of the table is released at the scope of its ACQ; with none left, go on with `over` (R207). A guard whose
address no longer translates is dropped. -/
def nextGuard (s : State) (ovr : State → State) : State :=
  match s.team.guards with
  | [] => ovr s
  | h :: _ =>
    let r := checkMine s h.addr 1 ⟨false, false, false⟩
    match r.2 with
    | .wait => stall r.1
    | .bad _ => stall (r.1.modTeam fun t => { t with guards := t.guards.drop 1 })
    | .ok l => releaseGuard r.1 h l

/-- EXIT: waits on every flag and delivers their faults, releases the guards in table order, and ends the team (R98, R207). -/
def execExit (s : State) : Result :=
  .next (match myWait s with
    | .op _ => stall s
    | _ =>
      waitOn s.team (setWait s .none) 0xFFF fun s =>
        nextGuard s fun s => endTeam s .exited)

/-- A terminated team releases its guards one after another (R207); the step calls this while it holds any. -/
def dropGuard (u : UnitId) (s : State) : State :=
  let s := { s with cur := u }
  match myWait s with
  | .op _ => s
  | _ => nextGuard (setWait s .none) fun s => s

end Sys2Proof.Machine
end

