-- ==== Sys2Proof/Machine/Dray.lean ====
section
/-! DEFINITION. The dray copy engines: issue, the progress of a job, its stop and its completion (R215 to R232). -/

namespace Sys2Proof.Machine

/-! ## Layout records (R219) -/

def recBase (r : Nat) : Nat := fld r 0 64
def recFmt (r : Nat) : Nat := fld r 64 8
def recRank (r : Nat) : Nat := fld r 72 3
def recSpace (r : Nat) : Nat := fld r 75 3
def recScaled (r : Nat) : Bool := fld r 78 1 == 1
def recKv (r : Nat) : Bool := fld r 80 1 == 1
def recExt (r k : Nat) : Nat := fld r (128 + 16 * k) 16
def recStr (r k : Nat) : Nat := if k = 0 then 0 else fld r (224 + 40 * (k - 1)) 40
def recAux (r : Nat) : Nat := fld r 384 64

/-- Half bytes of an element. -/
def fmtNibs (f : Nat) : Nat :=
  if f = 0 then 1 else if f ≤ 3 then 2 else if f = 4 ∨ f = 5 ∨ f = 10 then 4 else if f = 6 ∨ f = 8 then 8 else 16

/-- The record breaks R219. -/
def recBad (r : Nat) : Bool :=
  let f := recFmt r
  let n := recRank r
  fld r 208 16 != 0 || fld r 81 47 != 0 || fld r 79 1 != 0 || decide (11 < f) || decide (2 < recSpace r) ||
    decide (n = 0 ∨ 5 < n) || recBase r % 16 != 0 ||
    ((List.range 5).any fun k => (recExt r k == 0) == decide (k < n) || (decide (n ≤ k) && recStr r k != 0)) ||
    (f == 0 && !recScaled r) || (recScaled r && (decide (2 < f) || recExt r 0 % 32 != 0)) ||
    (recKv r && (recScaled r || decide (n < 2))) || (!recScaled r && !recKv r && recAux r != 0)

/-- The byte at which the element of coordinates c lies. -/
def elemAt (r : Nat) (c : List Nat) : Nat :=
  recBase r + c.getD 0 0 * fmtNibs (recFmt r) / 2 +
    ((List.range 5).foldl (fun x k => x + (if k = 0 then 0 else c.getD k 0 * recStr r k * 16)) 0)

/-- The byte of the scale of that element. -/
def scaleAt (r : Nat) (c : List Nat) : Nat :=
  recAux r + c.getD 0 0 / 32 + recExt r 0 / 32 *
    (c.getD 1 0 + recExt r 1 * (c.getD 2 0 + recExt r 2 * (c.getD 3 0 + recExt r 3 * c.getD 4 0)))

/-! ## The box (R222) -/

/-- Box sizes with 1 where a dimension has none. -/
def boxDim (b : List Nat) (k : Nat) : Nat := max (b.getD k 0) 1

/-- Rows of a box, and the coordinates of row i in dimensions 1 to 4, dimension 1 fastest. -/
def boxRows (b : List Nat) : Nat := boxDim b 1 * boxDim b 2 * boxDim b 3 * boxDim b 4
def rowCoord (b : List Nat) (i k : Nat) : Nat :=
  if k = 1 then i % boxDim b 1
  else if k = 2 then i / boxDim b 1 % boxDim b 2
  else if k = 3 then i / (boxDim b 1 * boxDim b 2) % boxDim b 3
  else if k = 4 then i / (boxDim b 1 * boxDim b 2 * boxDim b 3) else 0

/-- The record that gives the element format: the source's, or the destination's where there is none. -/
def Job.fmt (j : Job) : Nat := if j.cmd = 5 then recFmt j.dst else recFmt j.src
def Job.rowBytes (j : Job) : Nat := j.box.getD 0 0 * fmtNibs j.fmt / 2
def Job.total (j : Job) : Nat := boxRows j.box * j.rowBytes

/-- Coordinates of row i at element e of dimension 0, on the source or destination side; DGTH and DSCT take dimension 1 of the
indexed side from the index array (R226). -/
def Job.coords (j : Job) (dest : Bool) (i e : Nat) : List Nat :=
  let org := if dest then j.dorg else j.sorg
  (List.range 5).map fun k =>
    if k = 0 then org.getD 0 0 + e
    else if k = 1 ∧ ((j.cmd = 1 ∧ dest = false) ∨ (j.cmd = 2 ∧ dest = true)) then
      (j.idx.getD (rowCoord j.box i 1) none).getD 0
    else org.getD k 0 + rowCoord j.box i k

/-- The job copies validity bytes (R226). -/
def Job.validity (j : Job) : Bool := (j.cmd == 0 || j.cmd == 1 || j.cmd == 2) && recKv j.src && recKv j.dst

/-- The moves of a DCMT: from and to positions, and the count of accepted nodes (R230). -/
def commitMoves (p0 c0 bits : Nat) : Nat → List (Nat × Nat) × Nat
  | 0 => ([], 0)
  | n + 1 =>
    let r := commitMoves p0 c0 bits n
    if bits / 2 ^ n % 2 = 1 then (if p0 + n = c0 + r.2 then r.1 else r.1 ++ [(p0 + n, c0 + r.2)], r.2 + 1) else r

def Job.moves (j : Job) : List (Nat × Nat) × Nat :=
  commitMoves (j.sorg.getD 1 0) (j.dorg.getD 1 0) j.arg.toNat (j.box.getD 1 0)

/-- A row of one tensor of a DCMT: the record, its origin in the higher dimensions, position q. -/
def Job.commitRow (j : Job) (second : Bool) (q : Nat) : Nat × Nat × Nat :=
  let r := if second then j.dst else j.src
  let org := if second then j.dorg else j.sorg
  (recSpace r, elemAt r [0, q, org.getD 2 0, org.getD 3 0, org.getD 4 0], recExt r 0 * fmtNibs (recFmt r) / 2)

/-! ## Pieces -/

/-- A range of a space: space (0 global), address or offset, length. -/
abbrev Span := Nat × Nat × Nat

/-- Its parts of one 32-byte sector each. -/
def sectorParts (sp : Nat) : Nat → Nat → Nat → List Span
  | 0, _, _ => []
  | fuel + 1, a, n =>
    if n = 0 then [] else
      let k := min n (32 - a % 32)
      (sp, a, k) :: sectorParts sp fuel (a + k) (n - k)

def Span.parts (p : Span) : List Span := sectorParts p.1 (p.2.2 / 32 + 2) p.2.1 p.2.2

/-- What a job does next: read the spans, then write the destination spans, or update element by element; or its end. -/
inductive Piece where
  | copy (n : Nat) (reads writes : List Span)
  | fill (n : Nat) (bytes : List Byte) (writes : List Span)
  | combine (n : Nat) (reads : List Span) (dst : Span)
  | gather (n : Nat) (reads : List Span)
  | set (b : Byte) (dst : Span)
  | index (code addr : Nat)
  | send
  | finish
deriving DecidableEq, Repr

/-- Bytes of the next piece of a row at destination address d: a whole aligned granule, or one byte (R221). -/
def granule (d left : Nat) : Nat := if d % 16 = 0 ∧ 16 ≤ left then 16 else 1

/-- The job's row at its offset holds an index that is poisoned or out of range (R226). -/
def Job.badIndex (j : Job) (row : Nat) : Option Nat :=
  if j.cmd = 1 ∨ j.cmd = 2 then
    match j.idx.getD (rowCoord j.box row 1) none with
    | none => some 92
    | some x => if recExt (if j.cmd = 1 then j.src else j.dst) 1 ≤ x then some 260 else none
  else none

/-- The element offset of byte b of a row. -/
def Job.elemOf (j : Job) (b : Nat) : Nat := b * 2 / fmtNibs j.fmt

/-- A box piece at the job's offset: n bytes, at most up to the end of a poisoned line's portion. In a DMCS a scale byte follows the elements
it scales (R222; their order is the model's choice, log 33). -/
def Job.boxPiece (j : Job) : Piece :=
  let row := j.pos / j.rowBytes
  let off := j.pos % j.rowBytes
  let cap := match j.pois with
    | some p => p.2.2.2 - j.pos
    | none => j.rowBytes
  let left := min (j.rowBytes - off) cap
  let sa := elemAt j.src (j.coords false row 0) + off
  let da := elemAt j.dst (j.coords true row 0) + off
  let scale := recScaled j.src && off % (16 * fmtNibs j.fmt) == 0
  match j.badIndex row with
  | some c => .index c ((j.arg.toNat % 2 ^ 20) + 4 * rowCoord j.box row 1)
  | none =>
    if j.cmd = 5 then
      let n := granule da left
      let size := fmtNibs j.fmt / 2
      .fill n ((List.range n).map fun i => BitVec.ofNat 8 (j.arg.toNat / 256 ^ ((off + i) % size))) [(recSpace j.dst, da, n)]
    else if j.cmd = 6 then
      let n := fmtNibs j.fmt / 2
      .combine n [(recSpace j.src, sa, n)] (recSpace j.dst, da, n)
    else if j.cmd = 3 then
      let n := granule sa left
      let last := j.elemOf (off + n)
      .gather n ((recSpace j.src, sa, n) ::
        (if recScaled j.src && ((j.sorg.getD 0 0 + last) % 32 == 0 || off + n == j.rowBytes) then
          [(recSpace j.src, scaleAt j.src (j.coords false row (last - 1)), 1)] else []))
    else
      let n := granule da left
      .copy n
        ((recSpace j.src, sa, n) ::
          (if scale then [(recSpace j.src, scaleAt j.src (j.coords false row (j.elemOf off)), 1)] else []))
        ((recSpace j.dst, da, n) ::
          (if scale then [(recSpace j.dst, scaleAt j.dst (j.coords true row (j.elemOf off)), 1)] else []))

/-- Validity byte k of a copy. -/
def Job.validPiece (j : Job) (k : Nat) : Piece :=
  let s := (j.coords false k 0).getD 1 0
  let d := (j.coords true k 0).getD 1 0
  match j.badIndex k with
  | some c => .index c ((j.arg.toNat % 2 ^ 20) + 4 * k)
  | none => .copy 1 [(recSpace j.src, recAux j.src + s, 1)] [(recSpace j.dst, recAux j.dst + d, 1)]

/-- Positions of the validity arrays a DCMT writes, and the value at each (R230). -/
def Job.commitValid (j : Job) : List (Nat × Byte) :=
  let p0 := j.sorg.getD 1 0
  let c0 := j.dorg.getD 1 0
  (List.range (p0 + j.box.getD 1 0 - min c0 p0)).map fun i =>
    (min c0 p0 + i, if min c0 p0 + i < c0 + j.moves.2 then 1 else 0)

/-- What a job does next. -/
def Job.next (j : Job) : Piece :=
  if j.cmd = 4 then
    let ms := j.moves.1
    let vs := j.commitValid
    if j.pos < 2 * ms.length then
      let m := ms.getD (j.pos / 2) (0, 0)
      .copy 1 [j.commitRow (j.pos % 2 == 1) m.1] [j.commitRow (j.pos % 2 == 1) m.2]
    else
      let k := j.pos - 2 * ms.length
      if k < 2 * vs.length then
        let v := vs.getD (k % vs.length) (0, 0)
        let r := if k < vs.length then j.src else j.dst
        .set v.2 (recSpace r, recAux r + v.1, 1)
      else .finish
  else if j.cmd = 3 ∧ j.targets = 0 ∧ j.arg.getLsbD 36 = true then .finish
  else if j.pos < j.total then j.boxPiece
  else if j.cmd = 3 then (if j.sent then .finish else .send)
  else if j.validity ∧ j.pos < j.total + j.box.getD 1 0 then j.validPiece (j.pos - j.total)
  else .finish

/-! ## Reaching memory -/

/-- What one step of a job comes to: it moved, it must wait, or it meets a stop with a code to deliver, CAUSE and an address. -/
inductive Move where
  | went (s : State)
  | wait (s : State)
  | stop (s : State) (code cause addr : Nat)

def setJob (s : State) (id : Nat) (j : Job) : State := { s with jobs := tset s.jobs id j }

/-- Where a span lies on the core: the window or the accumulator reservation of the job's block. -/
def jobLocal (s : State) (j : Job) (sp a : Nat) : Option Nat :=
  match tget s.blocks (blockKey j.unit) with
  | none => none
  | some b => if sp = 1 then winByte b a else if a < b.accSize then some (b.accOff + a) else none

/-- A span located: a local one by its space alone, a global one by its page, which the job translates once, when it reaches it (R325). -/
def jobLoc (s : State) (id : Nat) (j : Job) (n : Need) (p : Span) : State × Job × Chk :=
  let page := p.2.1 / 65536
  if p.1 ≠ 0 then (s, j, .ok ⟨3, p.1, p.2.1, 0, 0, j.part, j.ctx⟩)
  else
    match j.pages.find? fun x => x.1 == page && x.2.1 == n.w with
    | some (_, _, l) => (s, j, .ok { l with addr := l.addr + p.2.1 % 65536 })
    | none =>
      let r := checkVa s j.unit.core (jobRequester id) j.part j.ctx p.2.1 1 n
      match r.2 with
      | .wait => (r.1, j, r.2)
      | .bad _ => (dropMisses r.1 (jobRequester id), j, r.2)
      | .ok l => (dropMisses r.1 (jobRequester id), { j with pages := j.pages ++ [(page, n.w, { l with addr := l.addr - p.2.1 % 65536 })] }, r.2)

/-- The leading spans that can be located, and what stops the next, if any does. -/
def jobLocs (id : Nat) (n : Need) : State → Job → List Span → State × Job × List (Span × Loc) × Option Chk
  | s, j, [] => (s, j, [], none)
  | s, j, p :: ps =>
    let r := jobLoc s id j n p
    match r.2.2 with
    | .ok l =>
      let q := jobLocs id n r.1 r.2.1 ps
      (q.1, q.2.1, (p, l) :: q.2.2.1, q.2.2.2)
    | c => (r.1, r.2.1, [], some c)

/-- The leading spans that lie in one kind of place. -/
def oneKind : List (Span × Loc) → List (Span × Loc)
  | [] => []
  | x :: xs => x :: xs.takeWhile fun y => y.2.kind == x.2.kind && y.2.dest == x.2.dest

/-- Spans located for the job's next access: k runs on those that lie in one kind of place. A row of a DCMT moves whole, so that all of its
pages come first (R156, R230). -/
def withSpans (s : State) (id : Nat) (j : Job) (n : Need) (todo : List Span) (k : State → Job → List (Span × Loc) → Move) : Move :=
  let r := jobLocs id n s j todo
  let s := setJob r.1 id r.2.1
  match r.2.2.2 with
  | none => k s r.2.1 (oneKind r.2.2.1)
  | some c =>
    if j.cmd ≠ 4 ∧ r.2.2.1 ≠ [] then k s r.2.1 (oneKind r.2.2.1)
    else
      match c with
      | .bad c => .stop s 259 c (((todo.drop r.2.2.1.length).head?.map fun p => p.2.1).getD 0)
      | _ => .wait s

/-- A turn of an access to a peer or host: it is sent, waited for, and then `fin` takes status and bytes. A host's answer is not
known here: a protection NAK (R362), for a read a failed integrity check (R296), or the access done. -/
def remoteTurn (s : State) (id : Nat) (j : Job) (len : Nat) (send : State → State)
    (fin : State → Job → Nat → List Byte → Move) : Move :=
  match j.ref with
  | none =>
    let s := send s
    .went (setJob s id { j with ref := some (s.nextOp - 1) })
  | some r =>
    let s' := { s with remotes := s.remotes.filter fun m => !(m.2.owner == 2 && m.2.req == id) }
    match tget s.remotes r with
    | none => .wait s
    | some m =>
      if m.answered then fin s' { j with ref := none } m.status (toBytes m.data)
      else if m.host then
        let pick := Config.freeChoice s.fresh 1 % 3
        fin s' { j with ref := none } (if pick = 1 then 305 else if pick = 2 ∧ 0 < len then 87 else 0)
          ((List.range len).map fun i => (Config.freeWord s.fresh i).truncate 8)
      else .wait s

/-- The poison code of where a byte lies (R224). -/
def spanPoison (l : Loc) : Nat := if l.kind = 3 then (if l.dest = 1 then 92 else 116) else 68 + 8 * l.kind

/-- Bytes of a local span with their poison. -/
def readSpan (s : State) (j : Job) (p : Span) : List (Byte × Bool) :=
  (List.range p.2.2).map fun i =>
    match jobLocal s j p.1 (p.2.1 + i) with
    | some o => (readLocal1 s (p.1 - 1) j.unit.core (s.owner j.part) o, poisoned s (p.1 - 1) j.unit.core o 1)
    | none => (0, false)

/-- Spans of bytes already dealt with are left out. -/
def dropSpans : Nat → List Span → List Span
  | _, [] => []
  | k, p :: ps => if p.2.2 ≤ k then dropSpans (k - p.2.2) ps else (p.1, p.2.1 + k, p.2.2 - k) :: ps

/-- The job takes the next bytes of its reads. -/
def jobRead (s : State) (id : Nat) (j : Job) (reads : List Span) : Move :=
  withSpans s id j ⟨true, false, false⟩ ((dropSpans j.buf.length reads).flatMap Span.parts) fun s j run =>
  let len := run.foldl (fun n x => n + x.1.2.2) 0
  match run with
  | [] => .wait s
  | (p, l) :: more =>
    if l.kind = 3 then .went (setJob s id { j with buf := j.buf ++ run.flatMap fun x => readSpan s j x.1 })
    else if l.kind = 0 then
      if run.any fun x => lineLocked s x.2 then .wait s
      else
        let q := run.foldl (fun (q : State × List (Byte × Bool)) x =>
          let g := homeRead q.1 x.2 (s.owner j.part) x.1.2.2
          (g.1, q.2 ++ g.2.1.map fun b => (b, g.2.2))) (s, [])
        .went (setJob q.1 id { j with buf := j.buf ++ q.2 })
    else
      remoteTurn s id j len
        (fun s =>
          if l.kind = 1 then
            sendPeer s j.part j.ctx j.unit.core l.dest 2 id
              (match more with
               | [] => .read l.addr p.2.2
               | _ => .tileRead (run.map fun x => (x.2.addr, x.1.2.2)))
          else run.foldl (fun s x => sendHost s x.2 2 id none x.1.2.2) s)
        fun s j status bs =>
          if status = 0 ∨ status = 76 then
            .went (setJob s id { j with buf := j.buf ++ (bs.take len).map fun b => (b, status == 76) })
          else .stop (setJob s id j) status status p.2.1

/-- Local bytes written, with their poison. -/
def writeSpan (s : State) (j : Job) (p : Span) (bs : List (Byte × Bool)) : State :=
  ((List.range p.2.2).zip bs).foldl (fun s x =>
    match jobLocal s j p.1 (p.2.1 + x.1) with
    | some o =>
      let s := putLocal s (p.1 - 1) j.unit.core (s.owner j.part) o [x.2.1]
      if x.2.2 then setPois s (p.1 - 1) j.unit.core o 1 else s
    | none => s) s

/-- A sector whose last bytes a job writes, after all before them, is clean again (R143). -/
def cleanSector (s : State) (l : Loc) : State :=
  let r := homeFor s l (s.owner l.part) 1
  modLine r.1 r.2 fun x => { x with pois := x.pois &&& ~~~(BitVec.ofNat 4 (2 ^ (l.addr % 128 / 32))) }

/-- Bytes leave IN and OUT of an object, and a phase with nothing pending completes; none where a count would leave its range (R195,
R200). -/
def objectTake (x inb out : Nat) : Option Nat :=
  if aoOut x < out ∨ aoIn x - inb < -(2 : Int) ^ 39 then none else some (aoSettle (aoCounts x (aoIn x - inb) (aoOut x - out)))

/-- The bytes of an arrival object at window offset off of a block, updated by f where it is there (R200). -/
def updateObject (s : State) (key off : Nat) (f : Nat → Nat) : State :=
  match tget s.blocks key with
  | none => s
  | some b =>
    let own := s.owner b.part
    let os := winOffsets b off 16
    if os.length ≠ 16 then s
    else
      let x := leNat (os.map fun o => readLocal1 s 0 (key / 16) own o)
      (os.zip (natLe 16 (f x))).foldl (fun s p => writeLocal1 s 0 (key / 16) own p.1 p.2) s

/-- The object's value, none where it is not there. -/
def objectAt (s : State) (key off : Nat) : Option Nat :=
  match tget s.blocks key with
  | none => none
  | some b =>
    let os := winOffsets b off 16
    if os.length = 16 then some (leNat (os.map fun o => readLocal1 s 0 (key / 16) (s.owner b.part) o)) else none

/-- The job's arrival object loses bytes of IN and of OUT: an update that would leave the range is not made, and 201 is recorded. -/
def jobLand (s : State) (j : Job) (inb out : Nat) : State × Job :=
  match j.aoff with
  | none => (s, j)
  | some o =>
    let j' := { j with inLeft := j.inLeft - inb, out := j.out - out }
    match objectAt s (blockKey j.unit) o with
    | none => (s, j')
    | some x =>
      match objectTake x inb out with
      | some y => (updateObject s (blockKey j.unit) o fun _ => y, j')
      | none => (s, { j' with objFault := 201 })

/-- n bytes of the job have landed where l says, pay of them payload: each byte leaves IN, or OUT, when it is written (R200). -/
def jobLanded (s : State) (j : Job) (l : Loc) (n pay : Nat) : State × Job :=
  let inb := if l.kind = 3 ∧ l.dest = 1 then min pay j.inLeft else 0
  let out := if l.kind = 3 then 0 else min n j.out
  if inb + out = 0 then (s, j) else jobLand s j inb out

/-- The piece is of the payload, not of the validity bytes. -/
def Job.isPayload (j : Job) : Bool := if j.cmd = 4 then decide (j.pos < 2 * j.moves.1.length) else decide (j.pos < j.total)

/-- A sector of global memory that a dray writes: the core's clean L1 copy goes, and its stash lines there are filled no longer. Dirty bytes in
them stay, and may come home after the job's (R151, R193; DESIGN CHOICE, log 72). -/
def jobCovers (s : State) (core : Nat) (l : Loc) : State :=
  let p (x : Loc) : Bool := sectorLoc x == sectorLoc l
  unfillWhere (dropClean s core p) core p

/-- The job writes the next bytes of its destination; `bs` are all bytes of the piece (R193, R221). -/
def jobWrite (s : State) (id : Nat) (j : Job) (writes : List Span) (bs : List (Byte × Bool)) (fin : State → Job → State) : Move :=
  withSpans s id j ⟨false, true, false⟩ ((dropSpans j.put writes).flatMap Span.parts) fun s j run =>
  let len : Nat := run.foldl (fun n x => n + x.1.2.2) 0
  let all : Nat := writes.foldl (fun n x => n + x.2.2) 0
  let pay : Nat := if j.isPayload then (writes.head?.map fun p => p.2.2).getD 0 else 0
  let done (s : State) (j : Job) (l : Loc) : Move :=
    let r := jobLanded s j l len (min (j.put + len) pay - min j.put pay)
    let j : Job := { r.2 with put := j.put + len }
    .went (if all ≤ j.put then fin r.1 { j with put := 0, buf := [] } else setJob r.1 id j)
  match run with
  | [] => .wait s
  | (p, l) :: _ =>
    let src := bs.drop j.put
    if l.kind = 3 then
      done ((run.foldl (fun (q : State × List (Byte × Bool)) x =>
        (writeSpan q.1 j x.1 q.2, q.2.drop x.1.2.2)) (s, src)).1) j l
    else
      let fresh := run.foldl (fun s x => jobCovers s j.unit.core x.2) s
      if l.kind = 0 then
        if run.any fun x => lineLocked s x.2 then .wait s
        else
          done ((run.foldl (fun (q : State × List (Byte × Bool)) x =>
            let now := q.2.take x.1.2.2
            let s := homeWrite q.1 x.2 (s.owner j.part) (now.map Prod.fst)
            let s :=
              if now.any Prod.snd then homePoison s x.2 (s.owner j.part) x.1.2.2
              else if (x.2.addr + x.1.2.2) % 32 = 0 ∧ 32 ≤ j.pos % j.rowBytes + x.1.2.2 ∧ j.pois = none then cleanSector s x.2
              else s
            (s, q.2.drop x.1.2.2)) (fresh, src)).1) j l
      else
        remoteTurn fresh id j 0
          (fun s =>
            (run.foldl (fun (q : State × List (Byte × Bool) × List (Nat × List Nat)) x =>
              let now := q.2.1.take x.1.2.2
              (if l.kind = 1 then q.1 else sendHost q.1 x.2 2 id (some (now.map Prod.fst)) x.1.2.2,
                q.2.1.drop x.1.2.2, q.2.2 ++ [(x.2.addr, now.map fun b => b.1.toNat + if b.2 then 256 else 0)])) (s, src, []))
            |> fun q =>
              if l.kind = 1 then
                sendPeer q.1 j.part j.ctx j.unit.core l.dest 2 id
                  (match q.2.2 with
                   | [(a, xs)] => .write (((List.range xs.length).map (a + ·)).zip xs)
                   | rows => .tileWrite rows)
              else q.1)
          fun s j status _ => if status = 0 then done s j l else .stop (setJob s id j) status status p.2.1

/-! ## DCOL (R227) -/

/-- The KIND and operation of an element update: operation 0 ADD, 1 MIN, 2 MAX. -/
def colKind (fmt : Nat) : Nat := if fmt = 4 then 2 else if fmt = 5 then 3 else if fmt = 7 then 1 else 0
def colOp (fmt op : Nat) : Nat := if fmt = 8 then 0 else if op = 0 then 13 else if op = 1 then 14 else 15

/-- An element update where it is performed; a poisoned source marks the element (R227). -/
def jobCombine (s : State) (id : Nat) (j : Job) (d : Span) (fin : State → Job → State) : Move :=
  let r := jobLoc s id j ⟨true, true, true⟩ d
  let j := r.2.1
  let s := setJob r.1 id j
  let c := leNat (j.buf.map Prod.fst)
  let bad := j.buf.any Prod.snd
  let n := d.2.2
  let kind := colKind j.fmt
  let op := colOp j.fmt (j.arg.toNat % 4)
  let own := s.owner j.part
  let det := (s.ctx j.part j.ctx).redmode % 2 == 1
  match r.2.2 with
  | .wait => .wait s
  | .bad k => .stop s 259 k d.2.1
  | .ok l =>
    let half := if kind < 2 then 0 else if l.addr % 4 = 0 then 1 else 2
    let lane : LaneAtom := ⟨0, { l with addr := l.addr / kindSize kind * kindSize kind }, d.2.1, if half = 2 then c * 65536 else c, 0, 0, false⟩
    let done (s : State) (j : Job) : Move :=
      let r := jobLanded s j l n n
      .went (fin r.1 r.2)
    let flagged (s : State) (j : Job) (old : Nat) : Move := done s { j with flags := orNat j.flags (elemUpdate kind op old c).2 }
    if l.kind = 3 then
      let old := readSpan s j d
      if bad || old.any Prod.snd then done (writeSpan s j d (old.map fun x => (x.1, true))) j
      else
        flagged (writeSpan s j d ((natLe n (elemUpdate kind op (leNat (old.map Prod.fst)) c).1).map fun b => (b, false))) j
          (leNat (old.map Prod.fst))
    else
      let s := jobCovers s j.unit.core l
      if l.kind = 0 then
        if lineLocked s l then .wait s
        else if bad then done (homePoison s l own n) j
        else
          let r := homeLine s (homeSlice s l) (l.addr / 128) own (ctxpOf l)
          if det then
            done { holdRed r.1 (homeSlice s l) ⟨lineLoc l, op, kind, half, [lane], sourceId s j.unit, s.nextStamp, own, j.unit.core, id⟩ with
              nextStamp := s.nextStamp + 1 } j
          else
            let s := settleRed r.1 (homeSlice s l) (l.addr / 128) l.addr n
            let x := (lineAt s r.2).atom op kind half lane
            let s := { s with l2 := tset s.l2 r.2 x.1 }
            if x.2.pois then done (logRas s j.part 68 (homeSlice s l) l.addr j.ctx) j else flagged s j (halfOf kind half x.2.old)
      else
        remoteTurn s id j 0
          (fun s => sendPeer s j.part j.ctx j.unit.core l.dest 2 id
            (if bad then .write ((List.range n).map fun i => (l.addr + i, 256))
             else .atomic op kind half [(lane.loc.addr, lane.src, 0)] (if det then some (sourceId s j.unit) else none)))
          fun s j status bs =>
            if bad ∧ status = 0 ∨ status = 76 then done s j
            else if status = 0 then (if det then done s { j with unheard := true } else flagged s j (halfOf kind half (leNat bs)))
            else .stop (setJob s id j) status status d.2.1

/-! ## DMCS (R228, R229, R356) -/

def bitsOf (m n : Nat) : List Nat := (List.range n).filter fun i => m / 2 ^ i % 2 == 1
def bitCount (m : Nat) : Nat := (bitsOf m 512).length

/-- Frames of a payload: 1 024 bytes each, the mask in the first (R356). -/
def mcastFrames (h : FrameHdr) (core bslot gid mask : Nat) : Nat → List Nat → List OutMsg
  | 0, _ => []
  | fuel + 1, bs =>
    .mcd ⟨h, core, bslot, gid, mask, bs.take 1024, decide (bs.length ≤ 1024)⟩ ::
      (if bs.length ≤ 1024 then [] else mcastFrames h core bslot gid 0 fuel (bs.drop 1024))

/-- The payload leaves: one copy for each port that targets are reached by, with the mask of its targets; a target with no route
is held for. -/
def sendMcast (s : State) (j : Job) : State :=
  let gid := j.arg.toNat % 65536
  let frames (dst mask : Nat) :=
    mcastFrames (headTo s j.part j.ctx dst j.ticket) j.unit.core j.unit.bslot gid mask (j.data.length / 1024 + 1) (ofBytes j.data)
  let r := (bitsOf j.targets 512).foldl (fun (r : State × List (Nat × Nat) × List Nat) m =>
    let q := routesTo r.1 j.part (j.members.getD m 0)
    match q.2.find? fun p => decide ((q.1.port p).unacked.length < 2048) with
    | some p => (q.1, r.2.1 ++ [(p, m)], r.2.2)
    | none => (q.1, r.2.1, r.2.2 ++ [m])) (s, [], [])
  let s := (r.2.1.map Prod.fst).eraseDups.foldl (fun s p =>
    let ms := (r.2.1.filter fun x => x.1 == p).map Prod.snd
    (frames (j.members.getD (ms.headD 0) 0) (ms.foldl (fun x m => x + 2 ^ m) 0)).foldl (fun s f => sendOn s p f) s) r.1
  { s with unsent := s.unsent ++ r.2.2.flatMap fun m => (frames (j.members.getD m 0) (2 ^ m)).map fun f => (j.members.getD m 0, f) }

/-- The completion record of a send (R229). -/
def mcastRecord (j : Job) : Nat :=
  j.acks + j.refs * 2 ^ 512 + j.negs * 2 ^ 1024 + j.members.length * 2 ^ 1536 + bitCount j.targets * 2 ^ 1552 +
    bitCount j.acks * 2 ^ 1568 + bitCount j.refs * 2 ^ 1584 + bitCount j.negs * 2 ^ 1600 + j.ticket * 2 ^ 1616

/-- Window offset of the completion record. -/
def Job.recordOff (j : Job) : Nat := fld j.arg.toNat 16 20

/-- Responses reach the sender: each of its targets stands in the mask of its first response; OUT falls by the payload at each
(R228, R356). -/
def mcastAnswer (s : State) (id : Nat) (ack refuse neg : Nat) : State :=
  match tget s.jobs id with
  | none => s
  | some j =>
    let open_ := Nat.land j.targets (2 ^ 512 - 1 - Nat.lor j.acks (Nat.lor j.refs j.negs))
    let a := Nat.land open_ ack
    let r := Nat.land (open_ - a) refuse
    let n := Nat.land (open_ - a - r) neg
    let sub := min j.out (bitCount (a + r + n) * j.data.length)
    let q := if sub = 0 then (s, j) else jobLand s j 0 sub
    setJob q.1 id { q.2 with acks := j.acks + a, refs := j.refs + r, negs := j.negs + n }

/-- Every target has answered. -/
def Job.answered (j : Job) : Bool := j.acks + j.refs + j.negs == j.targets

/-! ## Progress, stop, completion -/

/-- The status word (R225). -/
def jobStatus (state offset cause flags : Nat) : DWord :=
  BitVec.ofNat 64 (state + flags % 128 * 2 ^ 8 + cause % 512 * 2 ^ 15 + offset * 2 ^ 24)

def setTicket (s : State) (j : Job) (w : DWord) : State :=
  s.modBlockAt (blockKey j.unit) fun b =>
    if (tget b.tickets j.ticket).isSome then { b with tickets := tset b.tickets j.ticket w } else b

/-- The bytes read by a piece. -/
def spanBytes (ps : List Span) : Nat := ps.foldl (fun n p => n + p.2.2) 0

/-- The bytes a DCMT has moved, or the job offset (R222). -/
def Job.offset (j : Job) : Nat :=
  if j.cmd = 4 then
    ((List.range (min j.pos (2 * j.moves.1.length))).map fun i => (j.commitRow (i % 2 == 1) 0).2.2).foldl (· + ·) 0
  else min j.pos j.total

/-- Poison among the bytes read is noted with the end of its line's portion (R224). -/
def Job.notePoison (j : Job) (reads : List Span) : Job :=
  match j.pois, j.buf.findIdx? Prod.snd, reads with
  | none, some k, (sp, a, n) :: _ =>
    let k := min k (n - 1)
    let code := if sp = 0 then 68 else if sp = 1 then 92 else 116
    let line := if sp = 0 then (a + k) / 128 * 128 else a + k
    let rest := 128 - (a + k) % 128
    let o := j.offset + k
    { j with pois := some (o, code, line,
        if j.cmd = 4 then j.pos + 1 else min (o + rest) ((j.pos / j.rowBytes + 1) * j.rowBytes)) }
  | _, _, _ => j

/-- A job moves past a piece. -/
def jobPast (id n : Nat) (s : State) (j : Job) : State := setJob s id { j with pos := j.pos + n, put := 0, buf := [] }

/-- The page kind of poison in global memory, for the code to deliver. -/
def poisonAt (s : State) (id : Nat) (j : Job) (code addr : Nat) : Nat :=
  if code = 68 then
    match (jobLoc s id j ⟨true, false, false⟩ (0, addr, 1)).2.2 with
    | .ok l => 68 + 8 * l.kind
    | _ => 68
  else code

/-- Something issued earlier on the core holds the job back; jobs that name one arrival object do not hold each other back by it (R191,
R200). -/
def jobHeld (s : State) (j : Job) : Bool :=
  let foot : Job → List Foot :=
    match j.aoff, tget s.blocks (blockKey j.unit) with
    | some o, some b => footBeside b (blockKey j.unit) o
    | _, _ => Job.foot
  scoreboardWith foot s j.unit.core j.foot j.stamp

/-- One step of a job that nothing issued earlier on the core holds back (R191, R222). -/
def jobMove (s : State) (id : Nat) : Move :=
  match tget s.jobs id with
  | none => .wait s
  | some j =>
    if j.ovr || jobHeld s j then .wait s
    else
      let s := setTicket s j (jobStatus 2 0 0 0)
      match j.pois with
      | some (_, code, addr, stop) =>
        if stop ≤ j.pos ∨ j.cmd = 3 then .stop s (poisonAt s id j code addr) (poisonAt s id j code addr) addr
        else
          match j.next with
          | .copy n reads writes =>
            if j.buf.length < spanBytes reads then jobRead s id j reads else jobWrite s id j writes j.buf (jobPast id n)
          | .combine n reads d =>
            if j.buf.length < spanBytes reads then jobRead s id j reads else jobCombine s id j d (jobPast id n)
          | _ => .stop s (poisonAt s id j code addr) (poisonAt s id j code addr) addr
      | none =>
        match j.next with
        | .copy n reads writes =>
          if j.buf.length < spanBytes reads then jobRead s id j reads
          else
            let j' := j.notePoison reads
            if j'.pois.isSome then .went (setJob s id { j' with buf := [] }) else jobWrite s id j writes j.buf (jobPast id n)
        | .combine n reads d =>
          if j.buf.length < spanBytes reads then jobRead s id j reads
          else
            let j' := j.notePoison reads
            if j'.pois.isSome then .went (setJob s id { j' with buf := [] }) else jobCombine s id j d (jobPast id n)
        | .gather n reads =>
          if j.buf.length < spanBytes reads then jobRead s id j reads
          else
            let j := j.notePoison reads
            .went (if j.pois.isSome then setJob s id j else jobPast id n s { j with data := j.data ++ j.buf.map Prod.fst })
        | .fill n bytes writes => jobWrite s id j writes (bytes.map fun b => (b, false)) (jobPast id n)
        | .set b d => jobWrite s id j [d] [(b, false)] (jobPast id 1)
        | .index c a => .stop s c c a
        | .send => .went (setJob (sendMcast s j) id { j with sent := true })
        | .finish =>
          if j.cmd = 3 ∧ !j.answered then .wait s
          else
            let s := if j.cmd = 3 then
              writeSpan s j (1, j.recordOff, 256) ((natLe 256 (mcastRecord j)).map fun b => (b, false)) else s
            .went (setJob s id { j with ovr := true })

/-- Progress of a job: not an instruction, a step of its engine. -/
def jobProgress (s : State) (id : Nat) : State :=
  match jobMove s id with
  | .went s => s
  | .wait s => s
  | .stop _ _ _ _ => s

/-- DRAY_JOB_STOP: a job that meets poison, a page that fails or a bad index goes no further (R224). -/
def execDrayJobStop (id : Nat) (s : State) : Result :=
  .next (match jobMove s id, tget s.jobs id with
    | .stop s code cause addr, some j =>
      let off := match j.pois with
        | some p => p.1
        | none => j.offset
      setJob s id { j with
        stop := some (off, cause, ⟨code, addr, originWord j.ticket j.pkt j.slot, j.leader, false⟩)
        ovr := true, ref := none }
    | _, _ => s)

/-- Payload bytes a job was to write into the scratchpad (R200). -/
def Job.inBytes (j : Job) : Nat :=
  if j.cmd = 3 then 0
  else if j.cmd = 4 then
    ((List.range (2 * j.moves.1.length)).map fun i =>
      let r := j.commitRow (i % 2 == 1) 0
      if r.1 = 1 then r.2.2 else 0).foldl (· + ·) 0
  else if recSpace j.dst = 1 then j.total else 0

/-- FLG: the flags raised; those of updates that a deterministic buffer still holds are not known when the status is fixed, so that FLG is
free then (R223, R361, log 33). -/
def Job.flagsNow (j : Job) (s : State) (id : Nat) : Nat :=
  if j.unheard || s.redbuf.any fun x => x.2.any fun r => r.job == id then orNat j.flags ((Config.freeWord s.fresh id).toNat % 128) else j.flags

/-- DRAY_JOB_COMPLETE: status, completion word, arrival object and flag, in this order (R223). -/
def execDrayJobComplete (id : Nat) (s : State) : Result :=
  .next (match tget s.jobs id with
    | none => s
    | some j =>
      if !j.ovr then s
      else
        let w := match j.stop with
          | some (o, c, _) => jobStatus 4 o c (j.flagsNow s id)
          | none => jobStatus (if j.refs + j.negs = 0 then 3 else 5) 0 0 (j.flagsNow s id)
        let s := setTicket { s with jobs := tdel s.jobs id, misses := s.misses.filter fun m => !(m.req == jobRequester id) } j w
        let s := if j.comp.getLsbD 20 then
          writeSpan s j (1, j.comp.toNat % 2 ^ 20, 4) ((natLe 4 (j.comp.toNat / 2 ^ 32)).map fun b => (b, false)) else s
        let fault := j.stop.map fun x => x.2.2
        let bad := match j.aoff with
          | some o => (objectAt s (blockKey j.unit) o).any aoBad
          | none => false
        let q := if bad then (s, j) else jobLand s j j.inLeft j.out
        let s := q.1
        let code := if bad then 200 else q.2.objFault
        let fault := match fault, j.aoff with
          | none, some o => if code = 0 then none else some ⟨code, o, originWord j.ticket j.pkt j.slot, j.leader, false⟩
          | f, _ => f
        s.modUnit j.unit fun t => t.complete j.flag fault)

/-! ## Issue (R216 to R220) -/

/-- What fetching a record gives. -/
inductive RecGot where
  | got (r : Nat)
  | wait
  | bad (code : Nat)
deriving DecidableEq, Repr

/-- The key an instruction's fetch of a remote record waits under. -/
def recordKey (u : UnitId) (which : Nat) : Nat := requester u * 2 + which

/-- A layout record fetched at issue (R219). -/
def fetchRecord (s : State) (which va : Nat) : State × RecGot :=
  if va % 64 ≠ 0 then (s, .bad 256)
  else
    let r := checkMine s va 64 ⟨true, false, false⟩
    let s := r.1
    match r.2 with
    | .wait => (s, .wait)
    | .bad c => (s, .bad c)
    | .ok l =>
      if l.kind = 0 then
        if lineLocked s l then (s, .wait)
        else
          let q := homeNat s l (ownerNow s) 64
          (q.1, if q.2.2 then .bad 68 else .got q.2.1)
      else
        match s.remotes.find? fun m => m.2.owner == 6 && m.2.req == recordKey s.cur which with
        | some (_, m) =>
          if m.answered then (s, if m.status = 0 then .got (leNat (toBytes m.data)) else .bad m.status)
          else if m.host then
            (s, if Config.freeChoice s.fresh 1 % 3 = 1 then .bad 305
              else if Config.freeChoice s.fresh 1 % 3 = 2 then .bad 87
              else .got (leNat ((List.range 8).flatMap fun i => natLe 8 (Config.freeWord s.fresh i).toNat)))
          else (s, .wait)
        | none =>
          if l.kind = 1 then (sendPeer s l.part l.ctx s.cur.core l.dest 6 (recordKey s.cur which) (.read l.addr 64), .wait)
          else (sendHost s l 6 (recordKey s.cur which) none 64, .wait)

/-- The fetches of the current unit are done with. -/
def dropRecords (s : State) : State :=
  { s with remotes := s.remotes.filter fun m => !(m.2.owner == 6 && m.2.req / 2 == requester s.cur) }

/-- The command's own rules (R226 to R230). -/
def drayRuleBad (cmd : Nat) (src dst : Nat) (sorg dorg box : List Nat) (arg : Nat) : Bool :=
  let sf := recFmt src
  let df := recFmt dst
  let rb (r : Nat) := recExt r 0 * fmtNibs (recFmt r) / 2
  let overlap := decide (2 ≤ recRank dst) && decide (recStr dst 1 * 16 < rb dst)
  if cmd ≤ 2 then
    sf != df || recScaled src != recScaled dst || overlap ||
      (recScaled src && (sorg.getD 0 0 % 32 != 0 || dorg.getD 0 0 % 32 != 0 || box.getD 0 0 % 32 != 0)) ||
      (cmd != 0 && (decide (recRank src < 2) || decide (recRank dst < 2)))
  else if cmd = 5 then recScaled dst || overlap
  else if cmd = 6 then
    sf != df || recScaled src || recScaled dst || !(sf == 4 || sf == 5 || sf == 6 || sf == 7 || sf == 8) ||
      (sf == 8 && arg % 4 != 0)
  else if cmd = 3 then
    decide (16384 < box.getD 0 0 * fmtNibs sf / 2 * boxRows box)
  else
    decide (recRank src < 2) || decide (recRank dst < 2) || !recKv src || !recKv dst || recExt src 1 != recExt dst 1 ||
      rb src % 16 != 0 || rb dst % 16 != 0 || decide (16384 < rb src) || decide (16384 < rb dst) ||
      box.getD 0 0 != recExt src 0 || box.getD 0 0 != recExt dst 0 ||
      !(decide (1 ≤ box.getD 1 0) && decide (box.getD 1 0 ≤ 64)) ||
      ((List.range 5).any fun k => decide (2 ≤ k) && decide (k < max (recRank src) (recRank dst)) && box.getD k 0 != 1) ||
      decide (sorg.getD 1 0 < dorg.getD 1 0) || decide (2 ^ (box.getD 1 0) ≤ arg)

/-- The box lies within a record's extents; the indexed side has no dimension 1 of its own. -/
def boxInside (r : Nat) (org box : List Nat) (skip1 : Bool) : Bool :=
  (List.range 5).all fun k => (skip1 && k == 1) || decide (org.getD k 0 + box.getD k 0 ≤ recExt r k)

/-- The local spans of a job, each with whether it writes it (R221). -/
def Job.spans (j : Job) : List (Span × Bool) :=
  let groups := (j.sorg.getD 0 0 + j.box.getD 0 0 + 31) / 32 - j.sorg.getD 0 0 / 32
  let rows := List.range (boxRows j.box)
  let ok := rows.filter fun i => (j.badIndex i).isNone
  let srcs := if j.cmd = 5 ∨ j.cmd = 4 then [] else ok.flatMap fun i =>
    ((recSpace j.src, elemAt j.src (j.coords false i 0), j.rowBytes), false) ::
      (if recScaled j.src then [((recSpace j.src, scaleAt j.src (j.coords false i 0), groups), false)] else [])
  let dsts := if j.cmd = 3 ∨ j.cmd = 4 then [] else ok.flatMap fun i =>
    ((recSpace j.dst, elemAt j.dst (j.coords true i 0), j.rowBytes), true) ::
      (if recScaled j.dst then [((recSpace j.dst, scaleAt j.dst (j.coords true i 0), j.box.getD 0 0 / 32), true)] else [])
  let vals := if j.validity then (List.range (j.box.getD 1 0)).flatMap fun k =>
    [((recSpace j.src, recAux j.src + (j.coords false k 0).getD 1 0, 1), false),
      ((recSpace j.dst, recAux j.dst + (j.coords true k 0).getD 1 0, 1), true)] else []
  let commits := if j.cmd = 4 then
    (j.moves.1.flatMap fun m => [(j.commitRow false m.1, false), (j.commitRow true m.1, false),
      (j.commitRow false m.2, true), (j.commitRow true m.2, true)]) ++
    (j.commitValid.flatMap fun v =>
      [((recSpace j.src, recAux j.src + v.1, 1), true), ((recSpace j.dst, recAux j.dst + v.1, 1), true)]) else []
  (srcs ++ dsts ++ vals ++ commits).filter fun x => x.1.1 != 0

/-- The other local bytes of a job: index array, completion word, completion record. -/
def Job.extras (j : Job) : List (Span × Bool) :=
  (if j.cmd = 1 ∨ j.cmd = 2 then [((1, j.arg.toNat % 2 ^ 20, 4 * j.box.getD 1 0), false)] else []) ++
  (if j.comp.getLsbD 20 then [((1, j.comp.toNat % 2 ^ 20, 4), true)] else []) ++
  (if j.cmd = 3 then [((1, j.recordOff, 256), true)] else [])

/-- A local span lies where a job may reach. -/
def spanOk (b : Block) (p : Span) : Bool :=
  if p.1 = 1 then winOk b p.2.1 p.2.2 else decide (p.2.1 + p.2.2 ≤ b.accSize)

/-- A local span as footprints on the core. -/
def spanFoot (b : Block) (x : Span × Bool) : List Foot :=
  if x.1.1 = 1 then winFoot b x.1.2.1 x.1.2.2 x.2 else [⟨1, b.accOff + x.1.2.1, x.1.2.2, x.2⟩]

/-- Bytes that OUT counts at issue (R200). -/
def Job.outBytes (j : Job) : Nat :=
  if j.cmd = 3 then
    let groups := (j.sorg.getD 0 0 + j.box.getD 0 0 + 31) / 32 - j.sorg.getD 0 0 / 32
    (j.box.getD 0 0 * fmtNibs j.fmt / 2 + (if recScaled j.src then groups else 0)) * boxRows j.box * bitCount j.targets
  else if (j.cmd ≤ 2 ∨ j.cmd = 6) ∧ recSpace j.src ≠ 0 ∧ recSpace j.dst = 0 then
    j.total + (if recScaled j.dst then boxRows j.box * (j.box.getD 0 0 / 32) else 0) + (if j.validity then j.box.getD 1 0 else 0)
  else 0

/-- The members of a group as the issuing context finds it, none where it may not send (R355). -/
def groupMembers (s : State) (part ctx gid : Nat) : State × Option (List Nat) :=
  let r := fabricEntry s part 2 gid 32
  let e := r.2
  if e % 2 = 0 ∨ fld e 23 3 ≠ part ∨ fld e (64 + ctx) 1 = 0 then (r.1, none)
  else
    let q := homeRead r.1 (chipLoc part 0 (fld e 128 64)) (s.owner part) (4 * fld e 13 10)
    (q.1, some ((List.range (fld e 13 10)).map fun m => leNat ((q.2.1.drop (4 * m)).take 4) % 2 ^ 17))

/-- The dray with the fewest jobs, none when all 32 slots are taken (R215). -/
def pickDray (s : State) (core : Nat) : Option Nat :=
  let n (d : Nat) := (s.jobs.filter fun j => j.2.unit.core == core && j.2.dray == d).length
  let best := (List.range 4).foldl (fun b d => if n d < n b then d else b) 0
  if n best < 8 then some best else none

/-- A job enters flight (R220). -/
def startJob (s : State) (x f : Nat) (j : Job) : State :=
  let s := dropRecords s
  let s := writeS s (x + 2) (BitVec.ofNat 64 j.ticket)
  let s := s.modTeam fun t => t.flagUp f
  let s := s.modBlock fun b => { b with
    nextTicket := j.ticket
    tickets := (tset b.tickets j.ticket (jobStatus 1 0 0 0)).filter fun e =>
      decide ((j.ticket + 65535 - e.1) % 65535 < 64) }
  let s := match j.aoff with
    | some o => if j.out = 0 then s else updateObject s (blockKey j.unit) o fun x =>
        aoCounts x (aoIn x) (aoOut x + j.out)
    | none => s
  { s with jobs := tset s.jobs s.nextOp j, nextOp := s.nextOp + 1, nextStamp := s.nextStamp + 1 }

/-- The operand word of a command breaks its rule: 256, or 258 for a misaligned offset (R217, R226, R227, R228). -/
def argCause (cmd cb : Nat) (comp arg : Nat) : Option Nat :=
  if fld comp 21 11 != 0 || (cmd == 0 && arg != 0) || ((cmd == 1 || cmd == 2) && decide (2 ^ 20 ≤ arg)) ||
      (cmd == 3 && decide (2 ^ 37 ≤ arg)) || (cmd == 6 && decide (3 ≤ arg)) then some 256
  else if (fld comp 20 1 == 1 && comp % 4 != 0) || ((cmd == 1 || cmd == 2) && arg % 4 != 0) ||
      (cmd == 3 && fld arg 16 20 % 64 != 0) || cb % 32 != 0 then some 258
  else none

/-- The BASE of a local record lies outside the window or the accumulator reservation (R219). -/
def baseOutside (b : Block) (r : Nat) : Bool :=
  if recSpace r = 1 then (winByte b (recBase r)).isNone
  else recSpace r == 2 && decide (b.accSize ≤ recBase r)

/-- Bytes of the current block's window as numbers of 4 bytes, none where they carry poison. -/
def readIndices (s : State) (off n : Nat) : List (Option Nat) :=
  (List.range n).map fun i => if winPoisoned s (off + 4 * i) 4 then none else some (leNat (readWin s (off + 4 * i) 4))

/-- A dray command with a leader (R220): the checks in their order, then the job. -/
def issueJob (s : State) (cmd : Nat) (o : DrOp) (aoff : Option Nat) (lead : Nat) : State :=
  let trap (c a : Nat) (s : State) : State := raise { causeOf c with lane := lead, addr := a } (dropRecords (dropMisses s (requester s.cur)))
  let comp := readS s (o.x + 1)
  let arg := readS s (o.x + 3)
  let cb := (readS s o.x).toNat
  match argCause cmd cb comp.toNat arg.toNat with
  | some c => trap c 0 s
  | none =>
    if aoff.any fun a => !winOk s.block a 16 then trap 258 (aoff.getD 0) s
    else if !winOk s.block cb 32 then trap 258 cb s
    else if windowBusy s (winFoot s.block cb 32 false) then stall s
    else if winPoisoned s cb 32 then trap 92 cb s
    else
      let c := leNat (readWin s cb 32)
      let box := (List.range 5).map fun k => fld c (128 + 16 * k) 16
      if fld c 208 48 ≠ 0 then trap 256 cb s
      else
        let r1 := if cmd = 5 then (s, RecGot.got 0) else fetchRecord s 0 (fld c 0 64)
        match r1.2 with
        | .wait => stall r1.1
        | .bad k => trap k (fld c 0 64) r1.1
        | .got src =>
          let r2 := if cmd = 3 then (r1.1, RecGot.got 0) else fetchRecord r1.1 1 (fld c 64 64)
          match r2.2 with
          | .wait => stall r2.1
          | .bad k => trap k (fld c 64 64) r2.1
          | .got dst =>
            let s := r2.1
            if cmd ≠ 5 && recBad src then trap 256 (fld c 0 64) s
            else if cmd ≠ 3 && recBad dst then trap 256 (fld c 64 64) s
            else
              let rank := max (recRank src) (recRank dst)
              if (List.range 5).any fun k => (box.getD k 0 == 0) == decide (k < rank) then trap (if cmd = 4 then 257 else 256) cb s
              else
                let g := if cmd = 3 then groupMembers s s.block.part s.block.ctx (arg.toNat % 65536) else (s, some [])
                let s := g.1
                match g.2 with
                | none => trap 264 0 s
                | some mems =>
                  if (List.range rank).any fun k => decide (windowWidth s ≤ o.y + k) then trap 35 0 s
                  else
                    let v := (List.range 5).map fun k => if k < rank then (readV s (o.y + k) lead).toNat else 0
                    let lo := v.map (· % 65536)
                    let hi := v.map (· / 65536)
                    let pos (l : List Nat) (k : Nat) : List Nat := (List.range 5).map fun i => if cmd = 4 ∧ i = 1 then lo.getD 1 0 else l.getD (i + k) 0
                    if (cmd = 5 ∧ fld c 0 64 ≠ 0) ∨ (cmd = 3 ∧ fld c 64 64 ≠ 0) ∨ drayRuleBad cmd src dst lo hi box arg.toNat then trap 257 cb s
                    else if (cmd ≠ 5 && !boxInside src (pos lo 0) box (cmd == 1)) || (cmd ≠ 3 && !boxInside dst (pos hi 0) box (cmd == 2)) then
                      trap 257 cb s
                    else
                      let n := if cmd = 1 ∨ cmd = 2 then box.getD 1 0 else 0
                      let ia := arg.toNat % 2 ^ 20
                      let self := pkgNow s
                      let old := if cmd = 3 ∧ arg.getLsbD 36 = true then leNat (readWin s (fld arg.toNat 16 20 + 64) 64) else 2 ^ 512 - 1
                      let tgt := (List.range mems.length).foldl (fun x m =>
                        if mems.getD m 0 ≠ self ∧ old / 2 ^ m % 2 = 1 then x + 2 ^ m else x) 0
                      let t := s.team
                      let j : Job := ⟨s.cur, s.block.part, s.block.ctx, o.f, t.pkt, t.slot, lead, 0, cmd, s.block.nextTicket % 65535 + 1,
                        comp, arg, src, dst, lo, hi, box, readIndices s ia n, aoff, 0, [], 0, none, 0, [], mems, tgt, 0, 0, 0, false,
                        none, none, false, 0, [], s.nextStamp, [], 0, 0, false⟩
                      let ex := j.extras
                      if cmd ≠ 5 && baseOutside s.block src then trap 258 (fld c 0 64) s
                      else if cmd ≠ 3 && baseOutside s.block dst then trap 258 (fld c 64 64) s
                      else match ex.find? fun p => !spanOk s.block p.1 with
                      | some p => trap 258 p.1.2.1 s
                      | none =>
                        let fx := ex.flatMap (spanFoot s.block)
                        if windowBusy s (winFoot s.block ia (4 * n) false) || (cmd == 3 && windowBusy s (winFoot s.block (fld arg.toNat 16 20) 256 false)) then
                          stall s
                        else
                          let sp := j.spans
                          match sp.find? fun p => !spanOk s.block p.1 with
                          | some p => trap 258 p.1.2.1 s
                          | none =>
                            match pickDray s s.cur.core with
                            | none => stall s
                            | some d =>
                              if !flagRoom s o.f then stall s
                              else
                                let s := dropMisses s (requester s.cur)
                                startJob s o.x o.f { j with
                                  dray := d
                                  out := if aoff.isSome then j.outBytes else 0
                                  inLeft := if aoff.isSome then j.inBytes else 0
                                  foot := fx ++ sp.flatMap (spanFoot s.block) ++ (aoff.map (objectFoot s.block)).getD [] }

/-- A dray command: with no lane whose predicate holds it only clears the ticket (R217). -/
def dray (cmd : Nat) (o : DrOp) (aoff : Option Nat) (s : State) : State :=
  match (active s o.g) with
  | [] => writeS s (o.x + 2) 0
  | lead :: _ => issueJob s cmd o aoff lead

/-- DCPY (R226). -/
def execDcpy (o : DrOp) (s : State) : Result := .next (checked (operandCause (.dcpy o) s) s (dray 0 o none))
def execDcpyLong (o : DrOp) (aoff : Nat) (s : State) : Result := .next (checked (operandCause (.dcpyLong o aoff) s) s (dray 0 o (some aoff)))
/-- DGTH (R226). -/
def execDgth (o : DrOp) (s : State) : Result := .next (checked (operandCause (.dgth o) s) s (dray 1 o none))
def execDgthLong (o : DrOp) (aoff : Nat) (s : State) : Result := .next (checked (operandCause (.dgthLong o aoff) s) s (dray 1 o (some aoff)))
/-- DSCT (R226). -/
def execDsct (o : DrOp) (s : State) : Result := .next (checked (operandCause (.dsct o) s) s (dray 2 o none))
def execDsctLong (o : DrOp) (aoff : Nat) (s : State) : Result := .next (checked (operandCause (.dsctLong o aoff) s) s (dray 2 o (some aoff)))
/-- DMCS (R228). -/
def execDmcs (o : DrOp) (s : State) : Result := .next (checked (operandCause (.dmcs o) s) s (dray 3 o none))
def execDmcsLong (o : DrOp) (aoff : Nat) (s : State) : Result := .next (checked (operandCause (.dmcsLong o aoff) s) s (dray 3 o (some aoff)))
/-- DCMT (R230). -/
def execDcmt (o : DrOp) (s : State) : Result := .next (checked (operandCause (.dcmt o) s) s (dray 4 o none))
def execDcmtLong (o : DrOp) (aoff : Nat) (s : State) : Result := .next (checked (operandCause (.dcmtLong o aoff) s) s (dray 4 o (some aoff)))
/-- DFIL (R226). -/
def execDfil (o : DrOp) (s : State) : Result := .next (checked (operandCause (.dfil o) s) s (dray 5 o none))
def execDfilLong (o : DrOp) (aoff : Nat) (s : State) : Result := .next (checked (operandCause (.dfilLong o aoff) s) s (dray 5 o (some aoff)))
/-- DCOL (R227). -/
def execDcol (o : DrOp) (s : State) : Result := .next (checked (operandCause (.dcol o) s) s (dray 6 o none))
def execDcolLong (o : DrOp) (aoff : Nat) (s : State) : Result := .next (checked (operandCause (.dcolLong o aoff) s) s (dray 6 o (some aoff)))

/-- DSTS: the status of a ticket (R225). -/
def execDsts (x : Nat) (s : State) : Result :=
  .next (writeS s (x + 2) ((tget s.block.tickets ((readS s (x + 3)).toNat % 65536)).getD 0))

/-- DFNC: earlier jobs of the team, or of the block, are waited for (R231). -/
def execDfnc (y : Nat) (s : State) : Result :=
  .next (
    if s.jobs.any fun j => if y = 0 then j.2.unit == s.cur else blockKey j.2.unit == blockKey s.cur then stall s else s)

end Sys2Proof.Machine
end

