-- ==== Sys2Proof/Machine/Paddock.lean ====
section
/-! DEFINITION. Paddocks: scratchpad space, the registry, their instructions, fills and write-backs (R27, R189, R209 to R214,
R399). -/

namespace Sys2Proof.Machine

/-! ## Scratchpad space of a core -/

def spillBytes (b : Block) : Nat := b.nteams * b.spillGroups * b.lanes * 32

/-- The core of a paddock holds the bytes of a saved context no more, or not yet (R313). -/
def coreIdle (s : State) (core : Nat) : Bool :=
  match (s.core core).phase with
  | .idle => true
  | _ => false

/-- The context the paddock is resident under is the one its partition runs: with another, its bytes stand in the save area (R314). -/
def padLive (s : State) (p : Paddock) : Bool := s.runs p.part p.under && !coreIdle s p.core

/-- Ranges of a core's scratchpad in use: windows and spill areas, paddocks, and what attaches in flight reserve. -/
def spadUsed (s : State) (core : Nat) : List (Nat × Nat) :=
  ((s.blocks.filter fun b => b.1 / 16 == core && !b.2.retired).flatMap fun b =>
    [(b.2.winOff, b.2.winSize), (b.2.spillOff, spillBytes b.2)]) ++
  ((s.paddocks.filter fun p => decide (2 ≤ p.state) && p.core == core && padLive s p).map fun p => (p.coreOff, p.size)) ++
  (s.ops.filterMap fun o =>
    if o.2.unit.core == core then (match o.2.kind with
      | .attach _ _ _ c n => some (c, n)
      | _ => none) else none)

/-- The lowest multiple of `align`, from lo up, at which n bytes fit below cap beside the ranges in use. -/
def lowestFit (used : List (Nat × Nat)) (lo align n cap : Nat) : Option Nat :=
  let cands := roundUp lo align :: used.map fun u => roundUp (max lo (u.1 + u.2)) align
  let ok := cands.filter fun c => decide (c + n ≤ cap) && used.all fun u => !overlaps c n u.1 u.2
  ok.foldl (fun b c => match b with
    | none => some c
    | some x => some (min x c)) none

/-- Room for n bytes on a core (R27). -/
def spadFit (s : State) (core n : Nat) : Option Nat := lowestFit (spadUsed s core) 0 256 n (2 ^ 20)

/-- Bytes of a core's array zeroed for an owner. -/
def zeroLocal (s : State) (space core own off n : Nat) : State :=
  let s := clearPois (withLocal s space (mzero (localMem s space) (localKey space core off) n)) space core off n
  (List.range (n / 64)).foldl (fun s g => { s with spadOwn := tset s.spadOwn (granuleKey space core (off + 64 * g)) own }) s

/-! ## The registry (R209) -/

def padFind (s : State) (part name : Nat) : Option Paddock := s.paddocks.find? fun p => p.part == part && p.name == name

def padPut (s : State) (p : Paddock) : State :=
  { s with paddocks := s.paddocks.map fun q => if q.part == p.part && q.name == p.name then p else q }

def padDrop (s : State) (p : Paddock) : State :=
  { s with paddocks := s.paddocks.filter fun q => !(q.part == p.part && q.name == p.name) }

/-- Paddocks of a core's table: resident, filling, or reserved for (R209). -/
def padTable (s : State) (core : Nat) : Nat :=
  (s.paddocks.filter fun p => decide (2 ≤ p.state) && p.core == core && padLive s p).length +
    (s.ops.filter fun o => o.2.unit.core == core && (match o.2.kind with
      | .attach _ _ _ _ n => n != 0
      | _ => false)).length

/-- Some block on the core where it lies was launched with it (R210). -/
def padHeld (s : State) (p : Paddock) : Bool :=
  s.blocks.any fun b => b.1 / 16 == p.core && b.2.part == p.part && !b.2.retired && inList p.name b.2.launchPads

/-- The paddock may leave its core: nothing has it attached, nothing holds it (R209, R210). -/
def padFree (s : State) (p : Paddock) : Bool := p.acnt == 0 && !padHeld s p

/-- An eviction is under way, so the paddock counts as resident no more. -/
def padLeaving (s : State) (p : Paddock) : Bool :=
  p.waiting.any fun id => match (tget s.ops id).map Op.kind with
    | some (.evict _) => true
    | _ => false

/-- The paddock's bytes are here for an attach (R213). -/
def padHere (s : State) (p : Paddock) (core : Nat) : Bool := p.state == 2 && p.core == core && !padLeaving s p

/-- Where the pages of a backing range lie, or the code and address of the first that is no NORMAL page with R and W (R399). -/
def padPages (part ctx : Nat) : State → List Nat → State × List (Nat × Loc) × Option (Nat × Nat)
  | s, [] => (s, [], none)
  | s, va :: vas =>
    let r := walk s part ctx 0 va
    match r.2 with
    | none => (r.1, [], some (64, va))
    | some (e, b) =>
      let l := leafLoc part ctx e b va
      if l.kind ≠ 0 ∨ leafQ e = true ∨ leafR e = false ∨ leafW e = false then (r.1, [], some (65, va))
      else
        let q := padPages part ctx r.1 vas
        (q.1, (va / 65536, l) :: q.2.1, q.2.2)

/-- The same for a paddock. -/
def backPages (s : State) (p : Paddock) : State × List (Nat × Loc) × Option (Nat × Nat) :=
  padPages p.part p.ctx s (pageStarts p.back p.size)

/-- Where byte o of the backing area lies. -/
def backLoc (p : Paddock) (ps : List (Nat × Loc)) (o : Nat) : Loc :=
  match ps.find? fun x => x.1 == (p.back + o) / 65536 with
  | some x => { x.2 with addr := x.2.addr / 65536 * 65536 + (p.back + o) % 65536 }
  | none => noLoc

/-- The bytes of a resident paddock go to its backing area, with their poison. -/
def padOut (s : State) (p : Paddock) (ps : List (Nat × Loc)) : State :=
  let own := s.owner p.part
  (List.range (p.size / 32)).foldl (fun s k =>
    let l := backLoc p ps (32 * k)
    let s := homeWrite s l own (readLocal s 0 p.core own (p.coreOff + 32 * k) 32)
    if poisoned s 0 p.core (p.coreOff + 32 * k) 32 then homePoison s l own 32 else s) s

/-- The bytes of the backing area fill the scratchpad at c; the answer says where the first poison is. -/
def padIn (s : State) (p : Paddock) (core c : Nat) (ps : List (Nat × Loc)) : State × Option Nat :=
  let own := s.owner p.part
  (List.range (p.size / 32)).foldl (fun (r : State × Option Nat) k =>
    let q := homeRead r.1 (backLoc p ps (32 * k)) own 32
    let s := putLocal q.1 0 core own (c + 32 * k) q.2.1
    if q.2.2 then (setPois s 0 core (c + 32 * k) 32, r.2 <|> some (p.back + 32 * k)) else (s, r.2)) (s, none)

/-! ## Attaching (R211) -/

/-- Offsets a block's attaches in flight will use. -/
def padSoon (s : State) (key : Nat) : List (Nat × Nat) :=
  s.ops.filterMap fun o =>
    if !o.2.unit.coach && blockKey o.2.unit == key then (match o.2.kind with
      | .attach n _ off _ _ => (padFind s o.2.part n).map fun p => (off, p.size)
      | _ => none) else none

/-- The offset an attach of n bytes gets, none when it would pass 0x100000 (R211). -/
def padOffset (s : State) (key n : Nat) : Option Nat :=
  match tget s.blocks key with
  | none => none
  | some b => lowestFit ((b.attached.map fun a => (a.off, a.size)) ++ padSoon s key) b.winSize 4096 n (2 ^ 20)

/-- A block's window gains a resident paddock. -/
def padMap (s : State) (key off : Nat) (p : Paddock) : State :=
  padPut (s.modBlockAt key fun b => { b with attached := b.attached ++ [⟨p.name, off, p.size, p.coreOff⟩] })
    { p with acnt := p.acnt + 1 }

/-- The two results of an attach. -/
def padResults (flag x off size : Nat) (t : Team) : Team :=
  landS flag (x + 1) (BitVec.ofNat 64 size) (landS flag x (BitVec.ofNat 64 off) t)

/-- An attach in flight ends on a resident paddock. With poison to report and no flag the fill stands, and the attach itself traps with nothing
mapped and nothing written (R7, R213, log 77). -/
def padAttachEnd (s : State) (id : Nat) (o : Op) (x off : Nat) (p : Paddock) (bad : Option Nat) : State :=
  let p := { p with waiting := p.waiting.filter fun i => i != id }
  let s :=
    if o.unit.coach || (bad.isSome && decide (12 ≤ o.flag)) then padPut s p
    else (padMap s (blockKey o.unit) off p).modUnit o.unit (padResults o.flag x off p.size)
  endOp (modOp s id fun o => { o with fault := bad.map fun a => ⟨68, a, 0, 0, false⟩ }) id

/-- Operation id waits in the save area (R314). -/
def opSaved (s : State) (id : Nat) : Bool := s.saved.any fun v => (tget v.2.resend id).isSome

/-- The paddock passes on to whom waits: an evicted one begins to fill for the first attach, a resident one is mapped to the
attaches of its own core that stand first. -/
def padStir (part name : Nat) : Nat → State → State
  | 0, s => s
  | fuel + 1, s =>
    match padFind s part name with
    | none => s
    | some p =>
      match p.waiting with
      | [] => s
      | id :: rest =>
        match tget s.ops id with
        | none => if opSaved s id then s else padStir part name fuel (padPut s { p with waiting := rest })
        | some o =>
          match o.kind with
          | .attach n x off c _ =>
            if p.state = 1 then
              padPut (modOp s id fun o => { o with kind := .attach n x off 0 0 }) { p with state := 3, core := o.unit.core, coreOff := c, under := o.ctx }
            else if p.state = 2 ∧ p.core = o.unit.core then
              padStir part name fuel (padAttachEnd (modOp s id fun o => { o with kind := .attach n x off 0 0 }) id o x off p none)
            else s
          | .evict _ => if p.state = 1 then padStir part name fuel (endOp (padPut s { p with waiting := rest }) id) else s
          | _ => s

def padStirAll (s : State) (part name : Nat) : State := padStir part name 4096 s

/-- An operation on a paddock ends with a fault; what it reserved is free again. -/
def padFail (s : State) (id : Nat) (p : Paddock) (code addr : Nat) : State :=
  let s := padPut s { p with waiting := p.waiting.filter fun i => i != id }
  padStirAll (endOp (modOp s id fun o => { o with fault := some ⟨code, addr, 0, 0, false⟩ }) id) p.part p.name

/-- The first operation that waits on a paddock. -/
def padFirst (s : State) (id : Nat) : Option (Op × Paddock) :=
  match tget s.ops id with
  | none => none
  | some o =>
    let n := match o.kind with
      | .attach n _ _ _ _ => some n
      | .evict n => some n
      | _ => none
    match n.bind (padFind s o.part) with
    | some p => if p.waiting.head? = some id then some (o, p) else none
    | none => none

/-- The write-back that operation id waits for can take place. -/
def padCanLeave (s : State) (id : Nat) : Bool :=
  match padFirst s id with
  | some (_, p) => p.state == 2 && padFree s p && !coreIdle s p.core &&
      !scoreboardBusy s p.core [⟨0, p.coreOff, p.size, true⟩] s.nextStamp
  | none => false

/-- PADDOCK_WRITEBACK_COMPLETE: the bytes of a resident paddock stand in its backing area, for an eviction or for a fill elsewhere;
with a page that fails it stays where it is (R209, R399). -/
def execPaddockWritebackComplete (id : Nat) (s : State) : Result :=
  .next (match padCanLeave s id, padFirst s id with
    | true, some (_, p) =>
      let r := backPages s p
      match r.2.2 with
      | some (c, a) => padFail r.1 id p c a
      | none => padStirAll (padPut (padOut r.1 p r.2.1) { p with state := 1 }) p.part p.name
    | _, _ => s)

/-- The other attaches of a core that joined a fill (R213). -/
def padJoined (s : State) (p : Paddock) (id : Nat) : List Nat :=
  p.waiting.filter fun i => i != id && (match tget s.ops i with
    | some o => o.unit.core == p.core
    | none => false)

/-- PADDOCK_FILL_COMPLETE: a fill ends, and with it every attach of its core that joined it (R213, R399). -/
def execPaddockFillComplete (id : Nat) (s : State) : Result :=
  .next (match padFirst s id with
    | some (_, p) =>
      if p.state ≠ 3 then s
      else
        let r := backPages s p
        let ids := id :: padJoined s p id
        match r.2.2 with
        | some (c, a) =>
          let s := padPut r.1 { p with state := 1, waiting := p.waiting.filter fun i => !inList i ids }
          padStirAll (ids.foldl (fun s i => endOp (modOp s i fun o => { o with fault := some ⟨c, a, 0, 0, false⟩ }) i) s) p.part p.name
        | none =>
          let q := padIn r.1 p p.core p.coreOff r.2.1
          let s := padPut q.1 { p with state := 2, acnt := 0 }
          padStirAll (ids.foldl (fun s i =>
            match tget s.ops i, padFind s p.part p.name with
            | some o, some p =>
              (match o.kind with
              | .attach _ x off _ _ => padAttachEnd s i o x off p q.2
              | _ => s)
            | _, _ => s) s) p.part p.name
    | none => s)

/-! ## The instructions (R212, R213) -/

/-- A paddock that lies on a core under another context, or on one already saved: operations on it wait (R315). -/
def padAway (s : State) (p : Paddock) : Bool := decide (2 ≤ p.state) && (p.under != s.block.ctx || coreIdle s p.core)

/-- A FILL attach waits for the paddock. -/
def padAwaited (s : State) (p : Paddock) : Bool :=
  p.waiting.any fun id => match (tget s.ops id).map Op.kind with
    | some (.attach _ _ _ _ _) => true
    | _ => opSaved s id

/-- PDNEW: 0 zero-filled here and attached, 1 its backing area taken as it stands. -/
def execPdnew (x y : Nat) (s : State) : Result :=
  .next (
    let b := s.block
    let name := (readS s x).toNat
    let d := (readS s (x + 1)).toNat
    let back := d / 4096 * 4096
    let size := (d % 256 + 1) * 4096
    if name = 0 ∨ fld d 9 3 ≠ 0 ∨ canonical back = false then raiseCode 220 s
    else if (padFind s b.part name).isSome then raiseCode 218 s
    else if 4096 ≤ (s.paddocks.filter fun p => p.part == b.part).length then raiseCode 223 s
    else
      let r := padPages b.part b.ctx s (pageStarts back size)
      let s := r.1
      match r.2.2 with
      | some (c, a) => raiseAt c 0 a s
      | none =>
        let p : Paddock := ⟨name, b.part, b.ctx, size, back, fld d 8 1 == 1, 1, 0, 0, 0, s.nextStamp, [], b.ctx⟩
        if y = 1 then writeS { s with paddocks := s.paddocks ++ [p] } (x + 3) 0
        else
          match padOffset s (blockKey s.cur) size, spadFit s s.cur.core size with
          | some off, some c =>
            if 16 ≤ padTable s s.cur.core then raiseCode 219 s
            else
              let p := { p with state := 2, core := s.cur.core, coreOff := c }
              let s := zeroLocal { s with paddocks := s.paddocks ++ [p] } 0 s.cur.core (ownerNow s) c size
              writeS (writeS (padMap s (blockKey s.cur) off p) (x + 2) (BitVec.ofNat 64 off)) (x + 3) 0
          | _, _ => raiseCode 219 s)

/-- PDATT: 0 only where it is resident, 1 filled or migrated here. -/
def execPdatt (x y f : Nat) (s : State) : Result :=
  .next (async s f raiseFault fun s =>
    let b := s.block
    let name := (readS s x).toNat
    match padFind s b.part name with
    | none => raiseCode 217 s
    | some p =>
      if b.attached.any fun a => a.name == name then raiseCode 221 s
      else if padAway s p then stall s
      else
        let px := physS s.src (x + 2)
        let dests : List (Nat × Nat × Lanes) := [(1, px, 1), (1, px + 1, 1)]
        match padOffset s (blockKey s.cur) p.size with
        | none => raiseCode (if padHere s p s.cur.core || y == 1 then 219 else 216) s
        | some off =>
          if padHere s p s.cur.core then
            let s := padMap s (blockKey s.cur) off p
            let id := s.nextOp
            if f < 12 then
              ({ s with nextOp := id + 1 }).modTeam fun t =>
                padResults f px off p.size (dests.foldl (fun t (d : Nat × Nat × Lanes) => t.addPend ⟨d.1, d.2.1, d.2.2, f, id, 0⟩) t)
            else s.modTeam (padResults f px off p.size)
          else if y = 0 then raiseCode 216 s
          else
            let id := s.nextOp
            if p.state = 3 ∧ p.core = s.cur.core then
              padPut (issueOp s f false (.attach name px off 0 0) dests []) { p with waiting := p.waiting ++ [id] }
            else
              match spadFit s s.cur.core p.size with
              | none => raiseCode 219 s
              | some c =>
                if 16 ≤ padTable s s.cur.core then raiseCode 219 s
                else
                  padStirAll (padPut (issueOp s f false (.attach name px off c p.size) dests []) { p with waiting := p.waiting ++ [id] })
                    b.part name)

/-- A block's attachment of a paddock ends (R189, R212). -/
def padDetach (s : State) (key name : Nat) : State :=
  match tget s.blocks key with
  | none => s
  | some b =>
    let s := s.modBlockAt key fun b => { b with attached := b.attached.filter fun a => a.name != name }
    match padFind s b.part name with
    | some p => { padPut s { p with acnt := p.acnt - 1, detached := s.nextStamp } with nextStamp := s.nextStamp + 1 }
    | none => s

/-- PDDET: waits for what touches the paddock, then detaches it (R189). -/
def execPddet (x : Nat) (s : State) : Result :=
  .next (
    let name := (readS s x).toNat
    match s.block.attached.find? fun a => a.name == name with
    | none => raiseCode 221 s
    | some a =>
      if coreTouches s s.cur.core [⟨0, a.coreOff, a.size, true⟩] then stall s else padDetach s (blockKey s.cur) name)

/-- PDEVI: 0 with write-back, 1 destroyed. It keeps its place behind another's write-back. -/
def execPdevi (x y : Nat) (s : State) : Result :=
  .next (async s 15 raiseFault fun s =>
    let name := (readS s x).toNat
    match padFind s s.block.part name with
    | none => raiseCode 217 s
    | some p =>
      if padAway s p then stall s
      else if !padFree s p || p.state == 3 || padAwaited s p then raiseCode 222 s
      else if y = 1 then (if padLeaving s p then stall s else padDrop s p)
      else if p.state = 1 then s
      else
        let id := s.nextOp
        padPut (issueOp s 15 false (.evict name) [] []) { p with waiting := p.waiting ++ [id] })

/-- PDQRY: the state word and the backing address. -/
def execPdqry (x : Nat) (s : State) : Result :=
  .next (
    match padFind s s.block.part (readS s x).toNat with
    | none => writeS (writeS s (x + 2) 0) (x + 3) 0
    | some p =>
      if padAway s p then stall s
      else
        writeS (writeS s (x + 2) (BitVec.ofNat 64 (p.state + (if p.pin then 4 else 0) +
          (if 2 ≤ p.state then p.core % 256 * 2 ^ 16 else 0) + (p.size / 4096 - 1) * 2 ^ 24 + p.acnt % 256 * 2 ^ 32)))
          (x + 3) (BitVec.ofNat 64 p.back))

end Sys2Proof.Machine
end

