-- ==== Sys2Proof/Machine/StateMap.lean ====
section
/-! DEFINITION. Control and status registers, and the state map that SREAD, STATE_READ and STATE_WRITE use (R282, R330, R366,
R393 to R397). -/

namespace Sys2Proof.Machine

/-! ## Control and status registers (R282) -/

/-- A CSR of a team, its context's ones included; none for a number that is not one, or is written only. -/
def csrValue (c : Ctx) (ctxn : Nat) (t : Team) (n : Nat) : Option DWord :=
  if n = 0 then some 0x100
  else if n = 0x800 then
    some (BitVec.ofNat 64 ((if t.priv then 1 else 0) + (if t.sstep then 2 else 0) + (if t.skip then 4 else 0)))
  else if n = 0x801 then some (BitVec.ofNat 64 c.tvec)
  else if n = 0x802 then some (BitVec.ofNat 64 c.hbase)
  else if n = 0x803 then some (BitVec.ofNat 64 c.hpkt)
  else if n = 0x808 then some t.epc
  else if n = 0x809 then some t.ecause
  else if n = 0x80A then some t.eaddr
  else if n = 0x80B then some t.einfo
  else if n = 0x80C then some t.efpf
  else if n = 0x80D then some t.efpm
  else if 0x810 ≤ n ∧ n < 0x818 then some (wget t.sregs (56 + (n - 0x810)))
  else if n = 0x820 then some (BitVec.ofNat 64 ctxn)
  else if n = 0x821 then some (BitVec.ofNat 64 c.ptbase)
  else if n = 0x822 then some (BitVec.ofNat 64 c.hseed)
  else if n = 0x823 then some (BitVec.ofNat 64 c.redmode)
  else if n = 0x824 then some (BitVec.ofNat 64 c.fltq)
  else if 0x830 ≤ n ∧ n < 0x834 then some (wget t.bpc (n - 0x830))
  else if 0x838 ≤ n ∧ n < 0x83A then some (wget t.wpa (n - 0x838))
  else if 0x83A ≤ n ∧ n < 0x83C then some (wget t.wpc (n - 0x83A))
  else none

/-- A value a CSR refuses: a reserved bit, a watch length above 12, a watch address that is no multiple of the length, an offset
that is no multiple of 12 (R291). `len` is the watch length that goes with a watch address. -/
def csrRefuses (n v len : Nat) : Bool :=
  if n = 0x800 then fld v 3 61 != 0
  else if n = 0x808 then fld v 38 26 != 0 || fld v 0 36 % 12 != 0
  else if n = 0x809 then fld v 44 20 != 0 || fld v 28 4 != 0 || fld v 9 1 != 0
  else if n = 0x80B then fld v 38 10 != 0
  else if n = 0x80C then fld v 7 57 != 0
  else if n = 0x80D then decide (5 ≤ fld v 0 3) || fld v 3 5 != 0 || fld v 15 49 != 0
  else if 0x830 ≤ n ∧ n < 0x834 then fld v 36 26 != 0 || fld v 0 36 % 12 != 0
  else if 0x838 ≤ n ∧ n < 0x83A then v % 2 ^ len != 0
  else if 0x83A ≤ n ∧ n < 0x83C then fld v 4 57 != 0 || decide (12 < v % 16)
  else false

/-! ## Words of the map (R395) -/

/-- A work-queue descriptor, low quadword first (R330). -/
def wqWord (q : WorkQueue) (i : Nat) : Nat :=
  match i with
  | 0 => q.part + q.ctx * 2 ^ 8 + q.seglog * 2 ^ 16 + (if q.en then 2 ^ 32 else 0) + q.state * 2 ^ 33 + (q.levels.length - 1) * 2 ^ 37
  | 1 => q.erradr
  | 2 => q.ecode * 2 ^ 7 + q.err * 2 ^ 16 + (if q.flov then 2 ^ 31 else 0) + q.free.length * 2 ^ 32 + q.evidx * 2 ^ 56
  | 3 => q.base
  | 4 => q.tail
  | 5 => q.headp
  | 6 => (q.levels.getLast?.map Level.base).getD 0
  | _ => q.evt

def WorkQueue.init : WorkQueue :=
  ⟨0, 0, 0, 0, 0, [], false, 0, 0, 0, 0, false, 0, 0, 0, [], [], .none, 1, 0, false, 0, 0, [], false, []⟩

def State.wq (s : State) (q : Nat) : WorkQueue := (tget s.wqs q).getD WorkQueue.init

/-- A record of a RAS log as four words (R393). -/
def rasWord (r : RasRec) (i : Nat) : DWord :=
  match i with
  | 0 => BitVec.ofNat 64 (r.code + r.inst * 2 ^ 42 + r.part * 2 ^ 54 + r.ctx * 2 ^ 58)
  | 1 => BitVec.ofNat 64 (r.count * 2 ^ 32)
  | 2 => r.addr
  | _ => r.time

/-- The tag of a slice's line (R366). -/
def tagWord (l : Line) : Nat :=
  (if l.pin then 1 else 0) + (if l.lock then 2 else 0) + (if l.rdp then 4 else 0) + l.valid.toNat * 2 ^ 8 + l.dirty.toNat * 2 ^ 12 +
    l.pois.toNat * 2 ^ 16 + l.own * 2 ^ 20 + l.ctxp * 2 ^ 24 + l.line / 128 * 2 ^ 33

/-- The lane word of a section of a mask. -/
def laneWord (w : Nat) (m : Lanes) (sec : Nat) : DWord := BitVec.ofNat 64 (m.toNat / 2 ^ (sec * w) % 2 ^ w)

/-- Logical register r of a lane of a team as it stands: in the register file, or in the spill area (R21). -/
def mapVreg (s : State) (key : Nat) (b : Block) (team : Nat) (t : Team) (r i : Nat) : Option DWord :=
  if t.lo ≤ r ∧ r < t.lo + b.nreg then some ((wget t.vregs (r * 1024 + i)).zeroExtend 64)
  else if r < t.lo ∧ r / 8 < b.spillGroups then
    some (BitVec.ofNat 64 (leNat (readLocal s 0 (key / 16) (s.owner b.part)
      (b.spillOff + ((team * b.spillGroups + r / 8) * b.lanes + i) * 32 + r % 8 * 4) 4)))
  else none

/-- A word of a team (area 0). -/
def mapTeam (s : State) (key : Nat) (b : Block) (team lane item : Nat) (t : Team) : Option DWord :=
  let w := b.w
  let sec := lane / w
  let e := t.mstack.getD ((item % 32) / 2) ⟨0, 0⟩
  if b.lanes ≤ lane then none
  else if item < 0x100 then mapVreg s key b team t item lane
  else if item < 0x140 then some (wget t.sregs (item - 0x100))
  else if item < 0x148 then some (wget t.sregs (64 + (item - 0x140)))
  else if item = 0x150 then
    some (BitVec.ofNat 64 ((List.range 64).foldl (fun x p => if (wget t.pregs p).getLsbD lane then x + 2 ^ p else x) 0))
  else if item = 0x160 then some (epcWord t.pkt t.slot)
  else if item = 0x162 then some (BitVec.ofNat 64 (presentWord w (b.lanes / w) t.mask))
  else if item = 0x163 then some (laneWord w t.mask sec)
  else if 0x170 ≤ item ∧ item < 0x17C then
    let f := t.flag (item - 0x170)
    some (BitVec.ofNat 64 (f.count % 64 + (match f.record with
      | some r => r.code % 512 * 2 ^ 16 + 2 ^ 25 + (if r.ovf then 2 ^ 26 else 0)
      | none => 0)))
  else if 0x180 ≤ item ∧ item < 0x200 then csrValue (s.ctx b.part b.ctx) b.ctx t (0x800 + (item - 0x180))
  else if 0x200 ≤ item ∧ item < 0x220 then
    some (BitVec.ofNat 64 (presentWord w (b.lanes / w) (if item % 2 = 0 then e.saved else e.els)))
  else if 0x220 ≤ item ∧ item < 0x240 then some (laneWord w (if item % 2 = 0 then e.saved else e.els) sec)
  else if 0x240 ≤ item ∧ item < 0x250 then
    match t.guards[(item - 0x240) / 2]? with
    | some g => some (if item % 2 = 0 then BitVec.ofNat 64 g.addr else Config.mapWord 1 [g.mode, g.scope])
    | none => some 0
  else if item = 0x250 then some (Config.mapWord 2 [t.winbase, t.lo, if t.yielded then 1 else 0])
  else if 0x260 ≤ item ∧ item < 0x268 then
    some (match t.stop with
      | some r => if r.sent then 0 else r.words.getD (item - 0x260) 0
      | none => 0)
  else if item = 0x268 then
    some (match t.stop with
      | some r => if r.sent then 0 else 1
      | none => 0)
  else none

def blockIdOf (key : Nat) (b : Block) : DWord := BitVec.ofNat 64 (key % 16 + b.hrank * 2 ^ 4 + b.hsize * 2 ^ 7)

/-- A word of a block (area 1). -/
def mapBlock (s : State) (key : Nat) (b : Block) (item : Nat) : Option DWord :=
  let c := tget s.coaches key
  if item = 0 then some (blockIdOf key b)
  else if item = 1 then some (BitVec.ofNat 64 b.counted)
  else if item = 2 then some (Config.mapWord 3 [b.winOff, b.winSize])
  else
    match c with
    | none => none
    | some c =>
      if item = 0x100 then some (epcWord c.pkt c.slot)
      else if 0x120 ≤ item ∧ item < 0x140 then some ((wget c.z (item - 0x120)).zeroExtend 64)
      else if 0x140 ≤ item ∧ item < 0x144 then some (BitVec.ofNat 64 ((tget c.l (item - 0x140)).getD 0))
      else if item = 0x148 then
        some (BitVec.ofNat 64 ((List.range 8).foldl (fun x m => x + ((tget c.flags m).getD ⟨0, none⟩).count % 64 * 64 ^ m) 0))
      else if item = 0x149 then some (c.mfl.zeroExtend 64)
      else if 0x150 ≤ item ∧ item < 0x170 then some ((c.pool >>> (64 * (item - 0x150))).truncate 64)
      else if 0x170 ≤ item ∧ item < 0x178 then
        some (match c.stop with
          | some r => if r.sent then 0 else r.words.getD (item - 0x170) 0
          | none => 0)
      else if item = 0x178 then
        some (match c.stop with
          | some r => if r.sent then 0 else 1
          | none => 0)
      else
        match (s.mops.filter fun m => m.2.core * 16 + m.2.bslot == key)[item - 0x180]? with
        | some (_, m) => if 0x180 ≤ item then some (Config.mapWord 4 [m.resume, (m.fault.map FaultRec.code).getD 0]) else none
        | none => none

/-- Eight bytes of a core's array as owner own reads them. -/
def localWord (s : State) (space core own k : Nat) : DWord := BitVec.ofNat 64 (leNat (readLocal s space core own (8 * k) 8))

/-- A word of a table bank: the header, then the entries, two a word (R127). -/
def bankWord (b : Bank) (i : Nat) : Option DWord :=
  if i = 0 then some (BitVec.ofNat 64 (b.x0 + b.shift * 2 ^ 32 + b.n * 2 ^ 48))
  else if i = 1 then some 0
  else if i < 514 then
    some (BitVec.ofNat 64 ((b.entries.getD (2 * (i - 2)) 0).toNat + (b.entries.getD (2 * (i - 2) + 1) 0).toNat * 2 ^ 32))
  else none

/-- A word of a core (area 2), as the owner of partition part reads it. -/
def mapCore (s : State) (part core item : Nat) : Option DWord :=
  let own := s.owner part
  if item < 0x20000 then some (localWord s 0 core own item)
  else if item < 0x28000 then some (localWord s 1 core own (item - 0x20000))
  else if item < 0x30000 then some (localWord s 2 core own (item - 0x28000))
  else if item < 0x32000 then
    bankWord ((tget s.tables (bankKey core ((item - 0x30000) / 0x800) ((item - 0x30000) % 0x800 / 0x400))).getD ⟨0, 0, 0, []⟩)
      (item % 0x400)
  else if item < 0x32400 then
    some (Config.mapWord 5 (item :: (s.core core).rcv.flatMap fun r => r.1 :: r.2.map BitVec.toNat))
  else if item < 0x32800 then some (Config.mapWord 6 (item :: (s.core core).events.map fun e => e.event.toNat))
  else if item < 0x32C00 then
    some (Config.mapWord 7 (item :: ((tget s.blocks (core * 16 + (item - 0x32800) / 64)).map fun b =>
      b.tickets.flatMap fun t => [t.1, t.2.toNat]).getD []))
  else if item < 0x33000 then some (Config.mapWord 8 [item])
  else if item < 0x38000 then
    some (Config.mapWord 9 (item :: (s.l1.filter fun x => x.core == core && x.owner == own).flatMap fun x =>
      [x.loc.addr, x.data.toNat, x.dirty.toNat]))
  else if item < 0x39000 then
    some (Config.mapWord 10 (item :: (s.tlb.filter fun e => e.holder == core).flatMap fun e => [e.base, e.leaf]))
  else none

/-- A word of a slice (area 3), with the context it belongs to. -/
def mapSlice (s : State) (part slice item : Nat) : Option (Option Nat × DWord) :=
  let key (k : Nat) : Nat := slice * 8192 + k
  let ctxOf (k : Nat) : Option Nat := (tget s.l2 (key k)).map fun l => l.ctxp % 64
  if item < 0x2000 then
    some (ctxOf item, (match tget s.l2 (key item) with
      | some l => if l.ctxp / 64 = part then BitVec.ofNat 64 (tagWord l) else 0
      | none => 0))
  else if item < 0x22000 then
    let k := (item - 0x2000) / 16
    some (ctxOf k, (match tget s.l2 (key k) with
      | some l => if l.own = s.owner part then BitVec.ofNat 64 (l.get (item % 16 * 8) 8) else 0
      | none => 0))
  else if item < 0x22800 then
    some (none, Config.mapWord 11 (item :: (redAt s slice).flatMap fun r => [r.loc.addr, r.src, r.stamp]))
  else if item = 0x22800 then some (none, if inList slice s.redOvf then 1 else 0)
  else none

/-- A word of a cluster (area 4). -/
def mapCluster (s : State) (cl item : Nat) : Option DWord :=
  if item < 0x4000 then some (Config.mapWord 12 (item :: (s.ctlb.filter fun e => e.holder == cl).flatMap fun e => [e.base, e.leaf]))
  else if item < 0x4100 then some (Config.mapWord 13 (item :: (s.wcache.filter fun e => e.cluster == cl).flatMap fun e => [e.pfx, e.table]))
  else if item = 0x4100 then some (Config.mapWord 14 (((tget s.hitches cl).getD []).map fun h => h.core))
  else none

/-- The partition that holds a core. -/
def partOfCore (s : State) (core : Nat) : Option Nat :=
  (List.range 8).find? fun p => partV (s.part p) && partHas (s.part p) (groupOf core)

/-- The first barrier of an instance of a level, with its partition and context: STACK by its stack group, PACKAGE by its partition;
which block or hitch an instance of the lower levels names is not given (log 36). -/
def harnessOf (s : State) (level inst : Nat) : Option (Nat × Nat × Nat) :=
  let n := (Config.mapWord 18 [level, inst]).toNat
  match level with
  | 1 => (tget s.blocks (n % 3072)).map fun b => (b.part, b.ctx, 2 ^ 40 + n % 3072 * 16)
  | 2 => (s.blocks.find? fun b => b.2.hsize != 0 && b.2.hitch == n).map fun b => (b.2.part, b.2.ctx, 2 * 2 ^ 40 + n * 8)
  | 3 =>
    if inst < 8 then
      (partOfCore s (24 * inst)).bind fun p => (tget s.running p).map fun c => (p, c, 3 * 2 ^ 40 + ((p * 64 + c) * 8 + inst) * 4)
    else none
  | 4 =>
    if inst < 8 ∧ partV (s.part inst) = true then (tget s.running inst).map fun c => (inst, c, 4 * 2 ^ 40 + (inst * 64 + c) * 4) else none
  | _ => none

/-- A word of the harness (area 5), with its partition and context. -/
def mapHarness (s : State) (level inst item : Nat) : Option (Nat × Nat × DWord) :=
  (harnessOf s level inst).bind fun x =>
    let b := (tget s.barriers (x.2.2 + item / 4)).getD ⟨0, [], [], [], []⟩
    if (if level = 1 then 16 else if level = 2 then 8 else 4) ≤ item / 4 then none
    else if item % 4 = 0 then some (x.1, x.2.1, BitVec.ofNat 64 b.gen)
    else some (x.1, x.2.1, Config.mapWord 15 ([level, item % 4] ++ b.members.map teamKey ++ b.held.flatMap fun h => h.2.map teamKey))

/-- A word of the package (area 7), and the partition it belongs to, 8 for none. -/
def mapPackage (s : State) (item : Nat) : Option (Nat × DWord) :=
  if item < 0x10000 then
    let q := s.wq (item / 8)
    some (if (tget s.wqs (item / 8)).isSome then q.part else 8, BitVec.ofNat 64 (if s.ostler then wqWord q (item % 8) else 0))
  else if item < 0x10008 then
    some ((partOfCore s (24 * (item - 0x10000))).getD 8, (tget s.hbmctl (item - 0x10000)).getD (BitVec.ofNat 64 (1024 * 2 ^ 16)))
  else if 0x10010 ≤ item ∧ item < 0x10020 then
    match tget s.keys (item - 0x10010) with
    | some k => some (if k.v then k.part else 8, Config.mapWord 16 [if k.v then 1 else 0, if k.retain then 1 else 0, k.part])
    | none => some (8, Config.mapWord 16 [0, 0, 0])
  else if 0x10020 ≤ item ∧ item < 0x11000 then
    some (8, Config.mapWord 17 (item :: s.ports.flatMap fun p => [p.1, if p.2.up then 1 else 0, p.2.nextSeq, p.2.expSeq]))
  else if 0x11000 ≤ item ∧ item < 0x11000 + 9 * 0x800 then
    let p := (item - 0x11000) / 0x800
    let l := (tget s.raslogs p).getD emptyLog
    let k := (item - 0x11000) % 0x800
    if k = 0 then some (p, BitVec.ofNat 64 l.head)
    else if k = 1 then some (p, BitVec.ofNat 64 l.tail)
    else if k = 2 then some (p, BitVec.ofNat 64 l.lost)
    else if 4 ≤ k ∧ k < 1028 then
      some (p, match tget l.recs ((k - 4) / 4) with
        | some r => rasWord r (k % 4)
        | none => 0)
    else none
  else none

/-! ## Reading -/

def mapArea (idx : Nat) : Nat := fld idx 44 4
def mapUnit (idx : Nat) : Nat := fld idx 32 12
def mapItem (idx : Nat) : Nat := fld idx 0 32

/-- An entry as the running contexts hold it: partition (8 the package), context (none for no one's), and word. -/
def mapLive (s : State) (idx : Nat) : Option (Nat × Option Nat × DWord) :=
  let u := mapUnit idx
  let it := mapItem idx
  let ofCore (core : Nat) (w : Nat → Option DWord) : Option (Nat × Option Nat × DWord) :=
    (partOfCore s core).bind fun p => (w p).map fun x => (p, tget s.running p, x)
  if fld idx 48 16 ≠ 0 then none
  else
    match mapArea idx with
    | 0 =>
      match tget s.blocks u with
      | none => none
      | some b =>
        match tget s.teams (u / 16 * 1024 + u % 16 * 64 + it / 2 ^ 26) with
        | none => none
        | some t => (mapTeam s u b (it / 2 ^ 26) (it / 2 ^ 16 % 2 ^ 10) (it % 2 ^ 16) t).map fun w => (b.part, some b.ctx, w)
    | 1 =>
      match tget s.blocks u with
      | none => none
      | some b => (mapBlock s u b it).map fun w => (b.part, some b.ctx, w)
    | 2 => if u < 192 then ofCore u fun p => mapCore s p u it else none
    | 3 =>
      if u < 192 then
        (partOfCore s u).bind fun p => (mapSlice s p u it).map fun x => (p, x.1, x.2)
      else none
    | 4 => if u < 24 then ofCore (u * 8) fun _ => mapCluster s u it else none
    | 5 => (mapHarness s (u / 256) (u % 256) it).map fun x => (x.1, some x.2.1, x.2.2)
    | 6 =>
      if u < 192 ∧ it < 4096 then
        ofCore u fun _ => some ((wget ((tget s.wtree u).getD []) it).zeroExtend 64)
      else none
    | 7 => if u = 0 then (mapPackage s it).map fun x => (x.1, none, x.2) else none
    | _ => none

/-- The state with what a context has saved of one core in its place. -/
def savedView (s : State) (v : Saved) : State :=
  { s with teams := v.teams, blocks := v.blocks, coaches := v.coaches, spad := v.spad, acc := v.acc, wbuf := v.wbuf,
           tables := v.tables, tabCur := v.tabCur, mops := v.mops, chains := v.chains }

/-- An entry as the map gives it: of the running context, else as a switched-out one has saved it (R396). -/
def mapRead (s : State) (idx : Nat) : Option (Nat × Option Nat × DWord) :=
  match mapLive s idx with
  | some x => some x
  | none =>
    if 2 ≤ mapArea idx then none
    else s.saved.findSome? fun v => mapLive (savedView s v.2) idx

/-! ## Writing (R397) -/

/-- A completion flag as a word of the map gives it: count, recorded code, valid, OVF; what else a record holds stays (R395). -/
def FlagState.put (f : FlagState) (v : DWord) : FlagState :=
  ⟨v.toNat % 64, if v.getLsbD 25 then
      some { f.record.getD ⟨0, 0, 0, 0, false⟩ with code := v.toNat / 2 ^ 16 % 512, ovf := v.getLsbD 26 }
    else none⟩

/-- The bits of word i of a fault record that are no reserved ones (R3, R287). -/
def recordBits (i : Nat) : DWord :=
  match i with
  | 0 => 0xFFFFFC0FF
  | 1 => 0
  | 2 => 0
  | 3 => ecauseBits
  | 4 => epcBits
  | 6 => einfoBits
  | _ => -1

/-- A word of a fault record that is held, written. -/
def StopRec.put (r : StopRec) (i : Nat) (v : DWord) : StopRec :=
  if r.sent then r else { r with words := r.words.set i (v &&& recordBits i) }

/-- A team with a word of the map written; words whose layout the manual does not give, and read-only ones, stay. -/
def writeMapTeam (b : Block) (lane item : Nat) (v : DWord) (t : Team) : Team :=
  let w := b.w
  let sec := lane / w
  let setSec (m : Lanes) : Lanes :=
    (m &&& ~~~(BitVec.ofNat 1024 ((2 ^ w - 1) * 2 ^ (sec * w)))) ||| BitVec.ofNat 1024 (v.toNat % 2 ^ w * 2 ^ (sec * w))
  let clearAbsent (m : Lanes) : Lanes :=
    (List.range (b.lanes / w)).foldl (fun m j => if v.getLsbD j then m else m &&& ~~~(BitVec.ofNat 1024 ((2 ^ w - 1) * 2 ^ (j * w)))) m
  let onEntry (f : MaskEntry → MaskEntry) : Team :=
    { t with mstack := (t.mstack.zip (List.range t.mstack.length)).map fun e => if e.2 = item % 32 / 2 then f e.1 else e.1 }
  if item < 0x100 then { t.touch 0 item (maskOf [lane]) with vregs := tset t.vregs (item * 1024 + lane) (v.truncate 32) }
  else if item < 0x140 then t.putS (item - 0x100) v
  else if item < 0x148 then t.putS (64 + (item - 0x140)) v
  else if item = 0x150 then
    (List.range 64).foldl (fun t p => t.putP p (maskOf [lane]) (if v.getLsbD p then maskOf [lane] else 0)) t
  else if item = 0x160 then
    { t with
      pkt := fld v.toNat 0 36 / 12, slot := fld v.toNat 36 2, ibuf := none, waits := []
      stop := t.stop.map fun r => { r with pkt := fld v.toNat 0 36 / 12, slot := fld v.toNat 36 2 } }
  else if item = 0x162 then { t with mask := clearAbsent t.mask }
  else if item = 0x163 then { t with mask := setSec t.mask }
  else if 0x170 ≤ item ∧ item < 0x17C then
    { t with flags := tset t.flags (item - 0x170) ((t.flag (item - 0x170)).put v) }
  else if 0x180 ≤ item ∧ item < 0x200 then t.putCsr (0x800 + (item - 0x180)) v
  else if 0x200 ≤ item ∧ item < 0x220 then
    onEntry fun e => if item % 2 = 0 then { e with saved := clearAbsent e.saved } else { e with els := clearAbsent e.els }
  else if 0x220 ≤ item ∧ item < 0x240 then
    onEntry fun e => if item % 2 = 0 then { e with saved := setSec e.saved } else { e with els := setSec e.els }
  else if 0x240 ≤ item ∧ item < 0x250 ∧ item % 2 = 0 then
    { t with guards := (t.guards.zip (List.range t.guards.length)).map fun g =>
               if g.2 = (item - 0x240) / 2 then { g.1 with addr := v.toNat } else g.1 }
  else if 0x260 ≤ item ∧ item < 0x268 then { t with stop := t.stop.map fun r => r.put (item - 0x260) v }
  else t

/-- A coachman with a word of the map written; a write of z31 clears the pool map (R239, R242). -/
def writeMapCoach (item : Nat) (v : DWord) (c : Coach) : Coach :=
  if item = 0x100 then { c with pkt := fld v.toNat 0 36 / 12, slot := fld v.toNat 36 2, ibuf := none }
  else if 0x120 ≤ item ∧ item < 0x140 then 
    { c with z := tset c.z (item - 0x120) (v.truncate 48), pool := if item = 0x13F then 0 else c.pool }
  else if 0x140 ≤ item ∧ item < 0x144 then { c with l := tset c.l (item - 0x140) (v.toNat % 2 ^ 22) }
  else if item = 0x148 then
    { c with flags := (List.range 8).foldl (fun fs m =>
               tset fs m ⟨v.toNat / 64 ^ m % 64, ((tget c.flags m).bind FlagState.record)⟩) c.flags }
  else if item = 0x149 then { c with mfl := v.truncate 7 }
  else if 0x150 ≤ item ∧ item < 0x160 then
    { c with pool := (c.pool &&& ~~~(BitVec.ofNat 1024 ((2 ^ 64 - 1) * 2 ^ (64 * (item - 0x150))))) ||| (v.zeroExtend 1024 <<< (64 * (item - 0x150))) }
  else if 0x170 ≤ item ∧ item < 0x178 then { c with stop := c.stop.map fun r => r.put (item - 0x170) v }
  else c

def UnitStatus.isStopped : UnitStatus → Bool
  | .stopped => true
  | .running => false
  | .exited => false
  | .terminated => false

/-- A write of a team's or block's word in a state; none when the unit does not run stopped. `any` is set for a context that is
switched out. -/
def writeMapUnit (s : State) (any : Bool) (idx : Nat) (v : DWord) : Option State :=
  let u := mapUnit idx
  let it := mapItem idx
  match tget s.blocks u with
  | none => none
  | some b =>
    if mapArea idx = 0 then
      let k := u / 16 * 1024 + u % 16 * 64 + it / 2 ^ 26
      match tget s.teams k with
      | none => none
      | some t =>
        if any || t.status.isStopped then
          let r := it % 2 ^ 16
          let i := it / 2 ^ 16 % 2 ^ 10
          if r < 0x100 ∧ r < t.lo ∧ r / 8 < b.spillGroups then
            some (writeLocal s 0 (u / 16) (s.owner b.part)
              (b.spillOff + ((it / 2 ^ 26 * b.spillGroups + r / 8) * b.lanes + i) * 32 + r % 8 * 4) (natLe 4 v.toNat))
          else some { s with
            teams := tset s.teams k (writeMapTeam b i r v t)
            chains := if r = 0x160 then tdel s.chains k else s.chains }
        else none
    else
      let s := if it = 1 then s.modBlockAt u fun b => { b with counted := v.toNat } else s
      match tget s.coaches u with
      | none => if any then some s else none
      | some c => if any || c.status.isStopped then some { s with coaches := tset s.coaches u (writeMapCoach it v c) } else none

end Sys2Proof.Machine
end

