-- ==== Sys2Proof/Machine/System.lean ====
section
/-! DEFINITION. The privileged group: control and status registers, trap injection, shootdown, state reads, the return from a
trap and the halt; the enqueue of a fault record (R282, R287, R290 to R295, R326). -/

namespace Sys2Proof.Machine

/-- CSRR (R291). -/
def execCsrr (d n : Nat) (s : State) : Result :=
  .next (checked (operandCause (.csrr d n) s) s fun s =>
    match csrValue s.myCtx s.block.ctx s.src n with
    | none => raiseCode 3 s
    | some v =>
      let p := 56 + (n - 0x810)
      if 0x810 ≤ n ∧ n < 0x818 ∧ (s.src.unknown 1 p).getLsbD 0 = true then writeS s d (Config.freeWord s.fresh p)
      else writeS s d v)

/-- The watch length exponent that goes with a watch address, as last written. -/
def watchLen (t : Team) (n : Nat) : Nat := ((tget t.pendw (n + 2)).getD (wget t.wpc (n - 0x838))).toNat % 16

/-- CSRW: in force from the team's next packet (R291). -/
def execCsrw (a n : Nat) (s : State) : Result :=
  .next (checked (operandCause (.csrw a n) s) s fun s =>
    if csrRefuses n (readS s a).toNat (watchLen s.src n) then raiseCode 3 s
    else s.modTeam fun t => { t with pendw := tset t.pendw n (readS s a) })

/-- CSRW of TINJ: the target takes the cause before its next packet of U mode (R282, R285, R288). -/
def execCsrwTinj (a : Nat) (s : State) : Result :=
  .next (checked (operandCause (.csrwTinj a) s) s fun s =>
    let v := (readS s a).toNat
    let key := s.cur.core * 16 + fld v 10 4
    let tk := s.cur.core * 1024 + fld v 10 4 * 64 + fld v 14 6
    if fld v 20 44 ≠ 0 ∨ fld v 9 1 ≠ 0 ∨ 383 < fld v 0 9 then raiseCode 3 s
    else
      match tget s.blocks key, tget s.teams tk with
      | some b, some t =>
        if b.ctx = s.block.ctx ∧ b.part = s.block.part ∧ (t.status = .running ∨ t.status = .stopped) then
          { s with teams := tset s.teams tk { t with tinj := some (fld v 0 9), blocked := false } }
        else raiseCode 3 s
      | _, _ => raiseCode 3 s)

/-- Removes the translations that p holds of from every TLB, the table pointers on the path to them, and the stash's copies (R293, R326). -/
def shootDown (s : State) (part ctx : Nat) (p : Nat → Nat → Bool) : State :=
  let gone (e : TlbEntry) : Bool := e.part == part && e.ctx == ctx && p e.base e.pbits
  let s := { s with
    tlb := s.tlb.filter fun e => !gone e
    ctlb := s.ctlb.filter fun e => !gone e
    wcache := s.wcache.filter fun w => !(w.part == part && w.ctx == ctx && p (w.pfx * 2 ^ tableBits w.level) (tableBits w.level))
    misses := s.misses.filter fun m => !(m.part == part && m.ctx == ctx) }
  (s.blocks.filter fun b => b.2.part == part && b.2.ctx == ctx).foldl (fun s b =>
    b.2.stash.foldl (fun s e =>
      let r := e.2.pages.foldl (fun (r : State × List (Nat × Loc)) pg =>
        let q := ctxLoc r.1 part ctx (pg.1 * 65536)
        (q.1, match q.2 with
          | some l => r.2 ++ [(pg.1, l)]
          | none => r.2)) (s, [])
      r.1.modBlockAt b.1 fun b => { b with stash := tset b.stash e.1 { e.2 with pages := r.2 } }) s) s

/-- An operation in flight holds an address on its way to a home slice. -/
def onItsWay (o : Op) : Bool :=
  match o.kind with
  | .tile _ _ _ _ _ => true
  | .enq _ _ _ _ _ _ r => o.arrive == 0 && r.isNone
  | .deq _ _ _ _ _ _ _ r => o.arrive == 0 && r.isNone
  | .grab _ _ _ _ _ r => o.arrive == 0 && r.isNone
  | .guardReq _ _ _ _ g => o.arrive == 0 && g.isNone
  | .guardRel _ _ => true
  | .load _ _ _ _ => false
  | .atomic _ _ _ _ => false
  | .tabld _ _ _ _ => false
  | .attach _ _ _ _ _ => false
  | .evict _ => false
  | .tlbi => false
  | .retire => false

/-- The context an access of a peer or host works for, where it is known: a dray job's, a work queue's, else none. -/
def remoteCtx (s : State) (m : Remote) : Option Nat :=
  match m.owner with
  | 2 => (tget s.jobs m.req).map Job.ctx
  | 3 => some (s.wq m.id).ctx
  | _ => none

/-- An access of a context made before the shootdown with stamp n and number id has not reached its home, the peer or the host: requests,
operations that hold an address, jobs with the pages they have translated, and what waits on a peer or a host (R326). -/
def olderAccess (s : State) (part ctx n id : Nat) : Bool :=
  (s.reqs.any fun r => r.2.loc.part == part && r.2.loc.ctx == ctx && decide (r.2.stamp < n) && unperformed r.2) ||
  (s.ops.any fun o => o.2.part == part && o.2.ctx == ctx && decide (o.2.stamp < n) && onItsWay o.2) ||
  (s.jobs.any fun j => j.2.part == part && j.2.ctx == ctx && decide (j.2.stamp < n) && !j.2.pages.isEmpty) ||
  (s.remotes.any fun m => m.2.part == part && decide (m.1 < id) && !m.2.answered && m.2.owner != 5 && m.2.owner != 7 &&
    (match remoteCtx s m.2 with
    | some c => c == ctx
    | none => true))

/-- TLBI: the release of PACKAGE scope, the removal, and the wait for accesses that used what was removed; dirty bytes of the context, in
whichever core's L1, are such accesses and go home (R293, R326). -/
def execTlbi (a k : Nat) (s : State) : Result :=
  .next (checked (operandCause (.tlbi a k) s) s fun s =>
    let part := s.block.part
    let ctx := s.block.ctx
    match myWait s with
    | .op id =>
      match tget s.ops id with
      | none => setWait s .none
      | some o => if olderAccess s part ctx o.stamp id then stall s else setWait { s with ops := tdel s.ops id } .none
    | _ =>
      let r := releaseStep s 4 0
      if !r.2 then stall r.1
      else
        let va := (readS s a).toNat
        let s := flushL1 r.1 fun x => x.loc.part == part && x.loc.ctx == ctx
        issueOp (shootDown s part ctx fun base pbits => k == 1 || va / 2 ^ pbits == base / 2 ^ pbits) 15 false .tlbi [] [])

/-- SREAD: one entry of the state map (R294). -/
def execSread (p : Nat) (s : State) : Result :=
  .next (checked (operandCause (.sread p) s) s fun s =>
    match mapRead s (readS s p).toNat with
    | none => raiseCode 3 s
    | some (part, ctx, w) =>
      if part = s.block.part ∧ ctx = some s.block.ctx then writeS s (p + 1) w else raiseCode 5 s)

/-- HALT (R295). -/
def execHalt (s : State) : Result :=
  .next (checked (operandCause .halt s) s fun s => escalate { causeOf 63 with after := true } s)

/-- ERET: the return from the handler (R292). -/
def execEret (s : State) : Result :=
  .next (checked (operandCause .eret s) s fun s =>
    let e := s.src.epc.toNat
    if s.src.winbase ≠ s.src.swin then raiseCode 3 s
    else if fld e 36 2 = 3 ∨ fld e 0 36 % 12 ≠ 0 ∨ s.block.kern.npkt ≤ fld e 0 36 / 12 then raiseCode 3 s
    else
      let pkt := fld e 0 36 / 12
      let p := if s.src.ecause.getLsbD 15 then behindChain (kernelWords s pkt) pkt (fld e 36 2) else (pkt, fld e 36 2)
      (s.modTeam fun t => t.leave p.1 p.2).withFate .transferred)

/-! ## Fault records (R287) -/

/-- The held record of a unit: a team by its key, a coachman by 2^20 + its block's key. -/
def heldRecord (s : State) (unit : Nat) : Option (Nat × StopRec) :=
  if unit < 2 ^ 20 then
    match tget s.teams unit with
    | some t => t.stop.bind fun r => if r.sent then none else some (unit / 64, r)
    | none => none
  else
    match tget s.coaches (unit - 2 ^ 20) with
    | some c => c.stop.bind fun r => if r.sent then none else some (unit - 2 ^ 20, r)
    | none => none

/-- The fault queue of a context: an open queue of QKIND 0 with records of 64 bytes on a queue page (R287). -/
def faultQueue (s : State) (part ctx : Nat) : State × Option Loc :=
  let va := (s.ctx part ctx).fltq
  let r := walk s part ctx 0 va
  match r.2 with
  | none => (r.1, none)
  | some (e, b) =>
    let l := leafLoc part ctx e b va
    if l.kind ≠ 0 ∨ leafQ e = false ∨ va % 64 ≠ 0 then (r.1, none)
    else
      let d := readDesc r.1 l
      (d.1, if qBad d.2 ∨ qKind d.2 ≠ 0 ∨ qRec d.2 ≠ 64 ∨ qClosed d.2 = true then none else some l)

def markSent (s : State) (unit : Nat) : State :=
  if unit < 2 ^ 20 then
    match tget s.teams unit with
    | some t => { s with teams := tset s.teams unit { t with stop := t.stop.map fun r => { r with sent := true } } }
    | none => s
  else
    match tget s.coaches (unit - 2 ^ 20) with
    | some c => { s with coaches := tset s.coaches (unit - 2 ^ 20) { c with stop := c.stop.map fun r => { r with sent := true } } }
    | none => s

/-- FAULT_RECORD_ENQUEUE: a held record enters the fault queue once it has room (R287). -/
def execFaultRecordEnqueue (unit : Nat) (s : State) : Result :=
  .next (match heldRecord s unit with
    | none => s
    | some (key, r) =>
      match tget s.blocks key with
      | none => s
      | some b =>
        let q := faultQueue s b.part b.ctx
        match q.2 with
        | none => q.1
        | some l =>
          let e := enqueue q.1 l true [r.words.flatMap fun w => natLe 8 w.toNat]
          if e.2.1 = 1 then markSent e.1 unit else e.1)

end Sys2Proof.Machine
end

