-- ==== Sys2Proof/Machine/Rein.lean ====
section
/-! DEFINITION. Delivery of rein flits (R173 to R175). -/

namespace Sys2Proof.Machine

/-- Where the running context has saved a core that a switch has cleared: its key (R313). -/
def savedHere (s : State) (core : Nat) : Option Nat :=
  if (s.core core).phase = .idle then
    (partOfCore s core).bind fun p => (tget s.running p).map fun c => core * 512 + p * 64 + c
  else none

/-- FIFO n of a core, of the context that runs, takes a flit when it has room: 16 flits. On a core that is saved already the FIFO lies
in what it saved (R173). -/
def pushFlit (s : State) (core n : Nat) (f : BitVec 128) : Option State :=
  match savedHere s core with
  | none =>
    let q := (tget (s.core core).rcv n).getD []
    if q.length < 16 then some (s.modCore core fun c => { c with rcv := tset c.rcv n (q ++ [f]) }) else none
  | some k =>
    match tget s.saved k with
    | none => none
    | some v =>
      let q := (tget v.rcv n).getD []
      if q.length < 16 then some { s with saved := tset s.saved k { v with rcv := tset v.rcv n (q ++ [f]) } } else none

/-- Where the flits of a team go: destination core, FIFO, flit. -/
def Team.flitsOut (t : Team) : List (Nat × Nat × BitVec 128) :=
  t.snd.map fun f =>
    let v := (wget t.sndcfg f.1).toNat
    (v % 256, fld v 8 2, f.2)

/-- A flit that a core has sent could enter its FIFO now (R312). -/
def flitDue (s : State) (core : Nat) : Bool :=
  ((s.core core).flits ++ (s.teams.filter fun t => t.1 / 1024 == core).flatMap fun t => t.2.flitsOut).any fun f =>
    (pushFlit s f.1 f.2.1 f.2.2).isSome

/-- REIN_FLIT_DELIVER: the flit in send buffer ch of a team (its key), or, for 2^20 + core, flit ch of that core's retired blocks, is
written into its FIFO and the buffer empties (R174). -/
def execReinFlitDeliver (unit ch : Nat) (s : State) : Result :=
  .next (
    if unit < 2 ^ 20 then
      match tget s.teams unit with
      | none => s
      | some t =>
        match tget t.snd ch with
        | none => s
        | some f =>
          let v := (wget t.sndcfg ch).toNat
          match pushFlit s (v % 256) (fld v 8 2) f with
          | some s => { s with teams := tset s.teams unit { t with snd := tdel t.snd ch, blocked := false } }
          | none => s
    else
      match (s.core (unit - 2 ^ 20)).flits[ch]? with
      | none => s
      | some (c, n, f) =>
        match pushFlit s c n f with
        | some s => s.modCore (unit - 2 ^ 20) fun k => { k with flits := k.flits.eraseIdx ch }
        | none => s)

end Sys2Proof.Machine
end

