-- ==== Sys2Proof/Machine/Matrix.lean ====
section
/-! DEFINITION. The coachman and the matrix array: region registers, the weight buffer, products, drains, barriers and loops
(R233 to R256). -/

namespace Sys2Proof.Machine

/-! ## Region registers (R236 to R238) -/

def rSpace (z : Nat) : Nat := fld z 41 2
def rFmt (z : Nat) : Nat := fld z 37 4
def rRows (z : Nat) : Nat := (fld z 31 6 + 1) * 8
def rCols (z : Nat) : Nat := (fld z 25 6 + 1) * 8
def rBase (z : Nat) : Nat := fld z 10 14 * 64
def rStep (z : Nat) : Nat := fld z 0 10

/-- Half bytes of one element (R237). -/
def elemNibs (space fmt : Nat) : Nat :=
  if space = 1 then (if fmt = 0 ∨ fmt = 2 then 8 else 16)
  else
    match fmt with
    | 0 => 1
    | 4 => 4
    | 5 => 4
    | 6 => 8
    | 10 => 8
    | 7 => 16
    | 11 => 16
    | _ => 2

def rNibs (z : Nat) : Nat := elemNibs (rSpace z) (rFmt z)

/-- Bytes of a packed row, and from one row to the next. -/
def rRowBytes (z : Nat) : Nat := rCols z * rNibs z / 2
def rStride (z : Nat) : Nat := if rStep z = 0 then rRowBytes z else rStep z * 16

/-- Groups of 32 in an extent. -/
def groups32 (k : Nat) : Nat := (k + 31) / 32

/-- Bytes from the base to the end of the region. -/
def rExtent (z : Nat) : Nat :=
  if rSpace z = 2 then (if rFmt z = 15 then rStep z * 64 else rCols z * groups32 (rRows z) * (rStep z * 4))
  else (rRows z - 1) * rStride z + rRowBytes z

/-- In bounds (R238). -/
def rBounds (b : Block) (z : Nat) : Bool :=
  if rSpace z = 0 then winOk b (rBase z) (rExtent z)
  else if rSpace z = 1 then decide (rBase z + rExtent z ≤ b.accSize)
  else decide (rBase z + rExtent z ≤ b.wbSize)

/-- Byte n of a region of bytes, from its base (R238). -/
def rByte (z n : Nat) : Nat := rBase z + n / rCols z * rStride z + n % rCols z

/-- Where an offset of a space of a block lies in the core's array. -/
def spaceAt (b : Block) (space off : Nat) : Option Nat :=
  if space = 0 then winByte b off else some ((if space = 1 then b.accOff else b.wbOff) + off)

/-- n bytes of a block's space, and whether one carries poison. -/
def readSpace (s : State) (core : Nat) (b : Block) (space off n : Nat) : List Byte :=
  (List.range n).map fun i => match spaceAt b space (off + i) with
    | some o => readLocal1 s space core (s.owner b.part) o
    | none => 0

def spacePoisoned (s : State) (core : Nat) (b : Block) (space off n : Nat) : Bool :=
  !(localPois s space).isEmpty && (List.range n).any fun i => match spaceAt b space (off + i) with
    | some o => poisoned s space core o 1
    | none => false

/-- Bytes written to a block's space. -/
def writeSpace (core : Nat) (b : Block) (space : Nat) : State → Nat → List Byte → State
  | s, _, [] => s
  | s, off, x :: xs =>
    writeSpace core b space (match spaceAt b space off with
      | some o => writeLocal1 s space core (s.owner b.part) o x
      | none => s) (off + 1) xs

/-- The footprint of a range of a block's space. -/
def spaceFoot (b : Block) (space off n : Nat) (write : Bool) : List Foot :=
  if space = 0 then winFoot b off n write else [⟨space, (if space = 1 then b.accOff else b.wbOff) + off, n, write⟩]

/-- The footprint of a region (R255): its rows, without the bytes between them. -/
def rFoot (b : Block) (z : Nat) (write : Bool) : List Foot :=
  if rSpace z = 2 ∨ rStep z = 0 then spaceFoot b (rSpace z) (rBase z) (rExtent z) write
  else ((List.range (rRows z)).map fun r => spaceFoot b (rSpace z) (rBase z + r * rStride z) (rRowBytes z) write).flatten

/-- Where element (r, c) starts, and its bytes. -/
def elemOff (z r c : Nat) : Nat := rBase z + r * rStride z + c * rNibs z / 2
def elemBytes (z : Nat) : Nat := (rNibs z + 1) / 2

/-- The code of element (r, c). -/
def elemCode (s : State) (core : Nat) (b : Block) (z r c : Nat) : Nat :=
  let x := leNat (readSpace s core b (rSpace z) (elemOff z r c) (elemBytes z))
  if rNibs z = 1 then x / 16 ^ (c % 2) % 16 else x

def elemPoisoned (s : State) (core : Nat) (b : Block) (z r c : Nat) : Bool :=
  spacePoisoned s core b (rSpace z) (elemOff z r c) (elemBytes z)

/-- One element written: (r, c, code, poison). -/
abbrev ElemOut := Nat × Nat × Nat × Bool

/-- Elements written to a region: a sector is clean only when clean bytes cover it, and a poisoned element poisons its
sectors (R143, R245). -/
def putElems (s : State) (core : Nat) (b : Block) (z : Nat) (xs : List ElemOut) : State :=
  let n := elemBytes z
  let sp := rSpace z
  let s1 := xs.foldl (fun s x => writeSpace core b sp s (elemOff z x.1 x.2.1) (natLe n x.2.2.1)) s
  let at_ (x : ElemOut) : List Nat := (List.range n).filterMap fun i => spaceAt b sp (elemOff z x.1 x.2.1 + i)
  let s2 := clearCovered s1 sp core ((xs.map at_).flatten)
  xs.foldl (fun s x =>
    if x.2.2.2 then (at_ x).foldl (fun s o => setPois s sp core (o / 32 * 32) 32) s else s) s2

/-! ## The coachman (R233, R252) -/

def Coach.flag (c : Coach) (f : Nat) : FlagState := (tget c.flags f).getD ⟨0, none⟩

/-- Region register n as the coachman holds it. -/
def zreg (c : Coach) (n : Nat) : Nat := (wget c.z n).toNat

/-- Matrix instructions of the current block not complete. -/
def myMops (s : State) : Tab MFly := s.mops.filter fun m => m.2.core == s.cur.core && m.2.bslot == s.cur.bslot

/-- Whether an instruction is an MLDW. -/
def isMldw (o : CoachOp) : Bool :=
  match o with
  | .mldw _ _ _ => true
  | .mnop => false
  | .msetz _ => false
  | .mzer _ => false
  | .mma _ _ _ _ _ => false
  | .mmag _ _ _ _ _ => false
  | .mmat _ _ _ _ => false
  | .mdrn _ _ _ _ _ _ _ _ => false
  | .mbar _ _ => false
  | .mwat _ _ _ => false
  | .mlop _ _ => false
  | .mbra _ => false
  | .mbraLoop _ _ => false
  | .mend => false

/-- The flag has room (R252). -/
def mflagRoom (s : State) (mf : Nat) : Bool := decide (8 ≤ mf) || decide ((s.coach.flag mf).count < 63)

/-- An instruction enters the array with the region registers as they stand, and its flag counts up (R234, R252). -/
def issueMop (s : State) (op : CoachOp) (mf : Nat) (table : List Byte) (foot : List Foot) (bad : Bool := false) : State :=
  let c := s.coach
  let f : Option FaultRec := if bad then some ⟨92, 0, originWord 0 c.pkt c.slot, 0, false⟩ else none
  let m : MFly := ⟨s.cur.core, s.cur.bslot, op, c.z, mf, c.pkt, c.slot, 0, table, 0, f, foot, s.nextStamp⟩
  let s := { s with mops := tset s.mops s.nextOp m, nextOp := s.nextOp + 1, nextStamp := s.nextStamp + 1 }
  if mf < 8 then
    s.modCoach fun c => { c with flags := tset c.flags mf { c.flag mf with count := (c.flag mf).count + 1 } }
  else s

/-- The same once its flag has room. -/
def sendMop (op : CoachOp) (mf : Nat) (table : List Byte) (foot : List Foot) (s : State) (bad : Bool := false) : State :=
  if mflagRoom s mf then issueMop s op mf table foot bad else stall s

/-- MNOP (R84). -/
def execMnop (s : State) : Result := .next s

/-- The value MSETZ gives a register that holds `old` (R236, R238). -/
def regZValue (r : RegZ) (old : Nat) : Nat :=
  r.space * 2 ^ 41 + r.fmt * 2 ^ 37 + r.nr * 2 ^ 31 + r.nc * 2 ^ 25 +
    (if r.rel = 1 then (fld old 10 14 + r.base) % 2 ^ 14 else r.base) * 2 ^ 10 + r.stride

/-- MSETZ: a write of z31 waits for every earlier MLDW and clears the pool map (R234, R239). -/
def execMsetz (r : RegZ) (s : State) : Result :=
  .next (
    if r.z = 31 ∧ ((myMops s).any fun m => isMldw m.2.op) = true then stall s
    else s.modCoach fun c => { c with
      z := tset c.z r.z (BitVec.ofNat 48 (regZValue r (zreg c r.z)))
      pool := if r.z = 31 then 0 else c.pool })

/-- MZER (R239). -/
def execMzer (z : Nat) (s : State) : Result :=
  .next (
    let r := zreg s.coach z
    checked (if rSpace r != 1 then some 273 else need (rBounds s.block r) 274) s
      (sendMop (.mzer z) 15 [] (rFoot s.block r true)))

/-! ## Checks of products (R243, R247 to R249) -/

/-- Formats that carry scales. -/
def scaledFmt (f : Nat) : Bool := decide (f < 3)

/-- Operand format and accumulator go together. -/
def pairOk (fmt acc : Nat) : Bool :=
  decide (fmt ≤ 9) && (if fmt = 7 then acc == 3 else if fmt = 3 then acc == 2 else decide (acc < 2))

/-- The hitch member whose rank is a, as a block key: its block may be on any core. -/
def hitchMember (s : State) (a : Nat) : Option (Nat × Block) :=
  s.blocks.find? fun b => b.2.hitch == s.block.hitch && b.2.hsize != 0 && b.2.hrank == a && !b.2.retired

/-- What a product checks when it issues, in order: codes, shared reads, regions, bounds. G is the count of groups, sh the
rank of a shared A, t the table or mask region with the bytes it must hold. -/
def productCause (s : State) (o : MmaOp) (modes : List Nat) (k g : Nat) (sh : Option Nat) (t : Option (Nat × Nat)) : Option Nat :=
  let c := s.coach
  let b := s.block
  let zd := zreg c o.zd
  let za := zreg c o.za
  let zb := zreg c o.zb
  let sa := zreg c (o.za + 1)
  let bs := (List.range g).map fun j => zreg c (o.zb + j)
  let sc := scaledFmt o.fmt
  let inB (z : Nat) : Bool :=
    match sh with
    | some _ => decide (rBase z + rExtent z ≤ b.winSize)
    | none => rBounds b z
  if !(pairOk o.fmt o.acc && inList o.mode modes) then some 272
  else if (match sh with | some a => b.hsize == 0 || decide (2 ^ b.hsize ≤ a) | none => false) then some 278
  else if decide (31 < o.zb + g - 1) || (sc && o.za == 31) then some 273
  else if rSpace zd != 1 || rFmt zd != o.acc || rSpace za != 0 || rFmt za != o.fmt || rRows za != rRows zd || decide (rCols za < k + 1) ||
      bs.any (fun z => rSpace z != 2 || rFmt z != o.fmt || rRows z != rRows zb || rCols z != rCols zb || decide (rStep z < 2)) ||
      decide (rRows zb < k + 1) || rCols zb != rCols zd ||
      (sc && (rSpace sa != 0 || rFmt sa != 12 || rRows sa != rRows zd || decide (rCols sa < groups32 (k + 1)))) ||
      (match t with | some (z, n) => rSpace (zreg c z) != 0 || rFmt (zreg c z) != 13 || decide (rRows (zreg c z) * rCols (zreg c z) < n) | none => false) then
    some 273
  else if !(rBounds b zd && inB za && (!sc || inB sa) && bs.all (rBounds b) &&
      (match t with | some (z, _) => rBounds b (zreg c z) | none => true)) then
    some 274
  else none

/-- The captured chunk pool: base and chunks; none unless z31 is a pool within the reservation (R241). -/
def poolOf (b : Block) (z31 : Nat) : Option (Nat × Nat) :=
  if rSpace z31 = 2 ∧ rFmt z31 = 15 ∧ rBounds b z31 = true then some (rBase z31, rStep z31) else none

def poolFoot (b : Block) (z31 : Nat) (write : Bool) : List Foot :=
  match poolOf b z31 with
  | some p => spaceFoot b 2 p.1 (p.2 * 64) write
  | none => []

/-- The footprint of a product (R255); a shared A is not in it (R247). -/
def productFoot (s : State) (o : MmaOp) (g : Nat) (shr : Bool) : List Foot :=
  let c := s.coach
  let b := s.block
  rFoot b (zreg c o.zd) true ++ ((List.range g).map fun j => rFoot b (zreg c (o.zb + j)) false).flatten ++
    (if shr then [] else rFoot b (zreg c o.za) false ++ (if scaledFmt o.fmt then rFoot b (zreg c (o.za + 1)) false else [])) ++
    poolFoot b (zreg c 31) false

/-- The bytes of a table or mask region, in its own numbering (R238). -/
def regionBytes (s : State) (z n : Nat) : List Byte :=
  ((List.range n).map fun i => readSpace s s.cur.core s.block 0 (rByte z i) 1).flatten

/-- Some byte of a table or mask region that is read carries poison. -/
def regionPoisoned (s : State) (z n : Nat) : Bool :=
  (List.range n).any fun i => spacePoisoned s s.cur.core s.block 0 (rByte z i) 1

/-- Run k on the first n bytes of a table or mask region, read under the scoreboard, and on whether they carry poison, which is recorded for
MF (R235); the bytes are taken as they are. -/
def withRegion (s : State) (z n : Nat) (k : List Byte → Bool → State → State) : State :=
  if windowBusy s (rFoot s.block z false) then stall s else k (regionBytes s z n) (regionPoisoned s z n) s

/-- MMA (R245). -/
def execMma (o : MmaOp) (mf : Nat) (shr : Bool) (arank k : Nat) (s : State) : Result :=
  .next (checked (productCause s o [0] k 1 (if shr then some arank else none) none) s
    (sendMop (.mma o mf shr arank k) mf [] (productFoot s o 1 shr)))

/-- The row counts of a ragged product. -/
def raggedRows (t : List Byte) (g : Nat) : List Nat := (List.range g).map fun j => leNat ((t.drop (2 * j)).take 2)

/-- MMAG (R248). -/
def execMmag (o : MmaOp) (mf zt gm k : Nat) (s : State) : Result :=
  .next (
    let g := gm + 1
    let m := rRows (zreg s.coach o.zd)
    checked (productCause s o [0, 3] k g none (if o.mode = 3 then some (zt, 2 * g) else none)) s fun s =>
      if o.mode = 0 then
        checked (need (m % g == 0) 273) s (sendMop (.mmag o mf zt gm k) mf [] (productFoot s o g false))
      else
        withRegion s (zreg s.coach zt) (2 * g) fun t bad s =>
          checked (need (decide ((raggedRows t g).sum ≤ m)) 276) s fun s =>
            sendMop (.mmag o mf zt gm k) mf t (productFoot s o g false) s bad)

/-- MMAT (R249). -/
def execMmat (o : MmaOp) (mf zm k : Nat) (s : State) : Result :=
  .next (
    let n := if o.mode = 2 then 16 + 8 * rRows (zreg s.coach o.zd) else 16
    checked (if 1 < o.acc then some 272 else productCause s o [0, 1, 2] k 1 none (if o.mode = 0 then none else some (zm, n))) s fun s =>
      if o.mode = 0 then sendMop (.mmat o mf zm k) mf [] (productFoot s o 1 false) s
      else
        withRegion s (zreg s.coach zm) n fun t bad s =>
          checked (need (leNat ((t.drop 8).take 8) == 0) 43) s fun s =>
            sendMop (.mmat o mf zm k) mf t (productFoot s o 1 false) s bad)

/-! ## Elements and groups as products read them (R38 to R41, R241) -/

/-- Unit exponent of a scale: Q4's E − 32, E8M0's, or 0 (R50). -/
def scaleExp (fmt sc : Nat) : Int :=
  if fmt = 0 then ((sc % 64 : Nat) : Int) - 32 else if fmt < 3 then (e8m0 sc).getD 0 else 0

/-- The float format of an operand format. -/
def operandFF (fmt : Nat) : FF :=
  match fmt with
  | 1 => ffE4M3
  | 8 => ffE4M3
  | 2 => ffE5M2
  | 9 => ffE5M2
  | 4 => ffBF16
  | 5 => ffF16
  | 6 => ffF32
  | _ => ffF64

/-- What a code stands for beside its scale, and the flags reading it raises. -/
def operandEl (fmt sc x : Nat) : El × Nat :=
  if fmt = 0 then
    (if sc % 64 = 0 then (.nan, orNat flagNV flagFIV)
    else match q4El (sc / 64) x with
      | some e => (e, 0)
      | none => (.nan, orNat flagNV flagFIV))
  else if fmt = 3 then (.fin (decide (128 ≤ x)) ⟨sgn 8 x, 0⟩, 0)
  else if fmt < 3 ∧ sc = 255 then (.nan, 0)
  else ((operandFF fmt).el x, (operandFF fmt).sigFlag [x])

/-- Set bits of a bitmap below j. -/
def rankBelow (m j : Nat) : Nat := ((List.range j).filter fun i => m / 2 ^ i % 2 == 1).length

/-- The chunks of a chain from q, in order; none when it names one outside the pool. -/
def chainFrom (s : State) (core : Nat) (b : Block) (pool : Nat × Nat) : Nat → Nat → Option (List Nat)
  | 0, _ => some []
  | fuel + 1, q =>
    if pool.2 ≤ q then none
    else
      let l := leNat (readSpace s core b 2 (pool.1 + 64 * q + 60) 4)
      if l / 2 ^ 31 = 1 then (chainFrom s core b pool fuel (l % 4096)).map (q :: ·) else some [q]

/-- The chunks of the group whose slot is at off. -/
def chainOf (s : State) (core : Nat) (b : Block) (pool : Option (Nat × Nat)) (off : Nat) : Option (List Nat) :=
  let info := leNat (readSpace s core b 2 (off + 4) 4)
  if fld info 9 1 = 0 then some []
  else match pool with
    | none => none
    | some p => chainFrom s core b p p.2 (fld info 10 12)

/-- The chunks of that chain up to one outside the pool. -/
def chainPart (s : State) (core : Nat) (b : Block) (pool : Nat × Nat) : Nat → Nat → List Nat
  | 0, _ => []
  | fuel + 1, q =>
    if pool.2 ≤ q then []
    else
      let l := leNat (readSpace s core b 2 (pool.1 + 64 * q + 60) 4)
      q :: (if l / 2 ^ 31 = 1 then chainPart s core b pool fuel (l % 4096) else [])

/-- Where the slot of group (g, n) lies. -/
def slotAt (z g n : Nat) : Nat := rBase z + (n * groups32 (rRows z) + g) * (rStep z * 4)

/-- The 32 codes of a group with its scale; none when its chain or its bytes do not suffice. -/
def readGroup (s : State) (core : Nat) (b : Block) (z : Nat) (pool : Option (Nat × Nat)) (g n : Nat) : Option (List Nat) × Nat :=
  let off := slotAt z g n
  let bm := leNat (readSpace s core b 2 off 4)
  let sc := leNat (readSpace s core b 2 (off + 4) 1)
  match chainOf s core b pool off with
  | none => (none, sc)
  | some qs =>
    let bytes := readSpace s core b 2 (off + 8) (rStep z * 4 - 8) ++
      (qs.map fun q => readSpace s core b 2 ((pool.getD (0, 0)).1 + 64 * q) 60).flatten
    let nb := rNibs z
    if bytes.length * 2 < rankBelow bm 32 * nb then (none, sc)
    else
      (some ((List.range 32).map fun j =>
        if bm / 2 ^ j % 2 = 0 then 0
        else
          let k := rankBelow bm j
          if nb = 1 then (bytes.getD (k / 2) 0).toNat / 16 ^ (k % 2) % 16
          else leNat ((bytes.drop (k * (nb / 2))).take (nb / 2))), sc)

/-- Some byte of a group or of its chunks carries poison. -/
def groupPoisoned (s : State) (core : Nat) (b : Block) (z : Nat) (pool : Option (Nat × Nat)) (g n : Nat) : Bool :=
  let off := slotAt z g n
  !s.wbufPois.isEmpty && (spacePoisoned s core b 2 off (rStep z * 4) ||
    ((chainOf s core b pool off).getD []).any fun q => spacePoisoned s core b 2 ((pool.getD (0, 0)).1 + 64 * q) 64)

/-! ## Accumulators (R42, R50 to R52) -/

/-- A PX pair as one exact value, and the flags reading it raises (R42, R49). -/
def pxEl (hi lo : Nat) : El × Nat :=
  let f := ffF32
  if f.isNaN hi || f.isNaN lo then (.nan, f.sigFlag [hi, lo])
  else
    match f.isInf hi, f.isInf lo with
    | true, true => if f.neg hi = f.neg lo then (.inf (f.neg hi), 0) else (.nan, flagNV)
    | true, false => (.inf (f.neg hi), 0)
    | false, true => (.inf (f.neg lo), 0)
    | false, false =>
      let d := (f.val hi).add (f.val lo)
      (.fin (if d.isZero then f.neg hi && f.isZero hi && f.isZero lo else decide (d.m < 0)) d, 0)

/-- An exact value as a PX pair in normal form, zneg the sign of a zero; pair and flags (R51). -/
def pxRound (zneg : Bool) (T : Dy) : Nat × Nat :=
  let f := ffF32
  let h := f.round 0 false zneg T
  if f.isInf h.1 then h
  else
    let l := f.round 0 false false (T.sub (f.val h.1))
    (h.1 + (if f.isZero h.1 then 0 else l.1) * 2 ^ 32, orNat (Nat.land l.2 flagNX) (Nat.land (orNat h.2 l.2) flagUF))

/-- acc := acc + S in an accumulator format; result and flags. -/
def accUpdate (acc old : Nat) (S : El) : Nat × Nat :=
  if acc = 1 then
    let a := pxEl (old % 2 ^ 32) (old / 2 ^ 32)
    let r := sumEls 0 [a.1, S]
    let fl := orNat a.2 (if r.2 then flagNV else 0)
    match r.1 with
    | .nan => (ffF32.defNaN, fl)
    | .inf n => (ffF32.inf n, fl)
    | .fin n d =>
      let x := pxRound n d
      (x.1, orNat fl x.2)
  else if acc = 2 then
    let t := sgn 32 old + S.val.floor
    ((t % (2 : Int) ^ 32).toNat, if t < -(2 : Int) ^ 31 ∨ (2 : Int) ^ 31 - 1 < t then flagIOF else 0)
  else
    let f := if acc = 3 then ffF64 else ffF32
    if f.isNaN old then (f.defNaN, f.sigFlag [old]) else f.accumulate 0 old S

/-- Elements of one K-block by operand format (R50). -/
def kblock (fmt : Nat) : Nat := if fmt ≤ 3 ∨ 8 ≤ fmt then 32 else if fmt ≤ 5 then 16 else if fmt = 6 then 8 else 4

/-! ## The products themselves (R245, R248, R249) -/

/-- One K-block of one element: row elements with their scale and column elements with theirs, lists of codes; a malformed
group reads as NaN. -/
def blockSum (fmt : Nat) (sa : Nat) (xs : List Nat) (sb : Nat) (ys : Option (List Nat)) : El × Nat :=
  let as := xs.map (operandEl fmt sa)
  let bs := match ys with
    | some l => l.map (operandEl fmt sb)
    | none => xs.map fun _ => (El.nan, orNat flagNV flagFIV)
  let r := dotBlock (scaleExp fmt sa + (if ys.isSome then scaleExp fmt sb else 0)) ((as.map Prod.fst).zip (bs.map Prod.fst))
  (r.1, (as ++ bs).foldl (fun a e => orNat a e.2) (if r.2 then flagNV else 0))

/-- What a product reads: A's core and block, the regions, the extent K. -/
structure Tile where
  fmt : Nat
  acc : Nat
  k : Nat
  acore : Nat
  ablk : Option Block
  za : Nat
  sa : Nat
  core : Nat
  blk : Block
  zd : Nat
  pool : Option (Nat × Nat)
deriving DecidableEq, Repr

/-- A's code at (r, k): unknown when the hitch member that holds it is gone. -/
def Tile.aCode (t : Tile) (s : State) (r k : Nat) : Nat :=
  match t.ablk with
  | some b => elemCode s t.acore b t.za r k
  | none => (Config.freeWord s.fresh (2 ^ 32 + r * 512 + k)).toNat % 2 ^ (4 * elemNibs 0 t.fmt)

def Tile.aScale (t : Tile) (s : State) (r g : Nat) : Nat :=
  if !scaledFmt t.fmt then 0
  else match t.ablk with
    | some b => elemCode s t.acore b t.sa r g
    | none => (Config.freeWord s.fresh (2 ^ 33 + r * 512 + g)).toNat % 256

/-- Some byte of row r of A, or of its scales, that a sum reads carries poison. -/
def Tile.aPoisoned (t : Tile) (s : State) (r : Nat) : Bool :=
  match t.ablk with
  | some b =>
    !s.spadPois.isEmpty && ((List.range t.k).any (fun k => elemPoisoned s t.acore b t.za r k) ||
      (scaledFmt t.fmt && (List.range (groups32 t.k)).any fun g => elemPoisoned s t.acore b t.sa r g))
  | none => false

def Tile.bPoisoned (t : Tile) (s : State) (zb c : Nat) : Bool :=
  !s.wbufPois.isEmpty && (List.range (groups32 t.k)).any fun g => groupPoisoned s t.core t.blk zb t.pool g c

/-- Result and flags of element (r, c) against the B region zb, K-blocks ascending; what a malformed group, which reads as NaN,
adds to an I32 accumulator the manual does not state: the element's value is free there. -/
def Tile.element (t : Tile) (s : State) (zb r c : Nat) : Nat × Nat :=
  let kb := kblock t.fmt
  (List.range ((t.k + kb - 1) / kb)).foldl (fun (a : Nat × Nat) b =>
    let n := min kb (t.k - b * kb)
    let g := b * kb / 32
    let grp := readGroup s t.core t.blk zb t.pool g c
    let S := blockSum t.fmt (t.aScale s r g) ((List.range n).map fun i => t.aCode s r (b * kb + i)) grp.2
      (grp.1.map fun l => (l.drop (b * kb % 32)).take n)
    let u := if t.acc = 2 ∧ grp.1.isNone then
        ((Config.freeWord s.fresh (2 ^ 34 + (r * 512 + c) * 16 + b)).toNat % 2 ^ 32, 0)
      else accUpdate t.acc a.1 S.1
    (u.1, orNat a.2 (orNat S.2 u.2))) (elemCode s t.core t.blk t.zd r c, 0)

/-- Rows lo to lo + n − 1 against zb, elements of `msk` set to −∞: elements written, flags, fault codes met. -/
def Tile.rows (t : Tile) (s : State) (zb lo n : Nat) (msk : Nat → Nat → Bool) : List (ElemOut × Nat × Nat) :=
  ((List.range n).map fun i => (List.range (rCols t.zd)).map fun c =>
    let r := lo + i
    if msk r c then (((r, c, ffF32.inf true, false), 0, 0) : ElemOut × Nat × Nat)
    else
      let x := t.element s zb r c
      let code := if t.aPoisoned s r then 92 else if t.bPoisoned s zb c then 277
        else if elemPoisoned s t.core t.blk t.zd r c then 116 else 0
      ((r, c, x.1, code != 0), x.2, code)).flatten

/-- The mask of MMAT (R249): table bytes as read at issue. -/
def maskedAt (mode : Nat) (t : List Byte) (r c : Nat) : Bool :=
  let qpos := leNat (t.take 4)
  let p := leNat ((t.drop 4).take 4) + c
  if mode = 1 then decide (qpos + r < p)
  else if mode = 2 then
    decide (qpos ≤ p) && (decide (64 ≤ p - qpos) || fld (leNat ((t.drop (16 + 8 * r)).take 8)) (p - qpos) 1 == 0)
  else false

/-- The row groups of an MMAG: first row and rows of each (R248). -/
def rowGroups (ns : List Nat) : List (Nat × Nat) :=
  (ns.foldl (fun (a : Nat × List (Nat × Nat)) n => (a.1 + n, a.2 ++ [(a.1, n)])) (0, [])).2

/-- Flags gathered in MFL. -/
def gatherFlags (s : State) (key fl : Nat) : State :=
  match tget s.coaches key with
  | none => s
  | some c => { s with coaches := tset s.coaches key { c with mfl := c.mfl ||| BitVec.ofNat 7 fl } }

/-- A fault met by an instruction in the array (R252). -/
def mopFault (m : MFly) (code : Nat) : Option FaultRec :=
  if code = 0 then none else some ⟨code, 0, originWord 0 m.pkt m.slot, 0, false⟩

/-- The elements of a product written; its flags and the first code met. -/
def putProduct (s : State) (m : MFly) (t : Tile) (xs : List (ElemOut × Nat × Nat)) : State × Option FaultRec :=
  let s1 := putElems s t.core t.blk t.zd (xs.map Prod.fst)
  (gatherFlags s1 (m.core * 16 + m.bslot) (xs.foldl (fun a x => orNat a x.2.1) 0),
    mopFault m (((xs.find? fun x => x.2.2 != 0).map fun x => x.2.2).getD 0))

/-- The block whose A a shared product reads; none when there is no such member (R247). -/
def sharedOf (s : State) (b : Block) (arank : Nat) : Option (Nat × Block) :=
  s.blocks.find? fun x => x.2.hitch == b.hitch && x.2.hsize != 0 && x.2.hrank == arank && !x.2.retired

/-- The tile an instruction in the array works on. -/
def tileOf (s : State) (m : MFly) (b : Block) (o : MmaOp) (k : Nat) (shr : Option Nat) : Tile :=
  let z (n : Nat) : Nat := (wget m.z n).toNat
  let owner : Nat × Option Block :=
    match shr with
    | none => (m.core, some b)
    | some a =>
      match sharedOf s b a with
      | some (key, x) => (key / 16, some x)
      | none => (m.core, none)
  ⟨o.fmt, o.acc, k + 1, owner.1, owner.2, z o.za, z (o.za + 1), m.core, b, z o.zd, poolOf b (z 31)⟩

/-! ## Compression (R242) -/

/-- Codes packed, the lower k in the low half of a byte. -/
def packCodes (nibs : Nat) (xs : List Nat) : List Byte :=
  if nibs = 1 then natLe ((xs.length + 1) / 2) (xs.foldr (fun x a => x + 16 * a) 0)
  else (xs.map fun x => natLe (nibs / 2) x).flatten

/-- NF of a group: a NaN, an infinity, a reserved code or an ill-formed scale. -/
def groupNf (fmt sc : Nat) (xs : List Nat) : Bool :=
  (decide (fmt = 0) && sc % 64 == 0) || (decide (fmt = 1 ∨ fmt = 2) && sc == 255) ||
    xs.any fun x => match (operandEl fmt sc x).1 with
      | .fin _ _ => false
      | .inf _ => true
      | .nan => true

/-- One group compressed: its slot and its chunks written, the pool map updated; none for want of chunks. -/
def putGroup (s : State) (core : Nat) (b : Block) (zw : Nat) (pool : Option (Nat × Nat)) (map : BitVec 1024)
    (g n sc : Nat) (xs : List Nat) : Option (State × BitVec 1024) :=
  let nb := rNibs zw
  let room := rStep zw * 4 - 8
  let data := packCodes nb (xs.filter fun x => x != 0)
  let ovr := data.length - room
  let want := (ovr + 59) / 60
  let p := pool.getD (0, 0)
  let free := (List.range p.2).filter fun i => !map.getLsbD i
  if free.length < want then none
  else
    let take := free.take want
    let off := slotAt zw g n
    let info := leNat (readSpace s core b 2 (off + 4) 4)
    let old := (if fld info 9 1 = 1 then chainPart s core b p p.2 (fld info 10 12) else []).filter fun q => !inList q take
    let bm := ((List.range xs.length).filter fun j => xs.getD j 0 != 0).foldl (fun a j => a + 2 ^ j) 0
    let info := sc + (if groupNf (rFmt zw) sc xs then 256 else 0) + (if want = 0 then 0 else 512 + take.headD 0 * 1024)
    let s1 := writeSpace core b 2 s off (natLe 4 bm ++ natLe 4 info ++ data.take room)
    let s2 := (List.range want).foldl (fun s j =>
      let q := p.1 + 64 * take.getD j 0
      let link := if j + 1 < want then 2 ^ 31 + take.getD (j + 1) 0 else 0
      writeSpace core b 2 (writeSpace core b 2 s q ((data.drop (room + 60 * j)).take 60)) (q + 60) (natLe 4 link)) s1
    some (s2, (old.foldl (fun m q => m &&& ~~~(BitVec.ofNat 1024 (2 ^ q))) map) ||| maskOf take)

/-- The groups of an MLDW from index i on: the state, the pool map, groups done, and 275, 92 or 0. -/
def loadGroups (core : Nat) (b : Block) (zw zs zsc : Nat) (pool : Option (Nat × Nat)) :
    Nat → Nat → State → BitVec 1024 → State × BitVec 1024 × Nat × Nat
  | 0, i, s, map => (s, map, i, 0)
  | fuel + 1, i, s, map =>
    let ng := groups32 (rRows zw)
    let g := i % ng
    let n := i / ng
    let ks := (List.range (min 32 (rRows zw - 32 * g))).map (32 * g + ·)
    let scaled := scaledFmt (rFmt zw)
    if (ks.any fun k => elemPoisoned s core b zs k n) || (scaled && elemPoisoned s core b zsc g n) then (s, map, i, 92)
    else
      match putGroup s core b zw pool map g n (if scaled then elemCode s core b zsc g n else 0) (ks.map fun k => elemCode s core b zs k n) with
      | none => (s, map, i, 275)
      | some r => loadGroups core b zw zs zsc pool fuel (i + 1) r.1 r.2

/-- What an MLDW checks (R242). -/
def mldwCause (s : State) (zw zs : Nat) : Option Nat :=
  let c := s.coach
  let w := zreg c zw
  let x := zreg c zs
  let q := zreg c (zs + 1)
  let sc := scaledFmt (rFmt w)
  if rSpace w != 2 || decide (9 < rFmt w) || decide (rStep w < 2) || rSpace x != 0 || rFmt x != rFmt w || rRows x != rRows w ||
      rCols x != rCols w || (sc && (zs == 31 || rSpace q != 0 || rFmt q != 12 || decide (rRows q < groups32 (rRows w)) ||
        decide (rCols q < rCols w))) then some 273
  else if !(rBounds s.block w && rBounds s.block x && (!sc || rBounds s.block q)) then some 274
  else none

/-- MLDW: the coachman goes on once the array has run it, so that a want of chunks stops at it (R235, R242). -/
def execMldw (zw zs mf : Nat) (s : State) : Result :=
  .next (match myWait s with
    | .op _ => stall s
    | .done (some r) => raiseFault r (setWait s .none)
    | .done none => setWait s .none
    | _ =>
      checked (mldwCause s zw zs) s fun s =>
        let c := s.coach
        let b := s.block
        let foot := rFoot b (zreg c zw) true ++ rFoot b (zreg c zs) false ++
          (if scaledFmt (rFmt (zreg c zw)) then rFoot b (zreg c (zs + 1)) false else []) ++ poolFoot b (zreg c 31) true
        if mflagRoom s mf then stall (setWait (issueMop s (.mldw zw zs mf) mf [] foot) (.op s.nextOp)) else stall s)

/-! ## Draining (R250) -/

/-- The conversion is legal: source ACC, destination format, SH, ACT, SAT. -/
def drainOk (acc fmt sh : Nat) (act sat : Bool) : Bool :=
  let plain := sh == 0 && !act && !sat
  match acc with
  | 0 => inList fmt [6, 4, 5, 8, 9]
  | 1 => inList fmt [6, 4, 5, 8, 9] || (fmt == 11 && plain)
  | 2 => (fmt == 10 && plain) || (fmt == 6 && !act && !sat)
  | _ => inList fmt [7, 6] && !act

/-- A bank as bytes, and back: what an MDRN with a table captures when it issues. -/
def bankBytes (b : Bank) : List Byte :=
  natLe 4 b.n ++ natLe 4 b.shift ++ natLe 4 b.x0 ++ (b.entries.map fun w => natLe 4 w.toNat).flatten

def bankOfBytes (bs : List Byte) : Bank :=
  ⟨leNat (bs.take 4), leNat ((bs.drop 4).take 4), leNat ((bs.drop 8).take 4),
    (List.range ((bs.length - 12) / 4)).map fun i => BitVec.ofNat 32 (leNat ((bs.drop (12 + 4 * i)).take 4))⟩

/-- MDRN (R250). -/
def execMdrn (zd zs sh : Nat) (sat act : Bool) (tbl mf : Nat) (zero : Bool) (s : State) : Result :=
  .next (
    let c := s.coach
    let d := zreg c zd
    let a := zreg c zs
    let t := if act then tableNow s s.cur.core tbl else none
    let cause : Option Nat :=
      if rSpace d != 0 || rSpace a != 1 then some 273
      else if !drainOk (rFmt a) (rFmt d) sh act sat then some 272
      else if rRows d != rRows a || rCols d != rCols a then some 273
      else if !(rBounds s.block d && rBounds s.block a) then some 274
      else if act && t.isNone then some 279
      else none
    checked cause s (sendMop (.mdrn zd zs sh sat act tbl mf zero) mf ((t.map bankBytes).getD [])
      (rFoot s.block d true ++ rFoot s.block a zero)))

/-- The exact value of an accumulator element and the flags reading it raises. -/
def accEl (acc x : Nat) : El × Nat :=
  match acc with
  | 0 => (ffF32.el x, ffF32.sigFlag [x])
  | 1 => pxEl (x % 2 ^ 32) (x / 2 ^ 32)
  | 2 => (.fin (decide (2 ^ 31 ≤ x)) ⟨sgn 32 x, 0⟩, 0)
  | _ => (ffF64.el x, ffF64.sigFlag [x])

/-- The float an accumulator's NaN is: its own code, the first NaN half of a pair, or the default NaN. -/
def accNaN (acc x : Nat) : FF × Nat :=
  match acc with
  | 0 => (ffF32, x)
  | 1 => (ffF32, if ffF32.isNaN (x % 2 ^ 32) then x % 2 ^ 32 else if ffF32.isNaN (x / 2 ^ 32) then x / 2 ^ 32 else ffF32.defNaN)
  | _ => (ffF64, x)

/-- The exact value rounded to format g. -/
def roundEl (g : FF) (sat : Bool) (nan : FF × Nat) : El → Nat × Nat
  | .nan => (if nan.1 = g then g.quiet nan.2 else nan.1.nanTo g nan.2, 0)
  | .inf n => g.infTo sat n
  | .fin n d => g.round 0 sat n d

/-- One element drained: code and flags. -/
def drainElem (acc fmt sh : Nat) (sat : Bool) (t : Option Bank) (x : Nat) : Nat × Nat :=
  if fmt = 11 ∨ fmt = 10 then (x, 0)
  else
    let e := accEl acc x
    let v : El := match e.1 with
      | .fin n d => .fin n (d.scale (sgn 8 sh))
      | .inf n => .inf n
      | .nan => .nan
    let g := operandFF fmt
    match t with
    | none =>
      let r := roundEl g sat (accNaN acc x) v
      (r.1, orNat e.2 r.2)
    | some b =>
      let u := roundEl ffF32 false (accNaN acc x) v
      let y := tableAt b 0 u.1
      let r := ffF32.convert g 0 sat y.1
      (r.1, orNat (orNat e.2 u.2) (orNat y.2 r.2))

/-- The whole drain: destination elements with flags, poison from the accumulator. -/
def drainAll (s : State) (m : MFly) (b : Block) (d a sh : Nat) (sat : Bool) (zero : Bool) : State × Option FaultRec :=
  let t := if m.table.isEmpty then none else some (bankOfBytes m.table)
  let xs := ((List.range (rRows a)).map fun r => (List.range (rCols a)).map fun c =>
    let y := drainElem (rFmt a) (rFmt d) sh sat t (elemCode s m.core b a r c)
    (((r, c, y.1, elemPoisoned s m.core b a r c), y.2) : ElemOut × Nat)).flatten
  let s1 := putElems s m.core b d (xs.map Prod.fst)
  let s2 := if zero then putElems s1 m.core b a (xs.map fun x => (x.1.1, x.1.2.1, 0, false)) else s1
  (gatherFlags s2 (m.core * 16 + m.bslot) (xs.foldl (fun f x => orNat f x.2) 0),
    mopFault m (if xs.any fun x => x.1.2.2.2 then 116 else 0))

/-! ## The array (R233, R234) -/

/-- The coachman that waits for MLDW id may go on, or stops at it. -/
def wakeCoach (s : State) (key id : Nat) (r : Option FaultRec) : State :=
  match tget s.coaches key with
  | none => s
  | some c => if c.wait = .op id then { s with coaches := tset s.coaches key { c with wait := .done r } } else s

/-- The flag of an instruction that leaves the array falls, with its fault if it met one (R252). -/
def mopDone (s : State) (m : MFly) (id : Nat) : State :=
  let s := { s with mops := tdel s.mops id }
  let key := m.core * 16 + m.bslot
  match tget s.coaches key with
  | none => s
  | some c =>
    let e := c.flag m.mf
    let e := match m.fault with
      | some r => e.add r
      | none => e
    let fs := if m.mf < 8 then tset c.flags m.mf ⟨e.count - 1, e.record⟩ else tset c.flags 15 e
    { s with coaches := tset s.coaches key { c with flags := fs } }

/-- An MLDW runs: from its resume point on; a want of chunks takes it back out of the array. -/
def runMldw (s : State) (id : Nat) (m : MFly) (b : Block) (zw zs : Nat) : State :=
  let z (n : Nat) : Nat := (wget m.z n).toNat
  let key := m.core * 16 + m.bslot
  let c := (tget s.coaches key).getD Coach.init
  let total := rCols (z zw) * groups32 (rRows (z zw))
  let r := loadGroups m.core b (z zw) (z zs) (z (zs + 1)) (poolOf b (z 31)) (total - c.progress) c.progress s c.pool
  let s := match tget r.1.coaches key with
    | none => r.1
    | some c => { r.1 with coaches := tset r.1.coaches key { c with pool := r.2.1, progress := if r.2.2.2 = 275 then r.2.2.1 else 0 } }
  if r.2.2.2 = 275 then wakeCoach (mopDone s { m with fault := none } id) key id (some ⟨275, 0, 0, 0, false⟩)
  else
    wakeCoach { s with mops := tset s.mops id { m with stage := 1, fault := mopFault m r.2.2.2 } } key id none

/-- The effect of an instruction that leaves for the array; its fault. -/
def runMop (s : State) (m : MFly) (b : Block) : State × Option FaultRec :=
  let z (n : Nat) : Nat := (wget m.z n).toNat
  match m.op with
  | .mzer n => (putElems s m.core b (z n) ((List.range (rRows (z n))).map fun r => (List.range (rCols (z n))).map fun c =>
      ((r, c, 0, false) : ElemOut)).flatten, none)
  | .mma o _ shr arank k =>
    let t := tileOf s m b o k (if shr then some arank else none)
    putProduct s m t (t.rows s (z o.zb) 0 (rRows t.zd) fun _ _ => false)
  | .mmag o _ _ gm k =>
    let t := tileOf s m b o k none
    let g := gm + 1
    let ns := if o.mode = 3 then raggedRows m.table g else List.replicate g (rRows t.zd / g)
    putProduct s m t ((((rowGroups ns).zip (List.range g)).map fun x => t.rows s (z (o.zb + x.2)) x.1.1 x.1.2 fun _ _ => false).flatten)
  | .mmat o _ _ k =>
    let t := tileOf s m b o k none
    putProduct s m t (t.rows s (z o.zb) 0 (rRows t.zd) (maskedAt o.mode m.table))
  | .mdrn zd zs sh sat _ _ _ zero => drainAll s m b (z zd) (z zs) sh sat zero
  | .mldw _ _ _ => (s, none)
  | .mnop => (s, none)
  | .msetz _ => (s, none)
  | .mbar _ _ => (s, none)
  | .mwat _ _ _ => (s, none)
  | .mlop _ _ => (s, none)
  | .mbra _ => (s, none)
  | .mbraLoop _ _ => (s, none)
  | .mend => (s, none)

/-- A core takes part: a shared product waits while the member it reads from is switched out (R256, R315). -/
def memberHere (s : State) (m : MFly) (b : Block) : Bool :=
  match m.op with
  | .mma _ _ true arank _ => (sharedOf s b arank).isSome || !(s.saved.any fun v => v.2.blocks.any fun x =>
      x.2.hitch == b.hitch && x.2.hsize != 0 && x.2.hrank == arank)
  | _ => true

/-- An instruction may leave for the array: nothing in flight that issued before it clashes (R191, R234). -/
def mopReady (s : State) (m : MFly) : Bool :=
  m.stage == 0 && !scoreboardBusy s m.core m.foot m.stamp &&
    (match tget s.blocks (m.core * 16 + m.bslot) with
    | some b => memberHere s m b
    | none => false)

/-- Coachmen of a core have their turns in the order of their block slots, one instruction each: it is the turn of the first behind the one
taken from last that has one ready (R233). -/
def myTurn (s : State) (m : MFly) : Bool :=
  let last := (s.core m.core).turn
  ((List.range 16).map fun i => (last + 1 + i) % 16).find? (fun b => s.mops.any fun x => x.2.core == m.core && x.2.bslot == b && mopReady s x.2) ==
    some m.bslot

/-- ARRAY_DISPATCH: instruction id leaves for the array in its coachman's turn (R191, R233, R234). -/
def execArrayDispatch (id : Nat) (s : State) : Result :=
  .next (match tget s.mops id with
    | none => s
    | some m =>
      match tget s.blocks (m.core * 16 + m.bslot) with
      | none => s
      | some b =>
        if !(mopReady s m && myTurn s m) then s
        else
          let s := s.modCore m.core fun c => { c with turn := m.bslot }
          match m.op with
          | .mldw zw zs _ => runMldw s id m b zw zs
          | _ =>
            let r := runMop s m b
            let f := match m.fault with
              | some x => some x
              | none => r.2
            { r.1 with mops := tset r.1.mops id { m with stage := 1, fault := f } })

/-- MATRIX_OP_COMPLETE: the last access is performed (R252). -/
def execMatrixOpComplete (id : Nat) (s : State) : Result :=
  .next (match tget s.mops id with
    | none => s
    | some m => if m.stage = 1 then mopDone s m id else s)

/-! ## Meeting the teams (R251 to R254) -/

/-- MBAR: 0 arrives and waits, 1 arrives, 2 waits for the latest arrival, of which there is a note until its generation completes. Between coachman and teams the scoreboard orders
what was issued, so an arrival waits for nothing. -/
def execMbar (n m : Nat) (s : State) : Result :=
  .next (match myWait s with
    | .barrier key c => if (barrierAt s key).gen = c then stall s else setWait s .none
    | .done _ => setWait s .none
    | _ =>
      withBarrier s 1 n fun key b s =>
        if !hasUnit s.cur b.members then raiseCode 192 s
        else if m = 2 then
          (match tget s.coach.arrived n with
          | some g => stall (setWait s (.barrier key g))
          | none => s)
        else if hasUnit s.cur b.arrived then stall s
        else
          let s := arriveAt (s.modCoach fun c => { c with arrived := tset c.arrived n b.gen }) key s.cur
          if m = 0 ∧ (barrierAt s key).gen = b.gen then stall (setWait s (.barrier key b.gen)) else s)

/-- The first recorded fault an MWAT on mask k delivers: its flags, lowest first, then MF 15. -/
def firstMfault (c : Coach) (k : Nat) : Option (Nat × FaultRec) :=
  ((List.range 8).filter (fun f => k / 2 ^ f % 2 == 1) ++ [15]).findSome? fun f => (c.flag f).record.map fun r => (f, r)

/-- Wait on coachman flags, deliver what they recorded, then go on (R252). -/
def mwaitOn (s : State) (k : Nat) (f : State → State) : State :=
  if (List.range 8).any fun j => k / 2 ^ j % 2 == 1 && (s.coach.flag j).count != 0 then stall s
  else
    match firstMfault s.coach k with
    | some (j, r) => raiseRecord j r s
    | none => f s

/-- MWAT (R252). -/
def execMwat (k : Nat) (st : Bool) (off : Nat) (s : State) : Result :=
  .next (mwaitOn s k fun s =>
    if !st then s
    else if !winOk s.block (off * 32) 4 then raiseCode 274 s
    else if windowBusy s (winFoot s.block (off * 32) 4 true) then stall s
    else
      (clearCovered (writeWin s (off * 32) (natLe 4 s.coach.mfl.toNat)) 0 s.cur.core (winOffsets s.block (off * 32) 4)).modCoach
        fun c => { c with mfl := 0 })

/-- MLOP (R253). -/
def execMlop (n cnt : Nat) (s : State) : Result := .next (s.modCoach fun c => { c with l := tset c.l n cnt })

/-- A taken coachman branch: the target must lie in the stream (R253). -/
def coachJump (s : State) (o : Nat) (f : State → State) : State :=
  let p : Int := (s.coach.pkt : Int) + sgn 16 o
  if 0 ≤ p ∧ p.toNat < s.block.kern.mpkt then
    ((f s).modCoach fun c => { c with pkt := p.toNat, slot := 0, ibuf := none }).withFate .transferred
  else raiseCode 43 s

/-- MBRA (R253). -/
def execMbra (o : Nat) (s : State) : Result := .next (coachJump s o id)

/-- MBRA.LOOP (R253). -/
def execMbraLoop (n o : Nat) (s : State) : Result :=
  .next (
    let v := (tget s.coach.l n).getD 0
    let dec (s : State) : State := s.modCoach fun c => { c with l := tset c.l n (v - 1) }
    if v = 0 then s else if v = 1 then dec s else coachJump s o dec)

/-- The coachman's stream ends: it departs from its barriers (R197, R254). -/
def endCoach (s : State) (st : UnitStatus) : State :=
  departAll ((s.modCoach fun c => { c with status := st, wait := .none, ibuf := none }).withFate .ended) s.cur

/-- MEND (R254). -/
def execMend (s : State) : Result :=
  .next (if (myMops s).isEmpty then mwaitOn s 0xFF fun s => endCoach s .exited else stall s)

end Sys2Proof.Machine
end

