-- ==== Sys2Proof/Machine/Distributor.lean ====
section
/-! DEFINITION. Placement: room on a core, the differential, launches, claims, hitches, retirement and completion events, the
whiffletree (R18, R27 to R34, R258 to R267, R298 to R309). -/

namespace Sys2Proof.Machine

/-! ## Stages of a graph (R261, R263, R264) -/

def Graph.stage? (g : Graph) (n : Nat) : Option Stage := g.stages[n]?
def Graph.kernelOf (g : Graph) (st : Stage) : Kernel := g.kernels.getD st.kidx Kernel.empty

/-- Blocks of a hitch, 1 for none. -/
def hitchSize (st : Stage) : Nat := 2 ^ st.hitch

/-- Where a context's global address lies, with nothing changed by looking. -/
def peekLoc (s : State) (part ctx va : Nat) : Option Loc := (ctxLoc s part ctx va).2

/-- A queue's descriptor as its home slice has it, with nothing changed by looking. -/
def peekDesc (s : State) (part ctx va : Nat) : Option Nat :=
  (peekLoc s part ctx va).bind fun l => if l.kind = 0 then some (readDesc s l).2 else none

/-- Blocks of a stage in flight (R29). -/
def stageInflight (g : Graph) (n : Nat) : Nat := (tget g.inflight n).getD 0

/-- The queue tables of a graph's stages: input and outputs. -/
def stageQueues (st : Stage) : List Nat := st.inq :: st.outq

/-- Queue q of the graph is at its end: closed, with no backlog. -/
def queueEnded (s : State) (g : Graph) (q : Nat) : Bool :=
  match peekDesc s g.part g.ctx (g.queues.getD q 0) with
  | some d => qClosed d && qEmpty d
  | none => false

/-- A stage of a resident graph is finished and has not been marked so (R263). -/
def stageDone (s : State) (g : Graph) (n : Nat) : Bool :=
  match g.stage? n with
  | some st => !inList n g.finished && queueEnded s g st.inq && stageInflight g n == 0
  | none => false

/-- A stage finishes: PRODS of each of its output queues, and of the event queue, falls by one, by a message to its home slice. Nothing else
fires with it: the distributor does this by itself. -/
def finishStage (s : State) (gs n : Nat) : State :=
  match tget s.graphs gs with
  | none => s
  | some g =>
    match g.stage? n with
    | none => s
    | some st =>
      let s := { s with graphs := tset s.graphs gs { g with finished := g.finished ++ [n] } }
      let vas := (st.outq.map fun q => g.queues.getD q 0).eraseDups ++ (if g.evq = 0 then [] else [g.evq])
      vas.foldl (fun s va => match peekLoc s g.part g.ctx va with
        | some l => { s with prodMsgs := tset s.prodMsgs s.nextOp l, nextOp := s.nextOp + 1 }
        | none => s) s

/-! ## Room (R18, R27, R210) -/

/-- Teams and registers of partition p of a core. -/
def rfUse (s : State) (core p : Nat) : Nat × Nat :=
  (s.teams.filter fun t => t.1 / 1024 == core && t.2.rfpart == p).foldl (fun (a : Nat × Nat) t =>
    match tget s.blocks (t.1 / 64) with
    | some b => (a.1 + 1, a.2 + b.lanes * b.nreg)
    | none => a) (0, 0)

/-- The partitions of n teams of r registers each, in team order: each goes to the lowest with room (R18). -/
def placeTeams (r : Nat) : Nat → List (Nat × Nat) → Option (List Nat)
  | 0, _ => some []
  | n + 1, use =>
    match (List.range 4).find? fun p => decide ((use.getD p (0, 0)).1 < 16) && decide ((use.getD p (0, 0)).2 + r ≤ 32768) with
    | none => none
    | some p =>
      (placeTeams r n (use.mapIdx fun i u => if i = p then (u.1 + 1, u.2 + r) else u)).map (p :: ·)

/-- Where a block goes: slot, partitions of its teams, window, accumulator and weight-buffer offsets. -/
structure Place where
  slot : Nat
  parts : List Nat
  win : Nat
  acc : Nat
  wb : Nat
deriving DecidableEq, Repr

/-- Bytes of a block's window with its spill areas. -/
def blockBytes (st : Stage) : Nat := st.win * 256 + st.teams * st.spill * st.lanes * 32

/-- Ranges of an accumulator store (1) or weight buffer (2) that blocks of the core have. -/
def reserved (s : State) (core space : Nat) : List (Nat × Nat) :=
  (s.blocks.filter fun b => b.1 / 16 == core && !b.2.retired).map fun b =>
    if space = 1 then (b.2.accOff, b.2.accSize) else (b.2.wbOff, b.2.wbSize)

/-- Paddocks a stage names, by mode. -/
def stagePads (g : Graph) (st : Stage) (fill : Bool) : List Nat :=
  (st.pads.filter fun p => p.1 == fill).filterMap fun p => (g.paddocks[p.2]?).map Prod.fst

/-- The paddock is resident on the core. -/
def padOn (s : State) (part core name : Nat) : Bool :=
  match padFind s part name with
  | some p => p.state == 2 && p.core == core && padLive s p
  | none => false

/-- Space found one after another for paddocks of these sizes. -/
def fitAll (used : List (Nat × Nat)) : List Nat → Bool
  | [] => true
  | n :: ns =>
    match lowestFit used 0 4096 n (2 ^ 20) with
    | some o => fitAll ((o, n) :: used) ns
    | none => false

/-- Room with the scratchpad ranges `used` (R27). That a reservation of the accumulator store or the weight buffer is one range, at the lowest
multiple of 1 KiB where it fits, is the model's choice (DESIGN CHOICE, log 41). -/
def placeWith (s : State) (core : Nat) (g : Graph) (st : Stage) (used : List (Nat × Nat)) (pads : Nat) : Option Place :=
  let fills := ((stagePads g st true).filter fun n => !padOn s g.part core n).filterMap fun n => (padFind s g.part n).map Paddock.size
  let slot := (List.range 16).find? fun k => (tget s.blocks (core * 16 + k)).isNone
  let parts := placeTeams (st.lanes * st.nreg) st.teams ((List.range 4).map (rfUse s core))
  let win := lowestFit used 0 256 (blockBytes st) (2 ^ 20)
  let acc := lowestFit (reserved s core 1) 0 1024 (st.accr * 1024) (2 ^ 18)
  let wb := lowestFit (reserved s core 2) 0 1024 (st.wbr * 1024) (2 ^ 18)
  match slot, parts, win, acc, wb with
  | some k, some ps, some w, some a, some b =>
    if fitAll ((w, blockBytes st) :: used) fills ∧ pads + fills.length ≤ 16 then some ⟨k, ps, w, a, b⟩ else none
  | _, _, _, _, _ => none

/-- Paddocks the pull rule may evict from the core for a stage, the one detached longest ago first (R210). -/
def evictable (s : State) (core : Nat) (g : Graph) (st : Stage) : List Paddock :=
  let ps := s.paddocks.filter fun p => p.state == 2 && p.core == core && padLive s p && !p.pin && padFree s p &&
    !inList p.name (stagePads g st true ++ stagePads g st false)
  ps.foldl (fun l p => (l.takeWhile fun q => decide (q.detached ≤ p.detached)) ++ [p] ++ l.dropWhile fun q => decide (q.detached ≤ p.detached)) []

/-- Scratchpad in use once some paddocks have gone, and the entries left in the core's table. -/
def usedWithout (s : State) (core : Nat) (ps : List Paddock) : List (Nat × Nat) × Nat :=
  ((spadUsed s core).filter fun u => !(ps.any fun p => p.coreOff == u.1 && p.size == u.2), padTable s core - ps.length)

/-- A place for a block, with the fewest of the evictable paddocks gone, oldest first; those that go. -/
def placeAfter (s : State) (core : Nat) (g : Graph) (st : Stage) (ps : List Paddock) : Option (Place × List Paddock) :=
  (List.range (ps.length + 1)).findSome? fun k =>
    let u := usedWithout s core (ps.take k)
    (placeWith s core g st u.1 u.2).map fun p => (p, ps.take k)

/-- Every page of the backing area takes a write-back (R399). -/
def canBack (s : State) (p : Paddock) : Bool := (backPages s p).2.2.isNone

/-- The core has room for a block of the stage (R27). -/
def roomFor (s : State) (core : Nat) (g : Graph) (st : Stage) : Option (Place × List Paddock) :=
  placeAfter s core g st ((evictable s core g st).filter (canBack s))

/-- A paddock leaves the core for a launch. -/
def evictPad (s : State) (p : Paddock) : State :=
  let r := backPages s p
  padStirAll (padPut (padOut r.1 p r.2.1) { p with state := 1 }) p.part p.name

/-- There would be room if every write-back could take place. -/
def wouldFit (s : State) (core : Nat) (g : Graph) (st : Stage) : Bool := (placeAfter s core g st (evictable s core g st)).isSome

/-- Paddocks that making room for the stage would evict, oldest first, and whose write-back fails (R399). -/
def stuckPads (s : State) (core : Nat) (g : Graph) (st : Stage) : List Paddock :=
  let ps := evictable s core g st
  (match roomFor s core g st with
  | some (_, qs) => (match qs.getLast? with
    | some q => ps.takeWhile fun p => p != q
    | none => [])
  | none => if wouldFit s core g st then ps else []).filter fun p => !canBack s p

/-- Their codes are logged, with the backing address. -/
def logPads (s : State) (core : Nat) (g : Graph) (st : Stage) : State :=
  (stuckPads s core g st).foldl (fun s p => match (backPages s p).2.2 with
    | some (c, _) => logRas s p.part c core p.back p.ctx
    | none => s) s

/-! ## Launching (R19, R26, R30, R210, R233) -/

/-- A block placed on a core: its teams and coachman as a launch leaves them. -/
def putBlock (s : State) (core gs n : Nat) (g : Graph) (st : Stage) (p : Place) (aside : Bool) : State :=
  let key := core * 16 + p.slot
  let k := g.kernelOf st
  let own := s.owner g.part
  let b : Block := { Block.empty with
    part := g.part, ctx := g.ctx, gslot := gs, stage := n, serial := g.serial
    w := st.w, lanes := st.lanes, nreg := st.nreg, spillGroups := st.spill, nteams := st.teams, kern := k
    winOff := p.win, winSize := st.win * 256, spillOff := p.win + st.win * 256
    accOff := p.acc, accSize := st.accr * 1024, wbOff := p.wb, wbSize := st.wbr * 1024
    budget := st.budget, joins := st.joins, joinp := st.joinp
    launchPads := (stagePads g st true ++ stagePads g st false).filter fun x => padOn s g.part core x
    hsize := st.hitch, aside := aside }
  let s := zeroLocal (zeroLocal s 1 core own p.acc (st.accr * 1024)) 2 core own p.wb (st.wbr * 1024)
  { s with
    blocks := tset s.blocks key b
    teams := (List.range st.teams).foldl (fun ts t =>
      tset ts (key * 64 + t) (Team.init st.lanes (p.parts.getD t 0) s.nextStamp)) s.teams
    chains := tcut s.chains (key * 64) 64
    coaches := if k.mpkt = 0 then s.coaches else tset s.coaches key Coach.init
    nextStamp := s.nextStamp + 1 }

/-- The units of a block. -/
def unitsOf (s : State) (key : Nat) : List UnitId :=
  match tget s.blocks key with
  | none => []
  | some b => (List.range b.nteams).map (fun t => ⟨key / 16, key % 16, t, false⟩) ++
      (if (tget s.coaches key).isSome then [⟨key / 16, key % 16, 0, true⟩] else [])

def teamUnits (s : State) (key : Nat) : List UnitId := (unitsOf s key).filter fun u => !u.coach

/-- A block starts: a serial number, its barriers, and the stage's count (R33, R196). -/
def startBlock (s : State) (key : Nat) (counted : Bool) : State :=
  match tget s.blocks key with
  | none => s
  | some b =>
    match tget s.graphs b.gslot with
    | none => s
    | some g =>
      let s := { s with
        graphs := tset s.graphs b.gslot { g with
          serial := (g.serial + 1) % 2 ^ 32
          ran := addOnce (key / 16) g.ran
          inflight := if counted then g.inflight else tset g.inflight b.stage (stageInflight g b.stage + 1) }
        blocks := tset s.blocks key { b with serial := g.serial, aside := false } }
      let us := unitsOf s key
      let ts := teamUnits s key
      let s := { s with barriers := (List.range 16).foldl (fun t n => tset t (2 ^ 40 + key * 16 + n) ⟨0, us, [], [], []⟩) s.barriers }
      let join (level : Nat) (s : State) : State :=
        (List.range 4).foldl (fun s n => match barrierKey b key level n with
          | some k => changeMembers s k key ts false
          | none => s) s
      join 4 (join 3 s)

/-- A solo launch: paddocks in its way go first. -/
def launchSolo (s : State) (core gs n : Nat) (counted : Bool) : State :=
  match tget s.graphs gs with
  | none => s
  | some g =>
    match g.stage? n with
    | none => s
    | some st =>
      match roomFor s core g st with
      | none => s
      | some (p, ps) =>
        let s := ps.foldl evictPad s
        startBlock (putBlock s core gs n g st p false) (core * 16 + p.slot) counted

/-! ## The differential (R264, R265) -/

/-- A core's table value of queue q of the graph. -/
def tableBacklog (s : State) (core : Nat) (g : Graph) (q : Nat) : Nat :=
  (wget ((tget s.wtree core).getD []) (g.wslots.getD q 0)).toNat

def backIn (s : State) (core : Nat) (g : Graph) (st : Stage) : Nat := tableBacklog s core g st.inq
def backOut (s : State) (core : Nat) (g : Graph) (st : Stage) : Nat :=
  st.outq.foldl (fun m q => max m (tableBacklog s core g q)) 0

/-- Saturation to signed 32 bits. -/
def sat32 (d : Int) : Int := min (max d (-2147483648)) 2147483647

/-- D(s) of R264. -/
def differential (s : State) (core : Nat) (g : Graph) (st : Stage) : Int :=
  sat32 ((st.weight : Int) * ((backIn s core g st : Int) - (backOut s core g st : Int)))

/-- Some block of the stage is in flight on the core (R29). -/
def onCore (s : State) (core gs n : Nat) : Bool :=
  (s.blocks.any fun b => b.1 / 16 == core && b.2.gslot == gs && b.2.stage == n && !b.2.retired) ||
    ((s.core core).events.any fun e => e.gslot == gs && e.stage == n)

/-- A member of a hitch could be placed there: room, every REQUIRE paddock resident (R265, R307). -/
def qualifies (s : State) (core : Nat) (g : Graph) (st : Stage) : Bool :=
  ((stagePads g st false).all fun x => padOn s g.part core x) && (roomFor s core g st).isSome &&
    (match (s.core core).phase with | .run => true | _ => false)

/-- Cores of a cluster where members of a hitch could go, ascending. -/
def hitchCores (s : State) (cluster : Nat) (g : Graph) (st : Stage) : List Nat :=
  ((List.range 8).map (8 * cluster + ·)).filter fun c => qualifies s c g st

/-- The stage of a sticky request that the core keeps pending (R308). -/
def stickyStage (s : State) (core : Nat) : Option (Graph × Stage) :=
  match ((tget s.hitches (clusterOf core)).getD []).head? with
  | some h =>
    if h.sticky && h.phase == 1 && inList core h.members && !inList core h.grants then
      (tget s.graphs h.gslot).bind fun g => (g.stage? h.stage).map fun st => (g, st)
    else none
  | none => none

/-- Scratchpad a block of the stage needs on the core, with the paddocks it fills. -/
def bytesFor (s : State) (core : Nat) (g : Graph) (st : Stage) : Nat :=
  (((stagePads g st true).filter fun n => !padOn s g.part core n).filterMap fun n => (padFind s g.part n).map Paddock.size).foldl (· + ·) (blockBytes st)

/-- Of `free`, what a sticky request needs is set aside, and `use` must fit in the rest. -/
def besides (free need use : Nat) : Bool := decide (use + min free need ≤ free)

/-- Launching the stage takes nothing that is set aside for a sticky request: of each kind of resource, as much of what the request needs as is
free (R308, log 79). -/
def stickyOk (s : State) (core : Nat) (g : Graph) (st : Stage) : Bool :=
  match stickyStage s core with
  | none => true
  | some (h, w) =>
    let uses := (List.range 4).map (rfUse s core)
    let left (l : List (Nat × Nat)) (cap : Nat) : Nat := cap - l.foldl (fun n u => n + u.2) 0
    besides ((List.range 16).filter fun k => (tget s.blocks (core * 16 + k)).isNone).length 1 1 &&
      besides (64 - uses.foldl (fun n u => n + u.1) 0) w.teams st.teams &&
      besides (left uses (4 * 32768)) (w.teams * (w.lanes * w.nreg)) (st.teams * (st.lanes * st.nreg)) &&
      besides (left (spadUsed s core) (2 ^ 20)) (bytesFor s core h w) (bytesFor s core g st) &&
      besides (left (reserved s core 1) (2 ^ 18)) (w.accr * 1024) (st.accr * 1024) &&
      besides (left (reserved s core 2) (2 ^ 18)) (w.wbr * 1024) (st.wbr * 1024)

/-- What makes a stage eligible but for room (R265). -/
def stageOpen (s : State) (core gs n : Nat) (g : Graph) (st : Stage) : Bool :=
  inList gs (s.core core).digests && !g.removing && s.runs g.part g.ctx &&
    !((s.core core).excluded.any fun e => e == (gs, n)) &&
    decide (0 < backIn s core g st) && decide (0 < differential s core g st) && (!st.onepc || !onCore s core gs n)

/-- The stage is eligible on the core (R265). -/
def eligible (s : State) (core gs n : Nat) (g : Graph) (st : Stage) : Bool :=
  stageOpen s core gs n g st && qualifies s core g st && stickyOk s core g st &&
    (st.hitch == 0 || decide (hitchSize st ≤ (hitchCores s (clusterOf core) g st).length))

/-- The stage would be eligible if every paddock in its way could be written back. -/
def nearly (s : State) (core gs n : Nat) (g : Graph) (st : Stage) : Bool :=
  eligible s core gs n g st ||
    (stageOpen s core gs n g st && ((stagePads g st false).all fun x => padOn s g.part core x) && wouldFit s core g st)

/-- Graph slot, stage and differential. -/
abbrev Cand := Nat × Nat × Int

/-- The stages that p holds of, by graph slot and stage. -/
def stagesWith (s : State) (core : Nat) (p : Nat → Nat → Graph → Stage → Bool) : List Cand :=
  (s.graphs.map fun g => (g.2.stages.mapIdx fun n st =>
    if p g.1 n g.2 st then [(g.1, n, differential s core g.2 st)] else []).flatten).flatten

/-- The eligible stages. -/
def candidates (s : State) (core : Nat) : List Cand := stagesWith s core (eligible s core)

/-- The greatest differential; of equals the first (R266). -/
def best (l : List Cand) : Option Cand :=
  l.foldl (fun b c => match b with
    | none => some c
    | some x => if x.2.2 < c.2.2 then some c else some x) none

/-! ## Evaluation, claims (R304, R305) -/

/-- A free block slot of the core. -/
def slotFree (s : State) (core : Nat) : Bool := (List.range 16).any fun k => (tget s.blocks (core * 16 + k)).isNone

/-- Write-backs that fail are logged where the pull rule would make them: for the stage that wins, and for the one that would win if they did
not fail (R399). -/
def logStuck (s : State) (core : Nat) : State :=
  ([best (candidates s core), best (stagesWith s core (nearly s core))].eraseDups).foldl (fun s c =>
    match c with
    | none => s
    | some (gs, n, _) =>
      match tget s.graphs gs with
      | none => s
      | some g =>
        match g.stage? n with
        | none => s
        | some st => logPads s core g st) s

/-- The core has something to evaluate. -/
def evalReady (s : State) (core : Nat) : Bool :=
  (s.core core).evalDue && (s.core core).claim.isNone &&
    (match (s.core core).phase with | .run => true | _ => false)

/-- The winner goes its way: a hitch to the cluster's arbiter, a solo block onto the core (R304, R307). -/
def proceed (s : State) (core gs n : Nat) (st : Stage) (counted : Bool) : State :=
  if st.hitch = 0 then
    let s := launchSolo s core gs n counted
    s.modCore core fun c => { c with evalDue := c.evalDue || slotFree s core }
  else
    let cl := clusterOf core
    let sticky := decide (4 ≤ (tget s.cancels (cl * 4096 + gs * 256 + n)).getD 0)
    let r : HitchReq := ⟨core, gs, n, [], [], [], sticky, 0⟩
    { s with hitches := tset s.hitches cl ((tget s.hitches cl).getD [] ++ [r]) }

/-- DISTRIBUTOR_EVALUATE (R304): the snapshot is the state it begins with; a stage with a cap claims first. What frees or changes from here on
makes the core evaluate again. -/
def execDistributorEvaluate (core : Nat) (s : State) : Result :=
  .next (
    if !evalReady s core then s
    else
      let w := best (candidates s core)
      let s := (logStuck s core).modCore core fun c => { c with evalDue := false, idle := w.isNone }
      match w with
      | none => s
      | some (gs, n, _) =>
        match (tget s.graphs gs).bind fun g => g.stage? n with
        | none => s
        | some st =>
          if st.maxb ≠ 0 then s.modCore core fun c => { c with claim := some (gs, n) }
          else proceed s core gs n st false)

/-- A claim for k blocks of a stage is returned. -/
def returnClaim (s : State) (gs n k : Nat) : State :=
  match tget s.graphs gs with
  | none => s
  | some g => { s with graphs := tset s.graphs gs { g with inflight := tset g.inflight n (stageInflight g n - k) } }

/-- A block of a stage stops being in flight; a refused claim may be made again (R305). -/
def dropInflight (s : State) (gs n : Nat) : State :=
  let s := returnClaim s gs n 1
  { s with cores := s.cores.map fun c => (c.1, { c.2 with excluded := c.2.excluded.filter fun e => e != (gs, n) }) }

/-- MAXB_CLAIM_REPLY (R305). -/
def execMaxbClaimReply (core : Nat) (s : State) : Result :=
  .next (match (s.core core).claim with
    | none => s
    | some (gs, n) =>
      let s := s.modCore core fun c => { c with claim := none }
      match tget s.graphs gs with
      | none => s.modCore core fun c => { c with evalDue := true }
      | some g =>
        match g.stage? n with
        | none => s
        | some st =>
          let k := hitchSize st
          if st.maxb < stageInflight g n + k then
            s.modCore core fun c => { c with evalDue := true, excluded := c.excluded ++ [(gs, n)] }
          else
            let s := { s with graphs := tset s.graphs gs { g with inflight := tset g.inflight n (stageInflight g n + k) } }
            if st.hitch = 0 ∧ ((roomFor s core g st).isNone ∨ stickyOk s core g st = false ∨ (s.core core).phase ≠ .run) then
              (returnClaim s gs n 1).modCore core fun c => { c with evalDue := true }
            else proceed s core gs n st true)

/-! ## Hitches (R307, R308) -/

/-- The request a cluster's arbiter serves. -/
def hitchHead (s : State) (cluster : Nat) : Option HitchReq := ((tget s.hitches cluster).getD []).head?

def setHead (s : State) (cluster : Nat) (h : Option HitchReq) : State :=
  let l := ((tget s.hitches cluster).getD []).tail
  { s with hitches := tset s.hitches cluster (match h with
    | some h => h :: l
    | none => l) }

def cancelKey (cluster : Nat) (h : HitchReq) : Nat := cluster * 4096 + h.gslot * 256 + h.stage

/-- The end of a cancelled request: its claim returns, its core evaluates again. -/
def hitchOver (s : State) (cluster : Nat) (h : HitchReq) : State :=
  let s := { setHead s cluster none with cancels := tset s.cancels (cancelKey cluster h) ((tget s.cancels (cancelKey cluster h)).getD 0 + 1) }
  let s := match (tget s.graphs h.gslot).bind fun g => g.stage? h.stage with
    | some st => if st.maxb = 0 then s else returnClaim s h.gslot h.stage (hitchSize st)
    | none => s
  s.modCore h.core fun c => { c with evalDue := true }

/-- HITCH_REQUEST (R307, step 1). -/
def execHitchRequest (cluster : Nat) (s : State) : Result :=
  .next (match hitchHead s cluster with
    | none => s
    | some h =>
      if h.phase ≠ 0 then s
      else
        match tget s.graphs h.gslot with
        | none => hitchOver s cluster h
        | some g =>
          match g.stage? h.stage with
          | none => hitchOver s cluster h
          | some st =>
            let cs := hitchCores s cluster g st
            let others := (cs.filter fun c => c != h.core).take (hitchSize st - 1)
            if !inList h.core cs || decide (others.length + 1 < hitchSize st) then hitchOver s cluster h
            else setHead s cluster (some { h with members := insertNat h.core others, phase := 1 }))

/-- HITCH_RESERVE (R307, step 2; R308): GRANT with the resources set aside, DENY, or, for a sticky request, neither yet. -/
def execHitchReserve (cluster core : Nat) (s : State) : Result :=
  .next (match hitchHead s cluster with
    | none => s
    | some h =>
      if h.phase ≠ 1 ∨ !inList core h.members ∨ inList core h.grants ∨ inList core h.denies then s
      else
        match tget s.graphs h.gslot with
        | none => setHead s cluster (some { h with denies := h.denies ++ [core] })
        | some g =>
          match g.stage? h.stage with
          | none => s
          | some st =>
            match qualifies s core g st, roomFor s core g st with
            | true, some (p, ps) =>
              setHead (putBlock (ps.foldl evictPad (logPads s core g st)) core h.gslot h.stage g st p true) cluster
                (some { h with grants := h.grants ++ [core] })
            | _, _ =>
              if h.sticky && (match (s.core core).phase with | .run => true | _ => false) then s
              else setHead (logPads s core g st) cluster (some { h with denies := h.denies ++ [core] }))

/-- The block set aside on a core. -/
def asideBlock (s : State) (core : Nat) : Option (Nat × Block) := s.blocks.find? fun b => b.1 / 16 == core && b.2.aside

/-- HITCH_RESPONSE (R307, step 3): once every member has answered, COMMIT when all granted, else CANCEL. -/
def execHitchResponse (cluster : Nat) (s : State) : Result :=
  .next (match hitchHead s cluster with
    | none => s
    | some h =>
      if h.phase ≠ 1 ∨ h.grants.length + h.denies.length < h.members.length then s
      else if !h.denies.isEmpty then setHead s cluster (some { h with phase := 3 })
      else
        let id := s.nextHitch
        let s := (h.members.zip (List.range 8)).foldl (fun s m => match asideBlock s m.1 with
          | some (k, b) => { s with blocks := tset s.blocks k { b with hitch := id, hrank := m.2 } }
          | none => s) s
        let us := (h.members.filterMap fun c => (asideBlock s c).map fun b => teamUnits s b.1).flatten
        { setHead s cluster (some { h with phase := 2 }) with
          nextHitch := id + 1
          cancels := tdel s.cancels (cancelKey cluster h)
          barriers := (List.range 8).foldl (fun t n => tset t (2 * 2 ^ 40 + id * 8 + n) ⟨0, us, [], [], []⟩) s.barriers })

/-- A member has done its part; with none left the request leaves the arbiter. -/
def dropMember (s : State) (cluster core : Nat) (h : HitchReq) : State :=
  let ms := h.members.filter fun c => c != core
  if !ms.isEmpty then setHead s cluster (some { h with members := ms })
  else if h.phase = 2 then setHead s cluster none
  else hitchOver s cluster h

/-- The teams of a block take the launch timestamp of this moment (R24). -/
def restamp (s : State) (key : Nat) : State :=
  { s with
    teams := s.teams.map fun t => if t.1 / 64 = key then (t.1, { t.2 with stamp := s.nextStamp }) else t
    nextStamp := s.nextStamp + 1 }

/-- HITCH_COMMIT: a member launches its block. -/
def execHitchCommit (cluster core : Nat) (s : State) : Result :=
  .next (match hitchHead s cluster with
    | none => s
    | some h =>
      if h.phase ≠ 2 ∨ !inList core h.members then s
      else
        let capped := match (tget s.graphs h.gslot).bind fun g => g.stage? h.stage with
          | some st => st.maxb != 0
          | none => false
        let s := match asideBlock s core with
          | some (k, _) => startBlock (restamp s k) k capped
          | none => s
        let s := dropMember s cluster core h
        s.modCore core fun c => { c with evalDue := c.evalDue || slotFree s core })

/-- A block placed and not launched goes again. -/
def dropAside (s : State) (core : Nat) : State :=
  match asideBlock s core with
  | some (k, _) => { s with
      blocks := tdel s.blocks k
      teams := s.teams.filter fun t => t.1 / 64 != k
      coaches := tdel s.coaches k }
  | none => s

/-- HITCH_CANCEL: set-aside resources return (R307). -/
def execHitchCancel (cluster core : Nat) (s : State) : Result :=
  .next (match hitchHead s cluster with
    | none => s
    | some h =>
      if h.phase ≠ 3 ∨ !inList core h.members then s
      else dropMember (if inList core h.grants then dropAside s core else s) cluster core h)

/-! ## Retirement and completion events (R29, R32, R33) -/

def unitOver (u : UnitStatus) : Bool :=
  match u with
  | .exited => true
  | .terminated => true
  | .running => false
  | .stopped => false

/-- The unit belongs to the block. -/
def unitIn (key : Nat) (u : UnitId) : Bool := u.core * 16 + u.bslot == key

/-- The core ranges of a block: window, spill areas, accumulator reservation and attached paddocks. -/
def blockFoot (b : Block) : List Foot :=
  [⟨0, b.winOff, b.winSize, true⟩, ⟨0, b.spillOff, spillBytes b, true⟩, ⟨1, b.accOff, b.accSize, true⟩,
    ⟨2, b.wbOff, b.wbSize, true⟩] ++ b.attached.map fun a => ⟨0, a.coreOff, a.size, true⟩

/-- The block may retire: its own work is over, and no operation of the core touches a paddock it has attached (R29, R189). -/
def canRetire (s : State) (key : Nat) (b : Block) : Bool :=
  !b.aside && !b.retired && (s.teams.all fun t => t.1 / 64 != key || (unitOver t.2.status && t.2.guards.isEmpty)) &&
    (match tget s.coaches key with | some c => unitOver c.status | none => true) &&
    !(s.mops.any fun m => m.2.core * 16 + m.2.bslot == key) &&
    !(s.jobs.any fun j => j.2.unit.core == key / 16 && footsClash j.2.foot (blockFoot b)) &&
    !(s.ops.any fun o => unitIn key o.2.unit && !o.2.unit.coach && !o.2.foot.isEmpty) &&
    !coreTouches s (key / 16) (b.attached.map fun a => ⟨0, a.coreOff, a.size, true⟩)

/-- What a retired block still has under way carries no unit any more. -/
def orphan (key : Nat) (u : UnitId) : UnitId := if unitIn key u then { u with coach := true } else u

def orphanOp (key : Nat) (o : Nat × Op) : Nat × Op := (o.1, { o.2 with unit := orphan key o.2.unit })
def orphanReq (key : Nat) (r : Nat × Req) : Nat × Req := (r.1, { r.2 with unit := orphan key r.2.unit })
/-- A job of a block that retires: it touches global memory only, and its ticket is no one's any more (R225, R232). -/
def orphanJob (key : Nat) (j : Nat × Job) : Nat × Job :=
  (j.1, if blockKey j.2.unit = key then { j.2 with unit := orphan key j.2.unit, ticket := 0 } else j.2)
def orphanSector (key : Nat) (x : L1Sector) : L1Sector := { x with unit := orphan key x.unit }

/-- Flits still in the send buffers of a block's teams. -/
def leftFlits (s : State) (key : Nat) : List (Nat × Nat × BitVec 128) :=
  ((s.teams.filter fun t => t.1 / 64 == key).map fun t => t.2.snd.map fun f =>
    ((wget t.2.sndcfg f.1).toNat % 256, fld (wget t.2.sndcfg f.1).toNat 8 2, f.2)).flatten

/-- OPEN is cleared in every registration of the partition that names the block (R357). -/
def closeRegs (s : State) (part ctx key : Nat) : State :=
  (List.range 4096).foldl (fun s i =>
    let e := (fabricEntry s part 3 i 32).2
    if e % 2 = 1 ∧ fld e 214 3 = part ∧ fld e 217 6 = ctx ∧ fld e 206 8 = key / 16 ∧ fld e 202 4 = key % 16 then
      homeWrite s (chipLoc part 0 (partFcfg (s.part part) + Config.fabricTable 3 + i * 32)) (s.owner part) [BitVec.ofNat 8 (e % 256 - 1)]
    else s) s

/-- The completion event of a block (R33). -/
def eventWord (key : Nat) (b : Block) : BitVec 128 :=
  let st := if b.killed then 2 else if b.budget ≠ 0 ∧ b.budget ≤ b.counted then 1 else 0
  BitVec.ofNat 128 (key % 16 * 2 ^ 16 + key / 16 * 2 ^ 20 + b.gslot * 2 ^ 28 + b.stage * 2 ^ 32 + st * 2 ^ 40 +
    b.serial * 2 ^ 64 + b.recs % 2 ^ 32 * 2 ^ 96)

/-- The slot of a block frees: the core evaluates (R29, R304). -/
def freeSlot (s : State) (key : Nat) : State :=
  ({ s with blocks := tdel s.blocks key }).modCore (key / 16) fun c => { c with evalDue := true }

/-- Entries of a core's event buffer that a context has. -/
def bufferUse (s : State) (core part ctx : Nat) : Nat :=
  ((s.core core).events.filter fun e => e.buffered && e.part == part && e.ctx == ctx).length

/-- A block retires (R29): its dirty stash bytes and the core's dirty L1 bytes are written back (R144: a sector does not say whose its bytes
are), paddocks detached in order, its teams and coachman gone, its completion event left to the core. -/
def retireBlock (s : State) (key : Nat) (b : Block) : State :=
  let core := key / 16
  let fl := leftFlits s key
  let s := flushStash (flushL1 s fun x => x.core == core) key
  let s := b.attached.foldl (fun s a => padStirAll (padDetach s key a.name) b.part a.name) s
  let s := closeRegs s b.part b.ctx key
  let s := { s with
    teams := s.teams.filter fun t => t.1 / 64 != key
    coaches := tdel s.coaches key
    barriers := s.barriers.filter fun x => !(decide (2 ^ 40 + key * 16 ≤ x.1) && decide (x.1 < 2 ^ 40 + key * 16 + 16))
    ops := s.ops.map (orphanOp key)
    reqs := s.reqs.map (orphanReq key)
    jobs := s.jobs.map (orphanJob key)
    l1 := s.l1.map (orphanSector key) }
  let s := s.modCore core fun c => { c with flits := c.flits ++ fl }
  match tget s.graphs b.gslot with
  | none => freeSlot s key
  | some g =>
    if g.evq = 0 then dropInflight (freeSlot s key) b.gslot b.stage
    else
      let full := decide (16 ≤ bufferUse s core b.part b.ctx)
      let e : HeldEvent := ⟨b.part, b.ctx, b.gslot, b.stage, key, full, false, g.evq, eventWord key b⟩
      let s := s.modCore core fun c => { c with events := c.events ++ [e] }
      if full then { s with blocks := tset s.blocks key { b with retired := true, attached := [], stash := [], launchPads := [] } }
      else freeSlot s key

/-- BLOCK_RETIRE (R29). -/
def execBlockRetire (unit : Nat) (s : State) : Result :=
  .next (match tget s.blocks unit with
    | none => s
    | some b => if canRetire s unit b then retireBlock s unit b else s)

/-- Something a retired block issued is still counted: a store, an atomic or an ENQ not performed, a dray job (R32). -/
def stillCounted (s : State) (key : Nat) : Bool :=
  (s.ops.any fun o => o.2.unit.coach && unitIn key o.2.unit && !(opWrites o.2).isEmpty) ||
    (s.reqs.any fun r => r.2.unit.coach && unitIn key r.2.unit && writeKind r.2.kind && unperformed r.2) ||
    (s.jobs.any fun j => j.2.unit.coach && unitIn key j.2.unit)

/-- An earlier event of the same queue that the core holds goes before event i: one in the buffer, or one that waits with its slot for an
entry (R33). -/
def eventBehind (s : State) (core : Nat) (i : Nat) (e : HeldEvent) : Bool :=
  ((s.core core).events.take i).any fun x =>
    (x.buffered || (x.slotHeld && !stillCounted s x.blockKey)) && x.evq == e.evq && x.part == e.part && x.ctx == e.ctx

/-- The buffer of a context has an entry for an event that has none. -/
def eventRoom (s : State) (core : Nat) (e : HeldEvent) : Bool := !e.buffered && decide (bufferUse s core e.part e.ctx < 16)

/-- Event i of a core may be tried, or held behind another: its block's operations are done. -/
def eventDue (s : State) (core : Nat) (i : Nat) (e : HeldEvent) : Bool :=
  !stillCounted s e.blockKey && (!eventBehind s core i e || eventRoom s core e)

/-- The events something can be done with, by place. -/
def eventsDue (s : State) (core : Nat) : List (Nat × HeldEvent) :=
  (((s.core core).events.mapIdx fun i e => (i, e)).filter fun x => eventDue s core x.1 x.2)

/-- An event queue is forwarded: a valid send entry of some port of the partition names it (R33, R350). -/
def eventForwarded (s : State) (part evq : Nat) : Bool :=
  (List.range (24 * 64)).any fun i =>
    let e := (fabricEntry s part 1 i 32).2
    fld e 0 2 == 1 && fld e 192 64 == evq

/-- The core's writes stand at their homes: the enqueue of an event is a release at a scope (R33). -/
def coreReleased (s : State) (core scope : Nat) : State × Bool :=
  let s := flushL1 s fun x => x.core == core
  (s, !writesLeft s core scope)

/-- An event has left: its block is in flight no more, and a slot it kept frees. -/
def eventGone (s : State) (core i : Nat) (e : HeldEvent) : State :=
  let s := s.modCore core fun c => { c with events := c.events.eraseIdx i }
  let s := if e.slotHeld then freeSlot s e.blockKey else s
  dropInflight s e.gslot e.stage

/-- No room in the queue: the event takes an entry of the buffer when one is free, and a slot it kept frees. -/
def eventHeld (s : State) (core i : Nat) (e : HeldEvent) : State :=
  if !eventRoom s core e then s
  else
    let s := s.modCore core fun c => { c with events := c.events.set i { e with buffered := true, slotHeld := false } }
    if e.slotHeld then freeSlot s e.blockKey else s

/-- COMPLETION_EVENT_ENQUEUE: one event of the core is tried: enqueued, discarded by a closed queue, or held (R33). -/
def execCompletionEventEnqueue (core : Nat) (s : State) : Result :=
  .next (
    let es := eventsDue s core
    match es[Config.freeChoice s.fresh 2 % es.length]? with
    | none => s
    | some (i, e) =>
      if eventBehind s core i e then eventHeld s core i e
      else
      let r := coreReleased s core (if eventForwarded s e.part e.evq then 5 else 4)
      if !r.2 then r.1
      else
        match ctxLoc r.1 e.part e.ctx e.evq with
        | (s, none) => s
        | (s, some l) =>
          if l.kind ≠ 0 then s
          else
            let q := enqueue s l true [natLe 16 e.event.toNat]
            if q.2.1 = 1 ∨ q.2.2 = 3 then eventGone q.1 core i e else eventHeld q.1 core i e)

/-! ## The whiffletree (R300 to R303) -/

/-- The queues the home slices report: those they have served a step of, those of the resident graphs' tables, and their event queues
(R300, log 78). -/
def watchedQueues (s : State) : List Nat :=
  (s.graphs.map fun g => ((g.2.queues ++ (if g.2.evq = 0 then [] else [g.2.evq])).filterMap fun va => peekDesc s g.2.part g.2.ctx va)).flatten ++
    (s.queueLocs.map fun l => (readDesc s l).2).filter fun d => !qBad d

/-- The value of a slot: the largest of those that name it. -/
def slotValue (ds : List Nat) (slot : Nat) : Nat :=
  ds.foldl (fun m d => if qWen d && qWslot d == slot then max m (min (qBacklog d) 0xFFFFFF) else m) 0

/-- The 128 slots of frame pair j. -/
def sampleOf (s : State) (j : Nat) : Tab (BitVec 24) :=
  let ds := watchedQueues s
  (List.range 128).map fun i => (128 * j + i, BitVec.ofNat 24 (slotValue ds (128 * j + i)))

/-- WHIFFLETREE_SAMPLE: frame pair j is sampled at every home slice, the pairs in turn (R301). -/
def execWhiffletreeSample (j : Nat) (s : State) : Result :=
  .next (if !s.wstarted ∨ j ≠ s.wnext ∨ s.wsample.any (fun x => x.1 == j) = true then s
    else { s with wsample := s.wsample ++ [(j, sampleOf s j)], wnext := (j + 1) % 32 })

/-- Slots a core's digests name (R298). -/
def readSlots (s : State) (core : Nat) : List Nat :=
  ((s.graphs.filter fun g => inList g.1 (s.core core).digests).map fun g =>
    (g.2.stages.map fun st => (stageQueues st).map fun q => g.2.wslots.getD q 0).flatten).flatten

/-- A table with the values of a sample. -/
def writeTable (t v : Tab (BitVec 24)) : Tab (BitVec 24) :=
  v.foldl (fun t x => if x.2 = 0 then tdel t x.1 else tset t x.1 x.2) t

/-- A sample written into one core's table; a change of an entry it reads makes it evaluate when its last evaluation found no stage and a slot is
free (R266, R304). -/
def deliverCore (v : Tab (BitVec 24)) (s : State) (core : Nat) : State :=
  let t := (tget s.wtree core).getD []
  let s1 := { s with wtree := tset s.wtree core (writeTable t v) }
  if (s.core core).idle && slotFree s core && (readSlots s core).any fun k => v.any fun x => x.1 == k && x.2 != wget t k then
    s1.modCore core fun c => { c with evalDue := true }
  else s1

/-- The frame of a sample that core `core` drops, by its half, is logged there (R303). -/
def dropFrame (drops : List Nat) (core : Nat) (s : State) (half : Nat) : State :=
  if inList (2 * core + half) drops then logRas s ((partOfCore s core).getD 8) 347 core 0 63 else s

/-- What of a sample a core takes: the frames it does not drop. -/
def keptFrames (drops : List Nat) (core : Nat) (v : Tab (BitVec 24)) : Tab (BitVec 24) :=
  v.filter fun x => !inList (2 * core + x.1 / 64 % 2) drops

/-- WHIFFLETREE_TABLE_WRITE: the two frames of the oldest sample reach every core but those that drop one for a parity error, which log it
(R301 to R303), and the ports' copy. A dropped frame is named by twice its core, plus 1 for the second of the pair. -/
def execWhiffletreeTableWrite (drops : List Nat) (s : State) : Result :=
  .next (match s.wsample with
    | [] => s
    | (_, v) :: rest =>
      let s := { s with wsample := rest, wport := writeTable s.wport v }
      (List.range 192).foldl (fun s core =>
        deliverCore (keptFrames drops core v) (dropFrame drops core (dropFrame drops core s 0) 1) core) s)

end Sys2Proof.Machine
end

