-- ==== Sys2Proof/Machine/Slicing.lean ====
section
/-! DEFINITION. Time slices: which context runs next, how a core drains, saves and restores (R310 to R315, R343, R344). -/

namespace Sys2Proof.Machine

/-! ## Choosing a context (R343) -/

/-- The state a queue has, or had before a slice paused it. -/
def realState (q : WorkQueue) : Nat := if q.state = 7 then q.paused else q.state

/-- A queue with something to do: STATE 2, 3 or 4. -/
def queueActive (q : WorkQueue) : Bool := q.en && decide (2 ≤ realState q ∧ realState q ≤ 4)

/-- A context of a partition has work. -/
def runnable (s : State) (part ctx : Nat) : Bool :=
  (s.wqs.any fun q => q.2.part == part && q.2.ctx == ctx && queueActive q.2) ||
    (s.graphs.any fun g => g.2.part == part && g.2.ctx == ctx && decide (g.2.finished.length < g.2.stages.length))

/-- The next runnable context after the running one, in ascending order, wrapping at 63. -/
def nextContext (s : State) (part : Nat) : Option Nat :=
  match tget s.running part with
  | some r => ((List.range 63).map fun i => (r + 1 + i) % 64).find? fun c => runnable s part c
  | none => (List.range 64).find? fun c => runnable s part c

/-- The length of the slice of a partition that runs: 1 ms by default. -/
def sliceLength (s : State) (part : Nat) : Nat := (tget s.sliceNow part).getD 1750000

/-- A multi-step packet of the running context is under way (R344). -/
def packetBusy (s : State) (part ctx : Nat) : Bool := s.wqs.any fun q => q.2.part == part && q.2.ctx == ctx && q.2.busy

/-- The ostler runs, the slice is over and another context wants the cores (R328, R343, R344). -/
def sliceDue (s : State) (part : Nat) : Bool :=
  s.ostler && partV (s.part part) && (tget s.switching part).isNone && (nextContext s part).isSome &&
    (match tget s.running part with
    | some c => !packetBusy s part c && decide ((tget s.sliceAt part).getD 0 + sliceLength s part ≤ s.clock)
    | none => true)

/-- A queue of a context that leaves the cores: STATE 7; a wait on memory is abandoned and tested again (R343, R344). -/
def pauseQueue (q : WorkQueue) : WorkQueue :=
  if 1 ≤ q.state ∧ q.state ≤ 4 then
    { q with state := 7, paused := if q.state = 3 then 2 else q.state, wait := if q.state = 3 then .none else q.wait }
  else q

/-- A queue of a context that comes back. -/
def unpauseQueue (q : WorkQueue) : WorkQueue := if q.state = 7 then { q with state := q.paused } else q

/-- The queues of a context changed. -/
def mapQueues (s : State) (part ctx : Nat) (f : WorkQueue → WorkQueue) : State :=
  { s with wqs := s.wqs.map fun q => if q.2.part = part ∧ q.2.ctx = ctx then (q.1, f q.2) else q }

/-- The cores of a partition. -/
def coresOf (s : State) (part : Nat) : List Nat := (List.range 192).filter fun c => partHas (s.part part) (groupOf c)

/-- SLICE_EXPIRY: a switch to the next runnable context is requested (R310, R343). -/
def execSliceExpiry (part : Nat) (s : State) : Result :=
  .next (
    if !sliceDue s part then s
    else
      match nextContext s part with
      | none => s
      | some c =>
        let s := { s with switching := tset s.switching part c }
        let s := match tget s.running part with
          | some r => mapQueues s part r pauseQueue
          | none => s
        (coresOf s part).foldl (fun s k => s.modCore k fun x => { x with phase := .stop }) s)

/-! ## Draining a core (R311, R312) -/

/-- An operation that is withdrawn or saved asleep, not waited for: a DEQ .WAIT or an ACQ that waits at its home slice, an
attach or eviction that waits for its paddock. -/
def withdrawn (s : State) (o : Op) : Bool :=
  match o.kind with
  | .deq _ w _ _ _ _ _ r => w && r.isNone
  | .guardReq _ _ _ _ g => g.isNone
  | .attach n _ _ _ _ => (match padFind s o.part n with
    | some p => p.state != 3 || p.core != o.unit.core
    | none => false)
  | .evict _ => true
  | _ => false

/-- A team stands at a packet boundary, with nothing of the next packet issued; or it has tried, with nothing of its own in flight, and waits
for another unit: a sleeper of R312, or a stall that none but another unit ends (log 69). -/
def atBoundary (s : State) (k : Nat) (t : Team) : Bool :=
  match t.status with
  | .running => !midPacket s k t || t.blocked
  | .stopped => true
  | .exited => true
  | .terminated => true

/-- The core has nothing in flight that R312 waits for. -/
def drained (s : State) (core : Nat) : Bool :=
  !(s.ops.any fun o => o.2.unit.core == core && !withdrawn s o.2) && !(s.jobs.any fun j => j.2.unit.core == core) &&
    !(s.reqs.any fun r => r.2.core == core) && !(s.walks.any fun w => w.2.reqs.any fun r => r.2 == core) && (s.core core).claim.isNone && !flitDue s core &&
    !(((tget s.hitches (clusterOf core)).getD []).any fun h => h.core == core || inList core h.members) &&
    (s.teams.all fun t => t.1 / 1024 != core || atBoundary s t.1 t.2)

/-- Entries of a table with keys of one core, n to a core. -/
def ofCoreKeys {α : Type} (t : Tab α) (core n : Nat) : Tab α := tslice t (core * n) n
def notCoreKeys {α : Type} (t : Tab α) (core n : Nat) : Tab α := tcut t (core * n) n


def savedKey (core part ctx : Nat) : Nat := core * 512 + part * 64 + ctx

/-- Keys of the BLOCK barriers of a core. -/
def blockBarriers (core : Nat) (k : Nat) : Bool := decide (2 ^ 40 + core * 256 ≤ k) && decide (k < 2 ^ 40 + core * 256 + 256)

/-- What a core saves of the context it runs (R314). -/
def savedOf (s : State) (core : Nat) : Saved where
  teams := ofCoreKeys s.teams core 1024
  blocks := ofCoreKeys s.blocks core 16
  coaches := ofCoreKeys s.coaches core 16
  spad := ofCoreKeys s.spad core (2 ^ 20)
  acc := ofCoreKeys s.acc core (2 ^ 18)
  wbuf := ofCoreKeys s.wbuf core (2 ^ 18)
  spadPois := s.spadPois.filter fun k => k / 2 ^ 20 == core
  accPois := s.accPois.filter fun k => k / 2 ^ 18 == core
  wbufPois := s.wbufPois.filter fun k => k / 2 ^ 18 == core
  tables := ofCoreKeys s.tables core 8
  tabCur := ofCoreKeys s.tabCur core 4
  rcv := (s.core core).rcv
  readers := (s.core core).readers
  flits := (s.core core).flits
  events := (s.core core).events
  barriers := s.barriers.filter fun b => blockBarriers core b.1
  mops := s.mops.filter fun m => m.2.core == core
  chains := ofCoreKeys s.chains core 1024
  resend := s.ops.filter fun o => o.2.unit.core == core

/-- A core with none of that left on it. -/
def clearCore (s : State) (core : Nat) : State :=
  let s := { s with
    teams := notCoreKeys s.teams core 1024
    blocks := notCoreKeys s.blocks core 16
    coaches := notCoreKeys s.coaches core 16
    spad := notCoreKeys s.spad core (2 ^ 20)
    acc := notCoreKeys s.acc core (2 ^ 18)
    wbuf := notCoreKeys s.wbuf core (2 ^ 18)
    spadPois := s.spadPois.filter fun k => k / 2 ^ 20 != core
    accPois := s.accPois.filter fun k => k / 2 ^ 18 != core
    wbufPois := s.wbufPois.filter fun k => k / 2 ^ 18 != core
    tables := notCoreKeys s.tables core 8
    tabCur := notCoreKeys s.tabCur core 4
    curTeam := notCoreKeys s.curTeam core 4
    barriers := s.barriers.filter fun b => !blockBarriers core b.1
    mops := s.mops.filter fun m => m.2.core != core
    chains := notCoreKeys s.chains core 1024
    ops := s.ops.filter fun o => o.2.unit.core != core
    l1 := s.l1.filter fun x => x.core != core }
  s.modCore core fun c => { c with rcv := [], readers := [], flits := [], events := [] }

/-- An ACQ that waits at a peer's home slice is withdrawn there (R312). -/
def withdrawPeer (s : State) (x : Nat × Op) : State :=
  match x.2.kind with
  | .guardReq _ l m _ none =>
    match s.remotes.find? fun r => r.2.owner == 4 && r.2.id == x.1 with
    | some (ref, _) =>
      sendPeer { s with remotes := tdel s.remotes ref } l.part l.ctx x.2.unit.core l.dest 7 0 (.guardOp 6 l.addr ref m)
    | none => s
  | _ => s

/-- The request goes out again (R312). -/
def askPeerAgain (s : State) (x : Nat × Op) : State :=
  match x.2.kind with
  | .guardReq _ l m _ none =>
    if l.kind = 1 then sendPeer s l.part l.ctx x.2.unit.core l.dest 4 x.1 (.guardOp m l.addr 0 0) else s
  | _ => s

/-- DRAIN_COMPLETE: with everything resolved the core writes its dirty bytes back; when they stand at their homes it saves and is
idle (R313). -/
def execDrainComplete (core : Nat) (s : State) : Result :=
  .next (match (s.core core).phase with
    | .stop =>
      if drained s core then (flushL1 s fun x => x.core == core).modCore core fun c => { c with phase := .flush } else s
    | .flush =>
      if drained s core then
        (match partOfCore s core with
        | none => s
        | some p =>
          let s := match tget s.running p with
            | some c => { s with saved := tset s.saved (savedKey core p c) (savedOf s core) }
            | none => s
          let s := (s.ops.filter fun o => o.2.unit.core == core).foldl withdrawPeer s
          (clearCore s core).modCore core fun c => { c with phase := .idle })
      else s
    | .run => s
    | .drain => s
    | .save => s
    | .idle => s
    | .load => s)

/-! ## Restoring (R313, R315) -/

/-- An operation sent again takes a new place in arrival order. -/
def resent (o : Nat × Op) : Nat × Op := (o.1, { o.2 with arrive := 0 })

/-- Two tables with no key in common, as one. -/
def merge {α : Type} (t u : Tab α) : Tab α := u.foldl (fun t x => tset t x.1 x.2) t

def mergeNats (l m : List Nat) : List Nat := m.foldl (fun l x => insertNat x l) l

/-- A team runs on: what had blocked it is tried again. -/
def wakeTeam (t : Nat × Team) : Nat × Team := (t.1, { t.2 with blocked := false })

def coachAwake (c : Nat × Coach) : Nat × Coach := (c.1, { c.2 with blocked := false })

/-- A core takes back what a context saved on it; one saved never before loads as empty (R313). -/
def loadCore (s : State) (core part ctx : Nat) : State :=
  let k := savedKey core part ctx
  let s1 := match tget s.saved k with
    | none => s
    | some v =>
      let s := { s with
        saved := tdel s.saved k
        teams := merge s.teams (v.teams.map wakeTeam)
        blocks := merge s.blocks v.blocks
        coaches := merge s.coaches (v.coaches.map coachAwake)
        spad := merge s.spad v.spad
        acc := merge s.acc v.acc
        wbuf := merge s.wbuf v.wbuf
        spadPois := mergeNats s.spadPois v.spadPois
        accPois := mergeNats s.accPois v.accPois
        wbufPois := mergeNats s.wbufPois v.wbufPois
        tables := merge s.tables v.tables
        tabCur := merge s.tabCur v.tabCur
        barriers := merge s.barriers v.barriers
        mops := merge s.mops v.mops
        chains := merge s.chains v.chains
        ops := merge s.ops (v.resend.map resent) }
      v.resend.foldl askPeerAgain
        (s.modCore core fun c => { c with rcv := v.rcv, readers := v.readers, flits := v.flits, events := v.events })
  s1.modCore core fun c => { c with phase := .run, evalDue := true }

/-- Every core of the partition is idle. -/
def allIdle (s : State) (part : Nat) : Bool := (coresOf s part).all fun c => decide ((s.core c).phase = .idle)

/-- PARTITION_SAVED: the incoming context is loaded on every core, and its queues run on (R313, R315, R343). -/
def execPartitionSaved (part : Nat) (s : State) : Result :=
  .next (match tget s.switching part with
    | none => s
    | some c =>
      if !allIdle s part then s
      else
        let s := { s with
          running := tset s.running part c
          switching := tdel s.switching part
          sliceAt := tset s.sliceAt part s.clock
          sliceNow := tset s.sliceNow part ((tget s.sliceLen part).getD 1750000) }
        mapQueues ((coresOf s part).foldl (fun s k => loadCore s k part c) s) part c unpauseQueue)

/-! ## HBM channels (R372) -/

/-- HBM_AGE_CAP_EXPIRY: the oldest request of a channel has waited AGECAP cycles; until it is served younger row hits wait. -/
def execHbmAgeCapExpiry (ch : Nat) (s : State) : Result :=
  .next (match tget s.channels ch with
    | none => s
    | some c => if c.queue.isEmpty then s else { s with channels := tset s.channels ch { c with capped := true } })

/-- HBM_REFRESH: a refresh takes channel time and changes no byte (R372). -/
def execHbmRefresh (ch : Nat) (s : State) : Result :=
  .next (match tget s.channels ch with
    | none => s
    | some c => { s with channels := tset s.channels ch c })

end Sys2Proof.Machine
end

