-- ==== Sys2Proof/Machine/Geldy.lean ====
section
/-! DEFINITION. The Geldy fabric: the link of a port, accesses of peers and the answers to ours, forwarding queues and their
summaries (R268, R346 to R354, R392). -/

namespace Sys2Proof.Machine

/-! ## The link (R347, R348, R392) -/

/-- The partition a port belongs to, 8 for none. -/
def portPart (s : State) (p : Nat) : Nat :=
  ((List.range 8).find? fun k => partV (s.part k) && partPorts (s.part k) / 2 ^ p % 2 == 1).getD 8

/-- Frames up to a number are acknowledged; progress clears the count of go-backs. -/
def linkAck (s : State) (p seq : Nat) : State :=
  match (s.port p).unacked.findIdx? fun x => x.1 == seq with
  | some k => s.modPort p fun q =>
      { q with
        unacked := q.unacked.drop (k + 1)
        goBacks := 0
        resend := q.resend.filter fun m => (q.unacked.drop (k + 1)).any fun x => x.2 == m }
  | none => s

/-- A frame is sent again, by whatever port reaches its destination now. -/
def sendAgain (s : State) (m : OutMsg) : State :=
  match m.header with
  | some h => sendFrame s h.part h.dst m
  | none => s

/-- Frames held for want of a route or of room try again, in order: a step of the link engines. -/
def retryUnsent (s : State) : State :=
  s.unsent.foldl (fun s x => sendAgain s x.2) { s with unsent := [] }

/-- A port goes down: its unacknowledged frames go over other ports, in order and before those held (R348). -/
def portDown (s : State) (p : Nat) : State :=
  let late := (s.port p).unacked.filterMap fun x => x.2.header.map fun h => (h.dst, x.2)
  let s := s.modPort p fun q => { q with up := false, unacked := [], resend := [], goBacks := 0 }
  if late.isEmpty then s else retryUnsent { s with unsent := late ++ s.unsent }

/-- The link is down: that is logged. -/
def linkDown (s : State) (p : Nat) : State := portDown (logRas s (portPart s p) 365 p 0 63) p

/-- A go-back to the oldest unacknowledged frame; after eight without progress the link is down. -/
def goBack (s : State) (p : Nat) : State :=
  let q := s.port p
  if q.unacked.isEmpty || !q.up then s
  else if 8 ≤ q.goBacks then linkDown s p
  else q.unacked.foldl (fun s x => emit s x.2) (s.modPort p fun q => { q with goBacks := q.goBacks + 1, resend := [] })

/-- ACK_FRAME (R348). -/
def execAckFrame (port seq : Nat) (s : State) : Result :=
  .next (if s.phase ≠ .ready then emit s (.notReady port) else linkAck s port seq)

/-- NAK_FRAME: frames before the one expected have arrived; a busy one has the rest sent again later, any other goes back
(R348, R354, R392). -/
def execNakFrame (port seq : Nat) (busy : Bool) (s : State) : Result :=
  .next (
    if s.phase ≠ .ready then emit s (.notReady port)
    else
      let s := linkAck s port ((seq + 4095) % 4096)
      if busy then s.modPort port fun q => { q with resend := q.unacked.map Prod.snd } else goBack s port)

/-- RETRANSMIT_TIMEOUT (R348). -/
def execRetransmitTimeout (port : Nat) (s : State) : Result := .next (goBack s port)

/-- Frames refused busy are sent again: a step of the port's engine. -/
def portResend (s : State) (p : Nat) : State :=
  (s.port p).resend.foldl emit (s.modPort p fun q => { q with resend := [] })

/-- GELDY_LINK_TRAINING: a link trains again and counts its frames from 0 (R391, R392). -/
def execGeldyLinkTraining (port : Nat) (s : State) : Result :=
  .next (if s.phase = .ready ∧ (s.port port).up = false ∧ portPart s port < 8 ∧ s.identNow.isSome = true then
    s.modPort port fun q => { q with up := true, ident := pkgNow s, nextSeq := 0, expSeq := 0, goBacks := 0 }
  else s)

/-- A numbered frame arrives: it is taken when it is the next expected and nothing refuses it busy (R347, R348, R392). -/
def frameIn (s : State) (h : FrameHdr) (busy : Bool) (k : State → State) : State :=
  if s.phase ≠ .ready then emit s (.notReady h.port)
  else if (s.port h.port).up = false then s
  else if h.rsv ≠ 0 then logRas s (portPart s h.port) 363 h.port 0 63
  else
    let s := if h.ackv then linkAck s h.port h.ackseq else s
    let e := (s.port h.port).expSeq
    if h.seq ≠ e then emit s (.nak h.port e false)
    else if busy then emit s (.nak h.port e true)
    else k (emit (s.modPort h.port fun q => { q with expSeq := (e + 1) % 4096 }) (.ack h.port e))

/-! ## Accesses of peers (R349) -/

/-- A byte of a frame that carries poison is 256 or more. -/
def marked (x : Nat) : Bool := decide (256 ≤ x)

/-- The ranges of physical memory an access touches, with the rights it needs. -/
def peerRanges : PeerOp → List (Nat × Nat) × Bool × Bool
  | .read a n => ([(a, n)], true, false)
  | .write bs => (bs.map fun b => (b.1, 1), false, true)
  | .atomic _ k _ ls _ => (ls.map fun l => (l.1, kindSize k), true, true)
  | .tileRead rs => (rs, true, false)
  | .tileWrite rs => (rs.map fun r => (r.1, r.2.length), false, true)
  | .guardOp _ a _ _ => ([(a, 128)], true, true)

/-- The partition whose HBM stack holds a physical address (R377). -/
def paPart (s : State) (pa : Nat) : Option Nat :=
  (List.range 8).find? fun p => partV (s.part p) && partHas (s.part p) (fld pa 36 3)

/-- A grant entry decides an access: its source matches and its range holds every byte (R349). The fields' places are not given
(log 9): 0 source package, 1 source context, 2 base, 3 length, 4 R, 5 W, 6 HOME, 7 HOMEID, 8 context. -/
def grantMatches (e : List Nat) (src ctx : Nat) (rs : List (Nat × Nat)) : Bool :=
  let f (k : Nat) := Config.fabricField 4 k e
  e.getD 0 0 % 2 == 1 && f 0 == src && f 1 == ctx &&
    rs.all fun r => decide (f 2 ≤ r.1) && decide (r.1 + r.2 ≤ f 2 + f 3)

/-- The grant of an access: where its bytes are at home, none when it is refused. -/
def findGrant (s : State) (part src ctx : Nat) (rs : List (Nat × Nat)) (rd wr : Bool) : State × Option Loc :=
  let r := (List.range Config.grantCount).foldl (fun (r : State × Option (List Nat)) i =>
    match r.2 with
    | some _ => r
    | none =>
      let q := fabricEntry r.1 part 4 i 32
      let e := (List.range 32).map (byteOf q.2)
      (q.1, if grantMatches e src ctx rs then some e else none)) (s, none)
  (r.1, r.2.bind fun e =>
    let f (k : Nat) := Config.fabricField 4 k e
    if (rd && f 4 % 2 == 0) || (wr && f 5 % 2 == 0) then none
    else some ⟨0, 0, 0, f 6 % 4, f 7 % 32, part, f 8 % 64⟩)

/-- Bytes read for a peer, each with the poison of its sector. -/
def peerRead (s : State) (l : Loc) (n : Nat) : State × List Nat :=
  ((sectorParts 0 (n / 32 + 2) l.addr n).foldl (fun (r : State × List Nat) p =>
    let q := homeRead r.1 { l with addr := p.2.1 } (s.owner l.part) p.2.2
    (q.1, r.2 ++ (ofBytes q.2.1).map fun b => if q.2.2 then b + 256 else b)) (s, []))

/-- Rows read one after the other. -/
def peerRows (s : State) (l : Loc) (rs : List (Nat × Nat)) : State × List Nat :=
  rs.foldl (fun (r : State × List Nat) x =>
    let q := peerRead r.1 { l with addr := x.1 } x.2
    (q.1, r.2 ++ q.2)) (s, [])

/-- The lanes of a peer's atomic, at the home location l. -/
def peerLanes (l : Loc) (ls : List (Nat × Nat × Nat)) : List LaneAtom :=
  ((List.range ls.length).zip ls).map fun x => ⟨x.1, { l with addr := x.2.1 }, 0, x.2.2.1, x.2.2.2, 0, false⟩

/-- An atomic of a peer: old values, marked where the location carries poison. -/
def peerAtomic (s : State) (l : Loc) (op kind half : Nat) (ls : List (Nat × Nat × Nat)) : State × List Nat :=
  (peerLanes l ls).foldl (fun (r : State × List Nat) a =>
    let q := homeFor r.1 a.loc (s.owner l.part) (kindSize kind)
    let x := (lineAt q.1 q.2).atom op kind half a
    ({ q.1 with l2 := tset q.1.l2 q.2 x.1 },
      r.2 ++ (natLe (kindSize kind) x.2.old).map fun b => if x.2.pois then 256 else b.toNat)) (s, [])

/-- Bytes written with their poison marker poison their sectors (R224). -/
def peerPoison (l : Loc) (bs : List (Nat × Nat)) (s : State) : State :=
  bs.foldl (fun s b => if marked b.2 then homePoison s { l with addr := b.1 } (s.owner l.part) 1 else s) s

/-- A granted access other than a request for a guard: status and data of the answer (R349). A guard request withdrawn (kind 6) leaves the
queue, and when it has been granted already the guard is released (R312). -/
def peerDo (s : State) (f : ReqFrame) (l : Loc) : State × Nat × List Nat :=
  let poisoned (bs : List Nat) : Nat := if bs.any marked then 2 else 0
  match f.op with
  | .read a n =>
    let r := peerRead s { l with addr := a } n
    (r.1, poisoned r.2, r.2)
  | .write bs => ((byteRuns (bs.map fun b => (b.1, BitVec.ofNat 8 b.2))).foldl (fun s r => homeWrite s { l with addr := r.1 } (s.owner l.part) r.2) s
      |> peerPoison l bs, 0, [])
  | .atomic op kind half ls none =>
    let r := peerAtomic s l op kind half ls
    (r.1, poisoned r.2, r.2)
  | .atomic op kind half ls (some src) =>
    match ls with
    | [] => (s, 0, [])
    | (a, _, _) :: _ =>
      let l := { l with addr := a / 128 * 128 }
      let r := homeLine s (homeSlice s l) (l.addr / 128) (s.owner l.part) (ctxpOf l)
      ({ holdRed r.1 (homeSlice s l) ⟨l, op, kind, half, peerLanes l ls, src, s.nextStamp, s.owner l.part, f.core, 0⟩ with
          nextStamp := s.nextStamp + 1 }, 0, [])
  | .tileRead rs =>
    let r := peerRows s l rs
    (r.1, poisoned r.2, r.2)
  | .tileWrite rs =>
    (rs.foldl (fun s r => peerPoison l (((List.range r.2.length).map (r.1 + ·)).zip r.2)
      (homeWrite s { l with addr := r.1 } (s.owner l.part) (toBytes r.2))) s, 0, [])
  | .guardOp kind a base len =>
    let l := { l with addr := a }
    let h := readHead s l
    if kind = 6 then
      match h.1.remotes.find? fun r => r.2.owner == 5 && r.2.peer == f.hdr.src && r.2.req == base with
      | some (k, r) => ({ h.1 with ops := tdel h.1.ops r.id, remotes := tdel h.1.remotes k }, 0, [])
      | none => (guardFreeAt h.1 l len, 0, [])
    else if gBad h.2 then (h.1, 3, [])
    else if kind = 2 ∨ kind = 3 then (guardFreeAt h.1 l (kind - 2), 0, [])
    else
      let r := tetherAt h.1 l (kind == 4) (base, len)
      (r.1, r.2, [])

/-- The unit of a peer's request: none of this package's. -/
def peerUnit : UnitId := ⟨4095, 0, 0, true⟩

/-- The guard a peer asks for, and in which mode. -/
def guardAsk : PeerOp → Option (Nat × Nat)
  | .guardOp k a _ _ => if k < 2 then some (a, k) else none
  | _ => none

/-- A granted access is performed and answered; a request for a guard waits at the guard's home slice (R185, R349). -/
def peerServe (s : State) (f : ReqFrame) (l : Loc) : State :=
  let answer (s : State) (status : Nat) (data : List Nat) : State :=
    sendFrame s l.part f.hdr.src (.rsp ⟨headTo s l.part l.ctx f.hdr.src f.num, f.ref, status, data⟩)
  match guardAsk f.op with
  | none =>
    let r := peerDo s f l
    answer r.1 r.2.1 r.2.2
  | some (a, mode) =>
    let l := { l with addr := a }
    let h := readHead s l
    if gBad h.2 then answer h.1 3 []
    else
      let id := h.1.nextOp
      let o : Op := ⟨peerUnit, l.part, l.ctx, 15, 0, 0, h.1.nextStamp, h.1.nextStamp, .guardReq a l mode 5 none, none, []⟩
      tryGrant { h.1 with
        ops := tset h.1.ops id o
        nextOp := id + 2
        nextStamp := h.1.nextStamp + 1
        remotes := tset h.1.remotes (id + 1) ⟨f.ref, f.hdr.src, false, f.num, l.part, 5, id, [], 0, false⟩ } id

/-- A request the package has performed already (R348): numbers up to half a turn back. -/
def reqOld (s : State) (f : ReqFrame) : Bool :=
  match tget s.reqSeen (f.hdr.src * 256 + f.core) with
  | some n => decide (32768 ≤ (f.num + 65535 - n) % 65536)
  | none => false

/-- A line of an access is locked by a tile (R154). -/
def rangesLocked (s : State) (l : Loc) (rs : List (Nat × Nat)) : Bool :=
  rs.any fun r => (linePieces r.1 (r.2 / 128 + 2) r.2).any fun p => lineLocked s { l with addr := p.1 }

/-- REQ_FRAME: a peer's access is checked against the grants and performed at its home slice, once (R348, R349). One whose line a
tile holds waits. -/
def execReqFrame (f : ReqFrame) (s : State) : Result :=
  let rs := peerRanges f.op
  let part := match rs.1 with
    | (a, _) :: _ => paPart s a
    | [] => none
  let g := match part with
    | some p => findGrant s p f.hdr.src f.hdr.ctx rs.1 rs.2.1 rs.2.2
    | none => (s, none)
  .next (
    if g.2.any fun l => rangesLocked s l rs.1 then stall s
    else
      frameIn s f.hdr false fun s =>
        if reqOld s f then s
        else
          let s := { s with reqSeen := tset s.reqSeen (f.hdr.src * 256 + f.core) f.num }
          match g.2 with
          | some l => peerServe s f l
          | none =>
            let p := part.getD (min (portPart s f.hdr.port) 7)
            sendFrame s p f.hdr.src (.rsp ⟨headTo s p f.hdr.ctx f.hdr.src f.num, f.ref, 1, []⟩))

/-! ## Answers of peers (R349) -/

/-- The cause code of an answer that failed. -/
def rspCode (status : Nat) : Option Nat :=
  if status = 0 ∨ status = 2 then none else if status = 1 then some 281 else if status = 3 then some 209 else some status

/-- Poison of some bytes of an answer: what it marks, or, where it marks none, all. -/
def rspBad (status : Nat) (data part : List Nat) : Bool := status == 2 && (part.any marked || !(data.any marked))

/-- A line request has its answer. -/
def landReq (s : State) (id status : Nat) (data : List Nat) : State :=
  let n := s.nextStamp
  let s := { s with nextStamp := n + 1 }
  match tget s.reqs id with
  | none => s
  | some r =>
    match rspCode status, r.kind with
    | some c, _ => modReq s id fun r => { r with stage := .failed c, stamp := n }
    | none, .load m =>
      let o := (sectorSpan m).1
      let d := ((List.range data.length).zip data).foldl (fun d x => lineSet d (o + x.1) (BitVec.ofNat 8 x.2)) (0 : LineData)
      let p := (List.range 4).foldl (fun x j =>
        if m / 2 ^ j % 2 = 1 ∧ rspBad status data ((data.drop (32 * j - o)).take 32) = true then x + 2 ^ j else x) 0
      modReq s id fun r => { r.did n with data := d, pois := BitVec.ofNat 4 p }
    | none, .store _ => modReq s id fun r => r.did n
    | none, .atomic op kind half as =>
      let k := kindSize kind
      let as := ((List.range as.length).zip as).map fun x =>
        let w := (data.drop (x.1 * k)).take k
        { x.2 with old := leNat (toBytes w), pois := rspBad status data w }
      modReq s id fun r => { r.did n with kind := .atomic op kind half as }
    | none, .reduce _ _ _ _ _ =>
      let s := if status = 2 then logRas s r.loc.part 76 r.core r.loc.addr r.loc.ctx else s
      modReq s id fun r => r.did n

/-- A tile has its answer. -/
def landPeerTile (s : State) (id status : Nat) (data : List Nat) : State :=
  match tget s.ops id with
  | none => s
  | some o =>
    match o.kind with
    | .tile store ps d scope _ =>
      let first := (ps.head?.map fun p => p.2.2).getD 0
      let done (s : State) (f : Option FaultRec) : State :=
        modOp s id fun o => { o with kind := .tile store ps d scope true, fault := f }
      match rspCode status with
      | some c => done s (some ⟨c, first, 0, 0, false⟩)
      | none =>
        if store then done s none
        else
          let bad := data.map fun b => rspBad status data [b]
          let pieceBad := (ps.foldl (fun (r : List Bool × List Bool) p =>
            (r.1 ++ [(r.2.take p.2.1).any (· == true)], r.2.drop p.2.1)) ([], bad)).1
          done (landTile s o (toBytes data) bad)
            (((ps.zip pieceBad).find? fun p => p.2).map fun p => ⟨76, p.1.2.2, 0, 0, false⟩)
    | _ => s

/-- The tethers an answer carries, as pairs. -/
def pairsOf : List Nat → List (Nat × Nat)
  | a :: b :: rest => (a, b) :: pairsOf rest
  | _ => []

/-- A guard request of ours has its answer. -/
def landGuard (s : State) (id status : Nat) (data : List Nat) : State :=
  match rspCode status, (tget s.ops id).map Op.kind with
  | none, some (.guardReq va l m sc _) => modOp s id fun o => { o with kind := .guardReq va l m sc (some (pairsOf data)) }
  | some c, some (.guardReq va _ _ _ _) => endOp (modOp s id fun o => { o with fault := some ⟨c, va, 0, 0, false⟩ }) id
  | some c, some _ => endOp (modOp s id fun o => { o with fault := some ⟨c, 0, 0, 0, false⟩ }) id
  | none, some _ => endOp s id
  | _, none => s

/-- What waits on an access has its answer. -/
def landRsp (s : State) (ref : Nat) (m : Remote) (status : Nat) (data : List Nat) : State :=
  let gone := { s with remotes := tdel s.remotes ref }
  if m.owner = 0 then landReq gone m.id status data
  else if m.owner = 1 then landPeerTile gone m.id status data
  else if m.owner = 4 then landGuard gone m.id status data
  else if m.owner = 7 then gone
  else
    { s with remotes := tset s.remotes ref { m with
        answered := true
        status := if status = 2 then 76 else (rspCode status).getD 0
        data := data.map (· % 256) } }

/-- RSP_FRAME: the answer completes or fails the access (R349). -/
def execRspFrame (f : RspFrame) (s : State) : Result :=
  .next (frameIn s f.hdr false fun s =>
    match tget s.remotes f.ref with
    | none => s
    | some m => if m.host || m.peer != f.hdr.src || m.answered || m.owner == 5 then s else landRsp s f.ref m f.status f.data)

/-- Every access that waits on a package fails with 280 (R348, R349, R392). -/
def failPeer (s : State) (pkg : Nat) : State :=
  (s.remotes.filter fun m => !m.2.host && m.2.peer == pkg && !m.2.answered && m.2.owner != 5).foldl
    (fun s m => landRsp s m.1 m.2 280 []) s

/-! ## Forwarding queues (R268, R350 to R354) -/

/-- A binding entry breaks its layout. -/
def bindBad (e : Nat) : Bool :=
  fld e 45 147 != 0 || fld e 2 7 != 0 || decide (23 < fld e 40 5) ||
    (if fld e 1 1 = 0 then fld e 9 8 == 0 else fld e 9 8 != 0)

/-- The context whose tables translate a queue's address: that of the resident graph that names it (log 11). -/
def queueCtx (s : State) (part va : Nat) : Nat :=
  match s.graphs.find? fun g => g.2.part == part && inList va g.2.queues with
  | some (_, g) => g.ctx
  | none => 0

/-- One entry of a port's binding table: the entry, its queue and the queue's descriptor, when hardware acts on it. -/
def binding (s : State) (p idx : Nat) : State × Option (Nat × Loc × Nat) :=
  let part := portPart s p
  if 8 ≤ part then (s, none)
  else
    let r := fabricEntry s part 1 (p * 64 + idx) 32
    let e := r.2
    if e % 2 = 0 then (r.1, none)
    else if bindBad e then (logRas r.1 part 363 p 0 63, none)
    else
      let va := fld e 192 64
      let q := ctxLoc r.1 part (queueCtx s part va) va
      match q.2 with
      | some l =>
        let d := readDesc q.1 l
        if l.kind ≠ 0 ∨ qKind d.2 ≠ (if fld e 1 1 = 0 then 2 else 0) then (logRas d.1 part 363 p 0 63, none)
        else (d.1, some (e, l, d.2))
      | none => (logRas q.1 part 363 p 0 63, none)

def bindSend (e : Nat) : Bool := fld e 1 1 == 0
def bindPeer (e : Nat) : Nat := fld e 17 17
def bindIdx (e : Nat) : Nat := fld e 34 6
def bindPort (e : Nat) : Nat := fld e 40 5
def bindW (e : Nat) : Nat := fld e 9 8

/-- Every binding of a port: index with entry, queue and descriptor. -/
def bindings (s : State) (p : Nat) : State × List (Nat × Nat × Loc × Nat) :=
  (List.range 64).foldl (fun (r : State × List (Nat × Nat × Loc × Nat)) i =>
    let q := binding r.1 p i
    (q.1, match q.2 with
      | some b => r.2 ++ [(i, b)]
      | none => r.2)) (s, [])

/-- A binding is lost (R354). -/
def loseBinding (s : State) (p idx : Nat) : State :=
  logRas (s.modPort p fun q => { q with lost := addOnce idx q.lost, bRemote := tdel q.bRemote idx }) (portPart s p) 288 p 0 63

/-- The port takes note of which send entries are valid: B_remote is 0 from the moment one becomes so, and a binding whose V is
cleared is lost until it is set again (R268, R354). -/
def noteBindings (s : State) (p : Nat) (bs : List (Nat × Nat × Loc × Nat)) : State :=
  (List.range 64).foldl (fun s i =>
    let now := bs.any fun b => b.1 == i && bindSend b.2.1
    let was := (tget (s.port p).bRemote i).isSome
    if now then
      if was || inList i (s.port p).lost then s else s.modPort p fun q => { q with bRemote := tset q.bRemote i 0 }
    else if was then
      (loseBinding s p i).modPort p fun q => { q with lost := q.lost.filter (· != i), closed := q.closed.filter (· != i) }
    else if bs.any fun b => b.1 == i then s
    else s.modPort p fun q => { q with lost := q.lost.filter (· != i), closed := q.closed.filter (· != i) }) s

/-- The differential of a send entry (R268). -/
def bindDiff (s : State) (p : Nat) (b : Nat × Nat × Loc × Nat) : Int :=
  let d := b.2.2.2
  let here : Nat := if qWen d then (wget s.wport (qWslot d)).toNat else min (qBacklog d) 0xFFFFFF
  sat32 ((bindW b.2.1 : Int) * ((here : Int) - (((tget (s.port p).bRemote b.1).getD 0 : Nat) : Int)))

/-- The send entry of greatest positive differential, the lowest index first. -/
def bindBest (s : State) (p : Nat) (bs : List (Nat × Nat × Loc × Nat)) : Option (Nat × Nat × Loc × Nat) :=
  bs.foldl (fun m b =>
    let d := bindDiff s p b
    if d ≤ 0 then m
    else
      match m with
      | some x => if bindDiff s p x < d then some b else m
      | none => some b) none

/-- A frame of a binding. -/
def fwdFrom (s : State) (p : Nat) (b : Nat × Nat × Loc × Nat) (close : Bool) (recs : List (List Nat)) : State :=
  let e := b.2.1
  let l := b.2.2.1
  sendFrame s (portPart s p) (bindPeer e)
    (.fwd ⟨headTo s l.part l.ctx (bindPeer e) (bindIdx e + bindPort e * 256), close, 0, recs⟩)

/-- PORT_FRAME_TIME: a close mark that is due goes first; else the queue of greatest positive differential is served
(R268, R352, R353). -/
def execPortFrameTime (port : Nat) (s : State) : Result :=
  .next (
    if s.phase ≠ .ready ∨ (s.port port).up = false ∨ 24 ≤ port then s
    else
      let r := bindings s port
      let s := noteBindings r.1 port r.2
      let live := r.2.filter fun b =>
        bindSend b.2.1 && !inList b.1 (s.port port).lost && !(routesTo s (portPart s port) (bindPeer b.2.1)).2.isEmpty
      match live.find? fun b => qClosed b.2.2.2 && qEmpty b.2.2.2 && !inList b.1 (s.port port).closed with
      | some b => fwdFrom (s.modPort port fun q => { q with closed := addOnce b.1 q.closed }) port b true []
      | none =>
        match bindBest s port live with
        | none => s
        | some b =>
          let x := dequeue s b.2.2.1 (1024 / qRec b.2.2.2)
          if x.2.1.isEmpty then x.1 else fwdFrom x.1 port b false (x.2.1.map ofBytes))

/-- Records of a binding held in a frame store. -/
def heldCount (s : State) (p idx : Nat) : Nat :=
  ((s.port p).store.filter fun f => f.pidx == idx).foldl (fun n f => n + f.recs.length) 0

/-- Records of one frame enter the receiving queue: those left over, and whether the queue is closed (R352, R354). -/
def takeFrame (s : State) (q : Loc) (recs : List (List Nat)) : State × List (List Nat) × Bool :=
  if recs.isEmpty then (s, [], false)
  else
    let r := enqueue s q false (recs.map toBytes)
    if r.2.2 = 3 then (r.1, [], true) else (r.1, recs.drop r.2.1, false)

/-- The records a closed queue gives up (R354). -/
def discardHeld (s : State) (p idx : Nat) (va : Nat) : State :=
  let n := ((s.port p).store.filter fun f => f.pidx == idx && !f.recs.isEmpty).length
  (List.range n).foldl (fun s _ => logRas s (portPart s p) 289 p va 63)
    (s.modPort p fun q => { q with store := q.store.filter fun f => f.pidx != idx })

/-- A frame of a binding is taken in behind what is held of it: records as one ENQ, a close mark as a close; what finds no room,
or no valid entry, is held (R352 to R354). -/
def fwdTake (s : State) (p : Nat) (h : HeldFrame) : State :=
  let hold (s : State) (h : HeldFrame) : State := s.modPort p fun q => { q with store := q.store ++ [h] }
  let b := binding s p h.pidx
  let s := b.1
  match b.2 with
  | none => hold s h
  | some (e, q, d) =>
    if bindSend e then hold s h
    else if (s.port p).store.any fun f => f.pidx == h.pidx then
      if qClosed d then (if h.recs.isEmpty then s else logRas (discardHeld s p h.pidx (fld e 192 64)) (portPart s p) 289 p (fld e 192 64) 63)
      else hold s h
    else
      let r := takeFrame s q h.recs
      if r.2.2 then logRas r.1 (portPart s p) 289 p (fld e 192 64) 63
      else if r.2.1.isEmpty then (if h.close then closeQueue r.1 q else r.1)
      else hold r.1 { h with recs := r.2.1 }

/-- FWD_FRAME (R352 to R354): a full frame store refuses it busy. -/
def execFwdFrame (f : FwdFrame) (s : State) : Result :=
  let p := f.hdr.tag / 256 % 32
  .next (
    if f.rsvHi ≠ 0 then frameIn s { f.hdr with rsv := 1 } false id
    else frameIn s f.hdr (decide (256 ≤ (s.port p).store.length)) fun s =>
      fwdTake s p ⟨f.hdr.tag % 64, f.hdr.src, f.close, f.recs⟩)

/-- HELD_RECORDS_MOVE: held records of a binding enter its queue, in order, as room appears (R354). -/
def execHeldRecordsMove (port idx : Nat) (s : State) : Result :=
  .next (match (s.port port).store.find? fun f => f.pidx == idx with
    | none => s
    | some h =>
      let b := binding s port idx
      match b.2 with
      | none => b.1
      | some (e, q, _) =>
        if bindSend e then b.1
        else
          let s := b.1
          let r := takeFrame s q h.recs
          let rest := (s.port port).store.erase h
          if r.2.2 then discardHeld r.1 port idx (fld e 192 64)
          else if r.2.1.isEmpty then
            let s := r.1.modPort port fun x => { x with store := rest }
            if h.close then closeQueue s q else s
          else r.1.modPort port fun x => { x with store := x.store.map fun f => if f = h then { h with recs := r.2.1 } else f })

/-- SUM_TIMER: the backlogs of a port's receiving queues go to each partner of a valid receive entry (R351). -/
def execSumTimer (port : Nat) (s : State) : Result :=
  .next (
    if s.phase ≠ .ready ∨ (s.port port).up = false ∨ 24 ≤ port then s
    else
      let r := bindings s port
      let s := r.1
      let recv := r.2.filter fun b => !bindSend b.2.1
      let logs := (List.range 64).map fun i =>
        match recv.find? fun b => b.1 == i with
        | some b => min (qBacklog b.2.2.2 + heldCount s port i) 0xFFFFFF
        | none => 0
      ((recv.map fun b => bindPeer b.2.1).eraseDups).foldl (fun s pkg =>
        sendFrame s (portPart s port) pkg (.sum ⟨headTo s (portPart s port) 0 pkg port, logs⟩)) s)

/-- SUM_FRAME: every send entry to the frame's source and port takes the backlog in its slot (R351). -/
def execSumFrame (f : SumFrame) (s : State) : Result :=
  .next (frameIn s f.hdr false fun s =>
    (List.range 24).foldl (fun s p =>
      let r := bindings s p
      let s := noteBindings r.1 p r.2
      r.2.foldl (fun s b =>
        if bindSend b.2.1 && bindPeer b.2.1 == f.hdr.src && bindPort b.2.1 == f.hdr.tag % 32 && (tget (s.port p).bRemote b.1).isSome then
          s.modPort p fun q => { q with bRemote := tset q.bRemote b.1 (f.backlogs.getD (bindIdx b.2.1) 0 % 2 ^ 24) }
        else s) s) s)

/-- Every binding to a package is lost (R354, R392). -/
def loseBindings (s : State) (pkg : Nat) : State :=
  (List.range 24).foldl (fun s p =>
    let r := bindings s p
    r.2.foldl (fun s b => if bindPeer b.2.1 = pkg then loseBinding s p b.1 else s) (noteBindings r.1 p r.2)) s

end Sys2Proof.Machine
end

