-- ==== Sys2Proof/Machine/Command.lean ====
section
/-! DEFINITION. What the ostler does for every packet: addresses of a queue's context, accesses with their answers, the level
stack, fetch-ahead, queue errors (R323, R330 to R336, R341, R342). -/

namespace Sys2Proof.Machine

/-! ## Addresses of a context (R323, R330) -/

/-- A range of a context checked page by page: its pieces, or the code of the first page that fails. -/
def ctxRange (s : State) (part ctx va n : Nat) (need : Need) : State × Option Nat × List (Loc × Nat) :=
  if !(canonical va && canonical (va + n - 1)) then (s, some 64, [])
  else
    (pageStarts va n).foldl (fun (r : State × Option Nat × List (Loc × Nat)) a =>
      match r.2.1 with
      | some _ => r
      | none =>
        let w := walk r.1 part ctx 0 a
        match w.2 with
        | none => (w.1, some 64, r.2.2)
        | some (e, b) =>
          let c := checkLeaf w.1 part ctx e b a need
          match c.2 with
          | .ok l => (c.1, none, r.2.2 ++ [(l, min (va + n) (a / 65536 * 65536 + 65536) - a)])
          | .bad k => (c.1, some k, r.2.2)
          | .wait => (c.1, some 64, r.2.2)) (s, none, [])

/-- The core number of the ostler's own requests to peers. -/
def ostlerCore : Nat := 255

/-- Bytes written through the pieces of a range: here at once, at a peer or host by an access that `owner` and `id` wait for. -/
def writePieces (s : State) (ps : List (Loc × Nat)) (owner id : Nat) (bs : List Byte) : State :=
  (ps.foldl (fun (r : State × List Byte) p =>
    let now := r.2.take p.2
    let l := p.1
    (if l.kind = 0 then homeWrite r.1 l (r.1.owner l.part) now
     else if l.kind = 1 then
       sendPeer r.1 l.part l.ctx ostlerCore l.dest owner id (.write (((List.range now.length).map (l.addr + ·)).zip (ofBytes now)))
     else sendHost r.1 l owner id (some now) now.length, r.2.drop p.2)) (s, bs)).1

/-- A write of a context that nothing waits for: what does not translate is dropped. -/
def ctxWrite (s : State) (part ctx va : Nat) (bs : List Byte) : State :=
  let r := ctxRange s part ctx va bs.length ⟨false, true, false⟩
  match r.2.1 with
  | none =>
    let s := writePieces r.1 r.2.2 7 0 bs
    { s with remotes := s.remotes.filter fun m => !(m.2.host && m.2.owner == 7) }
  | some _ => r.1

/-- A value at its home as it stands, with nothing pending applied: what a watch sees (R338). -/
def peekByte (s : State) (l : Loc) (own : Nat) : Byte × Bool :=
  match findWay s (homeSlice s l) (l.addr / 128) with
  | some k =>
    let x := lineAt s k
    if x.own = own then (lineByte x.data (l.addr % 128), x.bad (l.addr % 128) 1) else (hbmByte s own l.addr, false)
  | none => (hbmByte s own l.addr, inList (l.addr / 32) s.memPois)

def peekNat (s : State) (l : Loc) (own n : Nat) : Nat × Bool :=
  let bs := (List.range n).map fun i => peekByte s { l with addr := l.addr + i } own
  (leNat (bs.map Prod.fst), bs.any Prod.snd)

/-! ## Queues -/

def State.modWq (s : State) (q : Nat) (f : WorkQueue → WorkQueue) : State := { s with wqs := tset s.wqs q (f (s.wq q)) }

/-- The depth of the innermost level: 0 for the stream. -/
def WorkQueue.depth (w : WorkQueue) : Nat := w.levels.length - 1

/-- Where the next packet lies. -/
def WorkQueue.here (w : WorkQueue) : Nat :=
  match w.levels with
  | l :: _ => l.base + l.pos
  | [] => 0

/-- Bytes of the innermost level from the next packet on: up to TAIL in the stream, to the end of a buffer or body. -/
def WorkQueue.left (w : WorkQueue) : Nat :=
  match w.levels with
  | [_] => w.tail - w.headp
  | l :: _ => l.len - l.pos
  | [] => 0

/-- A queue that may run a packet, or go on with one (R330, R343). -/
def wqLive (s : State) (q : Nat) : Bool :=
  s.phase == .ready && s.ostler && (s.wq q).en && decide (2 ≤ (s.wq q).state) && decide ((s.wq q).state ≤ 4)

/-- An event record (R340, R342). -/
def eventBytes (s : State) (q kind arg : Nat) : List Byte :=
  natLe 16 (q % 65536 + kind % 256 * 2 ^ 16 + arg % 2 ^ 32 * 2 ^ 32 + s.clock % 2 ^ 64 * 2 ^ 64)

/-- An event record written with nothing waiting for it. -/
def postEvent (s : State) (q kind arg : Nat) : State :=
  let w := s.wq q
  if w.evt = 0 then s
  else (ctxWrite s w.part w.ctx (w.evt + 16 * w.evidx) (eventBytes s q kind arg)).modWq q fun w => { w with evidx := (w.evidx + 1) % 256 }

/-- The accesses of a queue's packet to peers and hosts are forgotten. -/
def dropRemotes (s : State) (q : Nat) : State :=
  { s with remotes := s.remotes.filter fun m => !(m.2.owner == 3 && m.2.id == q) }

/-- A packet breaks a rule: the queue stops at it (R342). -/
def wqError (s : State) (q err ecode : Nat) : State :=
  let s := (dropRemotes s q).modWq q fun w => { w with
    state := 5, err := err, ecode := ecode, erradr := w.here, wait := .none, busy := false, step := 0 }
  postEvent s q 1 (ecode * 256 + err)

/-- Levels that have ended return; a LOOP with passes left begins again (R336). -/
def popLevels : Nat → WorkQueue → WorkQueue
  | 0, w => w
  | n + 1, w =>
    match w.levels with
    | l :: l' :: ls =>
      if l.pos < l.len then w
      else if l.kind = 2 ∧ 1 < l.passes then { w with levels := { l with pos := 0, passes := l.passes - 1 } :: l' :: ls, skip := 0 }
      else
        popLevels n { w with
          levels := { l' with pos := l'.pos + l.ret } :: ls
          headp := if ls.isEmpty then w.headp + l.ret else w.headp
          lines := w.lines.filter fun x => x.level != ls.length + 1
          skip := 0 }
    | _ => w

/-- The innermost level moves on by n bytes. -/
def WorkQueue.advance (w : WorkQueue) (n : Nat) : WorkQueue :=
  match w.levels with
  | [l] => { w with levels := [{ l with pos := l.pos + n }], headp := w.headp + n }
  | l :: ls => popLevels 5 { w with levels := { l with pos := l.pos + n } :: ls }
  | [] => w

/-- Nothing is under way: the queue stops when it was asked to, is idle at its tail, or runs on (R332, R345). -/
def WorkQueue.rest (w : WorkQueue) : WorkQueue :=
  { w with
    state := if w.stopReq then 6 else if w.levels.length = 1 ∧ w.headp = w.tail then 1 else 2
    stopReq := false, wait := .none, busy := false, step := 0 }

/-- A packet of n bytes is complete. -/
def wqDone (s : State) (q n : Nat) : State := (dropRemotes s q).modWq q fun w => (w.advance n).rest

/-- A packet goes on later: it waits for something, and a switch waits for it when `busy`. -/
def wqHold (s : State) (q state : Nat) (wait : WqWait) (busy : Bool) (step : Nat) : State :=
  s.modWq q fun w =>
    if w.stopReq ∧ busy = false then
      { w with
        state := 6, paused := if state = 3 then 2 else state, wait := if state = 3 then .none else wait
        busy := false, step := step, stopReq := false }
    else { w with state := state, wait := wait, busy := busy, step := step }

/-- An access of a queue that waits. -/
def ofQueue (q : Nat) (m : Nat × Remote) : Bool := m.2.owner == 3 && m.2.id == q

/-- Some peer has not answered yet. -/
def remoteLeft (s : State) (q : Nat) : Bool := s.remotes.any fun m => ofQueue q m && !m.2.host && !m.2.answered

/-- The answers of a queue's accesses: 0 or a cause code, and the bytes read. What a host sends is not known here. -/
def remoteGot (s : State) (q : Nat) : Nat × List Byte :=
  let rs := s.remotes.filter (ofQueue q)
  let host := if rs.any (fun m => m.2.host && !m.2.answered) && Config.freeChoice s.fresh 1 % 2 == 1 then 305 else 0
  (((rs.map fun m => m.2.status).find? (· != 0)).getD host,
    rs.flatMap fun m =>
      if m.2.answered then toBytes m.2.data else (List.range 64).map fun i => (Config.freeWord s.fresh (m.1 * 64 + i)).truncate 8)

/-- Go on once every access of the packet has its answer: a failed one stops the queue (R335, R342). -/
def wqAnswered (s : State) (q : Nat) (k : List Byte → State → State) : State :=
  if remoteLeft s q then s
  else
    let r := remoteGot s q
    if r.1 = 0 then k r.2 (dropRemotes s q) else wqError s q 3 r.1

/-- A packet whose writes have been sent is complete once they are acknowledged. -/
def wqWritten (s : State) (q n : Nat) : State :=
  if s.remotes.any (ofQueue q) then wqHold s q (s.wq q).state .remote true 1 else wqDone s q n

/-! ## Fetching commands (R330, R332, R336, R341) -/

/-- What a fetch gives. -/
inductive LineGot where
  | ok
  | wait
  | bad (err code : Nat)
deriving DecidableEq, Repr

/-- Bytes of a line at level d that hold commands: in the stream those below TAIL. -/
def lineLimit (w : WorkQueue) (d line : Nat) : Nat :=
  if d = 0 then
    match w.levels.getLast? with
    | some l => min 64 (l.base + l.pos + (w.tail - w.headp) - line * 64)
    | none => 0
  else 64

/-- A line enters the level's buffer. -/
def storeLine (s : State) (q d line : Nat) (bs : List Byte) (pois : Nat) : State :=
  s.modWq q fun w => { w with
    lines := (w.lines.filter fun x => !(x.level == d && x.line == line)) ++ [⟨d, line, bs, pois⟩] }

/-- What a fetch from a peer or host is known by: queue, level, line, and the bytes asked for. -/
def fetchId (q d line n : Nat) : Nat := ((line * 8 + d) * 65 + n) * 8192 + q

/-- A line is read at its home, or asked of a peer or host; of the stream only what lies below TAIL when it is asked for (R332). -/
def fetchLine (s : State) (q d line : Nat) : State × LineGot :=
  let w := s.wq q
  let n := lineLimit w d line
  let r := ctxRange s w.part w.ctx (line * 64) 64 ⟨true, false, false⟩
  match r.2.1, r.2.2 with
  | some c, _ => (r.1, .bad 3 c)
  | none, (l, _) :: _ =>
    if n = 0 then (r.1, .wait)
    else if l.kind = 0 then
      let x := homeRead r.1 l (r.1.owner l.part) n
      (storeLine x.1 q d line x.2.1 (if x.2.2 then 68 else 0), .ok)
    else
      match r.1.remotes.find? fun m => m.2.owner == 8 && m.2.id / (65 * 8192) == line * 8 + d && m.2.id % 8192 == q with
      | none =>
        (if l.kind = 1 then sendPeer r.1 l.part l.ctx ostlerCore l.dest 8 (fetchId q d line n) (.read l.addr n)
         else sendHost r.1 l 8 (fetchId q d line n) none n, .wait)
      | some (ref, m) =>
        if !m.host && !m.answered then (r.1, .wait)
        else
          let s := { r.1 with remotes := tdel r.1.remotes ref }
          let st := if m.answered then m.status else if Config.freeChoice s.fresh 1 % 2 = 1 then 305 else 0
          if st = 76 then (storeLine s q d line (toBytes m.data) 76, .ok)
          else if st ≠ 0 then (s, .bad 3 st)
          else
            (storeLine s q d line
              (if m.answered then toBytes m.data
               else (List.range (m.id / 8192 % 65)).map fun i => (Config.freeWord s.fresh i).truncate 8) 0, .ok)
  | none, [] => (r.1, .wait)

/-- The line holds its bytes up to n. -/
def heldLine (w : WorkQueue) (d line n : Nat) : Option FetchedLine :=
  w.lines.find? fun x => x.level == d && x.line == line && decide (n ≤ x.bytes.length)

/-- The lines of [a, a + n) are held; poison in one is an error. -/
def needLines (s : State) (q d a n : Nat) : List Nat → State × LineGot
  | [] => (s, .ok)
  | line :: ls =>
    let upto := min 64 (a + n - line * 64)
    match heldLine (s.wq q) d line upto with
    | some x => if x.pois = 0 then needLines s q d a n ls else (s, .bad 7 x.pois)
    | none =>
      let r := fetchLine s q d line
      match r.2 with
      | .ok =>
        match heldLine (r.1.wq q) d line upto with
        | some x => if x.pois = 0 then needLines r.1 q d a n ls else (r.1, .bad 7 x.pois)
        | none => (r.1, .wait)
      | .wait => (r.1, .wait)
      | .bad e c => (r.1, .bad e c)

/-- n bytes of commands at a, from lines that are held. -/
def commandBytes (w : WorkQueue) (d a n : Nat) : List Byte :=
  (List.range n).map fun i =>
    match heldLine w d ((a + i) / 64) ((a + i) % 64 + 1) with
    | some x => x.bytes.getD ((a + i) % 64) 0
    | none => 0

/-- The line numbers of [a, a + n). -/
def lineNumbers (a n : Nat) : List Nat := (List.range ((a + n - 1) / 64 + 1 - a / 64)).map (a / 64 + ·)

/-- The stream is known to run on from byte a into a line: the packets on the way are held, and none of them is a LINK that ends before it
(R333). -/
def runsInto (w : WorkQueue) (line : Nat) : Nat → Nat → Bool
  | 0, _ => false
  | fuel + 1, a =>
    if line ≤ a / 64 then true
    else if (heldLine w 0 (a / 64) (a % 64 + 8)).isNone then false
    else
      let h := leNat (commandBytes w 0 a 8)
      let e := a + 8 * fld h 16 8
      if fld h 16 8 = 0 then false
      else if line * 64 < e then true
      else if fld h 0 8 = 9 then false
      else runsInto w line fuel e

/-- COMMAND_LINE_FETCH: a line of the innermost level, up to 256 bytes beyond the packet that runs, is fetched ahead (R341); of the stream
none that follows a LINK in its segment (R333). -/
def execCommandLineFetch (q level line : Nat) (s : State) : Result :=
  let w := s.wq q
  .next (
    match w.levels with
    | l :: _ =>
      if wqLive s q && level == w.depth && w.here / 64 ≤ line && line * 64 ≤ w.here + 256 &&
          decide (line * 64 < min (w.here + w.left) (l.base + l.len)) &&
          (heldLine w level line (lineLimit w level line)).isNone && (level != 0 || runsInto w line 64 w.here) then
        match fetchLine s q level line with
        | (s', .ok) => s'
        | (s', .wait) => s'
        | (_, .bad _ _) => s
      else s
    | [] => s)

/-- The skip count of a WQ_RESUME with SKIP: one packet, whatever it is (R345). -/
def resumeSkip : Nat := 2 ^ 40

/-- What comes next on a queue. -/
inductive Next where
  /-- nothing yet -/
  | wait
  /-- the stream or buffer breaks a rule -/
  | bad (err code : Nat)
  /-- a packet that is passed over, of so many bytes -/
  | pass (n : Nat)
  /-- a packet: its OP and fields -/
  | run (op : Nat) (p : Pkt)
deriving DecidableEq, Repr

/-- The next packet of a queue, fetched and taken apart (R332, R334, R336, R338). -/
def nextPacket (s : State) (q : Nat) : State × Next :=
  let w := s.wq q
  match w.levels with
  | [] => (s, .wait)
  | l :: _ =>
    let d := w.depth
    let a := w.here
    if w.left < 8 then (s, if d = 0 then .wait else .bad 6 0)
    else if l.len < l.pos + 8 then (s, .bad 6 0)
    else
      let r := needLines s q d a 8 (lineNumbers a 8)
      match r.2 with
      | .wait => (r.1, .wait)
      | .bad e c => (r.1, .bad e c)
      | .ok =>
        let h := leNat (commandBytes (r.1.wq q) d a 8)
        let op := fld h 0 8
        let len := fld h 16 8
        if w.skip ≠ 0 ∧ (op ≠ 9 ∨ w.skip = resumeSkip) ∧ len ≠ 0 then (r.1, .pass (8 * len + if op = 6 then 8 * fld h 32 32 else 0))
        else if fld h 24 8 ≠ 0 ∨ 12 < op then (r.1, .bad 1 0)
        else if len = 0 then (r.1, .bad 2 0)
        else if l.len < l.pos + 8 * len then (r.1, .bad 6 0)
        else if w.left < 8 * len then (r.1, .wait)
        else
          let r := needLines r.1 q d a (8 * len) (lineNumbers a (8 * len))
          match r.2 with
          | .wait => (r.1, .wait)
          | .bad e c => (r.1, .bad e c)
          | .ok =>
            let bs := commandBytes (r.1.wq q) d a (8 * len)
            (r.1, .run op ⟨q, fld h 8 8, fld h 32 32, len, (List.range (len - 1)).map fun i => quad bs (8 * i + 8)⟩)

/-- A packet is passed over (R338); one whose end is not there yet waits for TAIL. -/
def passPacket (s : State) (q n : Nat) : State :=
  let w := s.wq q
  match w.levels with
  | [] => s
  | l :: _ =>
    if l.len < l.pos + n then (if w.depth = 0 then wqError s q 6 0 else s.modWq q fun w => { w.advance (l.len - l.pos) with skip := 0 }.rest)
    else if w.left < n then s
    else s.modWq q fun w => { w.advance n with skip := if w.skip = resumeSkip then 0 else (w.advance n).skip - 1 }.rest

end Sys2Proof.Machine
end

