-- ==== Sys2Proof/Machine/Collect.lean ====
section
/-! DEFINITION. Multicast at its members, collectives, and packages that cannot be reached (R228, R229, R348, R355 to R360,
R392). -/

namespace Sys2Proof.Machine

/-! ## Multicast at a member (R356, R357) -/

/-- The open registration of a sender's group: its partition and entry. -/
def findRegistration (s : State) (src gid : Nat) : State × Option (Nat × Nat) :=
  ((List.range 8).filter fun p => partV (s.part p)).foldl (fun (r : State × Option (Nat × Nat)) p =>
    (List.range 4096).foldl (fun (r : State × Option (Nat × Nat)) i =>
      match r.2 with
      | some _ => r
      | none =>
        let q := fabricEntry r.1 p 3 i 32
        let e := q.2
        (q.1, if e % 2 = 1 ∧ fld e 240 16 = gid ∧ fld e 223 17 = src ∧ fld e 214 3 = p ∧ fld e 1 151 = 0 then some (p, e) else none)) r)
    (s, none)

/-- The answer of a member to a payload. -/
inductive Answer where
  | ack
  | refuse
  | neg
deriving DecidableEq, Repr

/-- A whole payload reaches the block its registration names: lookup, busy test, write and IN in one step (R200, R357). -/
def mcastDeliver (s : State) (p e : Nat) (data : List Nat) : State × Answer :=
  let key := fld e 206 8 * 16 + fld e 202 4
  let boff := fld e 182 20
  let aoff := fld e 152 20
  let n := data.length
  match tget s.blocks key with
  | none => (s, .neg)
  | some b =>
    if b.part ≠ p ∨ b.ctx ≠ fld e 217 6 ∨ b.retired = true ∨ b.aside = true ∨ (fld e 172 10 + 1) * 16 < n ∨
        winOk b boff n = false ∨ winOk b aoff 16 = false then (s, .neg)
    else
      match objectAt s key aoff with
      | none => (s, .neg)
      | some x =>
        if aoBusy x then (s, .refuse)
        else
          let os := winOffsets b boff n
          let s := (os.zip (toBytes data)).foldl (fun s y => putLocal s 0 (key / 16) (s.owner p) y.1 [y.2]) s
          (updateObject s key aoff fun x => (objectTake x n 0).getD x, .ack)

/-- MCD_FRAME: the frames of a payload gather; the last has it delivered and answered (R356, R357). -/
def execMcdFrame (f : McdFrame) (s : State) : Result :=
  .next (frameIn s f.hdr false fun s =>
    let mine (m : McastIn) : Bool := m.src == f.hdr.src && m.core == f.core && m.bslot == f.bslot && m.ticket == f.hdr.tag
    let m := match s.mcastIn.find? mine with
      | some m => { m with data := m.data ++ f.data }
      | none => ⟨f.hdr.src, f.core, f.bslot, f.hdr.tag, f.gid, f.mask, f.data⟩
    let rest := s.mcastIn.filter fun m => !mine m
    if !f.last then { s with mcastIn := rest ++ [m] }
    else
      let r := findRegistration { s with mcastIn := rest } m.src m.gid
      let d := match r.2 with
        | some (p, e) => mcastDeliver r.1 p e (m.data.map (· % 256))
        | none => (r.1, .neg)
      let part := min (portPart s f.hdr.port) 7
      sendFrame d.1 part m.src (.mcr ⟨headTo d.1 part f.hdr.ctx m.src m.ticket, m.core, m.bslot,
        if d.2 = .ack then m.mask else 0, if d.2 = .refuse then m.mask else 0, if d.2 = .neg then m.mask else 0⟩))

/-- Responses to a send of a block, by ticket. -/
def mcastHear (s : State) (core bslot ticket ack refuse neg : Nat) : State :=
  match s.jobs.find? fun j => j.2.cmd == 3 && j.2.unit.core == core && j.2.unit.bslot == bslot && j.2.ticket == ticket with
  | some (id, _) => mcastAnswer s id ack refuse neg
  | none => s

/-- MCR_FRAME: the masks are ORed into the sender's record (R229, R356). -/
def execMcrFrame (f : McrFrame) (s : State) : Result :=
  .next (frameIn s f.hdr false fun s => mcastHear s f.core f.bslot f.hdr.tag f.ack f.refuse f.neg)

/-- The members of pending sends that are a package answer negative (R356). -/
def mcastLost (s : State) (pkg : Nat) : State :=
  (s.jobs.filter fun j => j.2.cmd == 3 && j.2.sent).foldl (fun s j =>
    mcastAnswer s j.1 0 0 ((List.range j.2.members.length).foldl (fun x m =>
      if j.2.members.getD m 0 = pkg then x + 2 ^ m else x) 0)) s

/-! ## Collectives (R358 to R360) -/

/-- Bytes of an element, and its format. -/
def collSize (fmt : Nat) : Nat := if fmt = 0 ∨ fmt = 4 then 4 else if fmt = 3 then 8 else 2
def collFmt (fmt : Nat) : FF := if fmt = 0 then ffF32 else if fmt = 1 then ffBF16 else if fmt = 2 then ffF16 else ffF64

/-- A command record breaks R358; mems are the group's members, self the package's identity. -/
def collBad (r : Nat) (mems : List Nat) (self : Nat) : Bool :=
  let op := fld r 352 4
  let fmt := fld r 356 4
  let eop := fld r 360 2
  let rank := fld r 304 9
  fld r 448 64 != 0 || fld r 0 64 != 0 || fld r 362 22 != 0 || fld r 316 4 != 0 || decide (3 < op) || decide (4 < fmt) ||
    eop == 3 || (fmt == 4 && eop != 0) || fld r 256 32 == 0 || decide (mems.length ≤ rank) || mems.getD rank (2 ^ 17) != self ||
    ((op == 1 || op == 3) && fld r 313 3 != 0) || fld r 192 6 != 0 || fld r 128 6 != 0 || fld r 64 6 != 0

/-- Where a collective's local input and result lie, in bytes. -/
def Collective.inBytes (c : Collective) : Nat :=
  (if c.op = 0 ∨ c.op = 2 then c.members.length * c.count else c.count) * collSize c.fmt
def Collective.outBytes (c : Collective) : Nat :=
  (if c.op = 1 ∨ c.op = 2 then c.members.length * c.count else c.count) * collSize c.fmt

/-- The elements of bytes. -/
def elements (k n : Nat) (bs : List Byte) : List Nat := (List.range n).map fun i => leNat ((bs.drop (i * k)).take k)

/-- Shard j of the local contributions. -/
def Collective.shardOf (c : Collective) (arrays : List (List Nat)) (j : Nat) : List (List Nat) :=
  if c.op = 0 ∨ c.op = 2 then arrays.map fun a => (a.drop (j * c.count)).take c.count else arrays

/-- What a participant sends: to which rank, which shard (R359). -/
def Collective.sends (c : Collective) : List (Nat × Nat) :=
  let others := (List.range c.members.length).filter (· != c.rank)
  match c.op with
  | 0 => others.map fun m => (m, m)
  | 1 => others.map fun m => (m, c.rank)
  | 2 => others.flatMap fun m => (List.range c.members.length).map fun j => (m, j)
  | _ => if c.rank = 0 then others.map fun m => (m, 0) else []

/-- The shards whose contributions it needs, with their origins. -/
def Collective.needs (c : Collective) : List (Nat × Nat) :=
  let all := List.range c.members.length
  match c.op with
  | 0 => all.map fun o => (o, c.rank)
  | 1 => all.map fun o => (o, o)
  | 2 => all.flatMap fun o => all.map fun j => (o, j)
  | _ => [(0, 0)]

/-- The contributions to shard j by origin o. -/
def Collective.from (c : Collective) (o j : Nat) : List (List Nat) :=
  ((c.heard.find? fun h => h.1 == o && h.2.1 == j).map fun h => h.2.2).getD []

/-- One element of a reduction: every contribution, one rounding (R359). -/
def collElem (fmt eop : Nat) (xs : List Nat) : Nat × Nat :=
  let f := collFmt fmt
  if fmt = 4 then
    let x := (xs.map fun x => sgn 32 x).foldl (· + ·) 0
    ((x % (2 : Int) ^ 32).toNat, if x < -(2 : Int) ^ 31 ∨ (2 : Int) ^ 31 ≤ x then flagIOF else 0)
  else if xs.any f.isNaN then f.invalid
  else if eop = 0 then f.sumTerms 0 xs
  else
    match xs with
    | [] => (0, 0)
    | x :: xs => xs.foldl (fun r y => let m := f.minmax (eop == 2) r.1 y; (m.1, orNat r.2 m.2)) (x, 0)

/-- The reduction of shard j: elements and flags. -/
def Collective.reduce (c : Collective) (j : Nat) : List Nat × Nat :=
  let arrays := (List.range c.members.length).flatMap fun o => c.from o j
  let es := (List.range c.count).map fun i => collElem c.fmt c.eop (arrays.map fun a => a.getD i 0)
  (es.map Prod.fst, es.foldl (fun f e => orNat f e.2) 0)

/-- The elements of the result and the flags (R358). -/
def Collective.result (c : Collective) : List Nat × Nat :=
  match c.op with
  | 0 => c.reduce c.rank
  | 1 => ((List.range c.members.length).flatMap fun o => (c.from o o).headD [], 0)
  | 2 => (List.range c.members.length).foldl (fun r j => let x := c.reduce j; (r.1 ++ x.1, orNat r.2 x.2)) ([], 0)
  | _ => ((c.from 0 0).headD [], 0)

/-- RES and then the completion value are written, and the queue that waits goes on (R340, R360). -/
def collEnd (s : State) (id : Nat) (c : Collective) (status flags cause : Nat) : State :=
  let s := ctxWrite s c.part c.ctx (c.recAddr + 48) (natLe 8 (status + flags % 128 * 2 ^ 8 + cause % 512 * 2 ^ 15))
  let s := ctxWrite s c.part c.ctx c.comp (natLe 8 c.val.toNat)
  { s with colls := tdel s.colls id }.modWq c.q fun w => { w with
    pending := w.pending - 1
    wait := if w.wait = WqWait.collective id then .none else w.wait
    step := if w.wait = WqWait.collective id then 9 else w.step }

/-- A frame of a collective that has not been accepted yet. -/
def isShardOf (c : Collective) (m : OutMsg) : Bool :=
  match m with
  | .col f => f.gid == c.gid && f.collid == c.collid && f.rank == c.rank && f.hdr.part == c.part
  | _ => false

/-- Its own shards have all been accepted (R360). -/
def shardsAccepted (s : State) (c : Collective) : Bool :=
  !(s.unsent.any fun x => isShardOf c x.2) && s.ports.all fun p => !(p.2.unacked.any fun x => isShardOf c x.2)

/-- Every contribution is there. -/
def Collective.full (c : Collective) : Bool := c.issued && c.needs.all fun n => c.heard.any fun h => h.1 == n.1 && h.2.1 == n.2

/-- A collective ends with its result left unspecified (R360). -/
def collStop (s : State) (id : Nat) (c : Collective) (status cause : Nat) : State :=
  let s := ctxWrite s c.part c.ctx c.dst ((List.range c.outBytes).map fun i => (Config.freeWord s.fresh i).truncate 8)
  collEnd s id c status 0 cause

/-- COLLECTIVE_COMPLETE: the result goes to DST at its home slices, then RES and the completion value (R359, R360). -/
def execCollectiveComplete (id : Nat) (s : State) : Result :=
  .next (match tget s.colls id with
    | none => s
    | some c =>
      if !(c.full && shardsAccepted s c) then s
      else
        let r := ctxRange s c.part c.ctx c.dst c.outBytes ⟨false, true, true⟩
        match r.2.1 with
        | some k => collStop r.1 id c 4 k
        | none =>
          let x := c.result
          collEnd (writePieces r.1 r.2.2 7 0 (x.1.flatMap (natLe (collSize c.fmt)))) id c 1 x.2 0)

/-- A record that stops at once: only RES and the completion value. -/
def collRefuse (s : State) (c : Collective) (status cause : Nat) : State :=
  collEnd (s.modWq c.q fun w => { w with pending := w.pending + 1 }) 0 c status 0 cause

/-- The pieces read one after the other: bytes, and the poison code met. -/
def readPieces (s : State) (ps : List (Loc × Nat)) : State × List Byte × Bool :=
  ps.foldl (fun (r : State × List Byte × Bool) p =>
    let q := homeRead r.1 p.1 (r.1.owner p.1.part) p.2
    (q.1, r.2.1 ++ q.2.1, r.2.2 || q.2.2)) (s, [], false)

/-- Bytes read at their homes with what is pending on them applied, and no line allocated (R359, R361). -/
def readQuiet (s : State) (ps : List (Loc × Nat)) : State × List Byte × Bool :=
  ps.foldl (fun (r : State × List Byte × Bool) p =>
    let s := (linePieces p.1.addr (p.2 / 128 + 2) p.2).foldl (fun s x =>
      settleRed s (homeSlice s { p.1 with addr := x.1 }) (x.1 / 128) x.1 x.2) r.1
    let bs := (List.range p.2).map fun i => peekByte s { p.1 with addr := p.1.addr + i } (s.owner p.1.part)
    (s, r.2.1 ++ bs.map Prod.fst, r.2.2 || bs.any Prod.snd)) (s, [], false)

/-- The local contributions: arrays, or the code that stops the collective (R358, R360). -/
def collInput (s : State) (c : Collective) : State × Option Nat × List (List Nat) :=
  if c.op = 3 ∧ c.rank ≠ 0 then (s, none, [])
  else
    (List.range c.nsrc).foldl (fun (r : State × Option Nat × List (List Nat)) i =>
      match r.2.1 with
      | some _ => r
      | none =>
        let q := ctxRange r.1 c.part c.ctx (c.src + i * c.sstr) c.inBytes ⟨true, false, true⟩
        match q.2.1 with
        | some k => (q.1, some k, r.2.2)
        | none =>
          if q.2.2.any fun p => p.1.kind != 0 then (q.1, some 73, r.2.2)
          else
            let x := readQuiet q.1 q.2.2
            (x.1, if x.2.2 then some 68 else none, r.2.2 ++ [elements (collSize c.fmt) (c.inBytes / collSize c.fmt) x.2.1]))
      (s, none, [])

/-- The record of a collective as it is issued. -/
def collOf (s : State) (q a comp : Nat) (val : DWord) (sync : Bool) (r : Nat) (mems : List Nat) : Collective where
  part := (s.wq q).part
  ctx := (s.wq q).ctx
  gid := fld r 288 16
  collid := fld r 320 32
  issued := true
  recAddr := a
  q := q
  comp := comp
  val := val
  op := fld r 352 4
  fmt := fld r 356 4
  eop := fld r 360 2
  count := fld r 256 32
  rank := fld r 304 9
  nsrc := fld r 313 3 + 1
  sstr := fld r 192 64
  dst := fld r 128 64
  src := fld r 64 64
  members := mems
  sync := sync
  heard := []

/-- The entry of the collective store a record or a shard belongs to. -/
def collFind (s : State) (part gid collid : Nat) : Option (Nat × Collective) :=
  s.colls.find? fun c => c.2.part == part && c.2.gid == gid && c.2.collid == collid

/-- A collective is issued: it reads its contributions and sends its shards (R358, R359). The number it has, none when it ended
at once. -/
def issueCollective (s : State) (q a comp : Nat) (val : DWord) (sync : Bool) (r : Nat) : State × Option Nat :=
  let w := s.wq q
  let g := groupMembers s w.part w.ctx (fld r 288 16)
  let s := g.1
  let c := collOf s q a comp val sync r (g.2.getD [])
  if collBad r (g.2.getD []) (pkgNow s) then (collRefuse s c 2 0, none)
  else
    let d := ctxRange s w.part w.ctx c.dst c.outBytes ⟨false, true, true⟩
    match d.2.1 with
    | some k => (collRefuse d.1 c 4 k, none)
    | none =>
      if d.2.2.any fun p => p.1.kind != 0 then (collRefuse d.1 c 4 73, none)
      else
        let x := collInput d.1 c
        match x.2.1 with
        | some k => (collRefuse x.1 c 4 k, none)
        | none =>
          let s := x.1
          let own := (c.needs.filter fun n => n.1 == c.rank).map fun n => (n.1, n.2, c.shardOf x.2.2 n.2)
          let e := (collFind s w.part c.gid c.collid).filter fun e => !e.2.issued
          let id := (e.map Prod.fst).getD s.nextOp
          let s := { s with
            colls := tset s.colls id { c with heard := ((e.map fun e => e.2.heard).getD []) ++ own }
            nextOp := s.nextOp + 1 }
          let s := c.sends.foldl (fun s m =>
            let dst := c.members.getD m.1 0
            sendFrame s c.part dst (.col ⟨headTo s c.part c.ctx dst c.collid, c.gid, c.collid, c.rank, m.2, c.shardOf x.2.2 m.2⟩)) s
          (s.modWq q fun w => { w with pending := w.pending + 1 }, some id)

/-- Collectives of a partition that wait for their local record. -/
def collWaiting (s : State) (part : Nat) : Nat := (s.colls.filter fun c => c.2.part == part && !c.2.issued).length

/-- COL_FRAME: a shard joins its collective, or waits in the partition's store of 64 for the local record (R358, R359). -/
def execColFrame (f : ColFrame) (s : State) : Result :=
  let part := min (portPart s f.hdr.port) 7
  let c := collFind s part f.gid f.collid
  .next (frameIn s f.hdr (c.isNone && decide (64 ≤ collWaiting s part)) fun s =>
    let h := (f.rank, f.shard, f.arrays)
    match c with
    | some (id, c) => { s with colls := tset s.colls id { c with heard := c.heard ++ [h] } }
    | none =>
      { s with
        colls := tset s.colls s.nextOp ⟨part, 0, f.gid, f.collid, false, 0, 0, 0, 0, 0, 0, 0, 0, 0, 0, 0, 0, 0, [], false, [h]⟩
        nextOp := s.nextOp + 1 })

/-- A collective waits for a package. -/
def Collective.waitsFor (c : Collective) (s : State) (pkg : Nat) : Bool :=
  c.issued && ((c.needs.any fun n => c.members.getD n.1 0 == pkg && !(c.heard.any fun h => h.1 == n.1 && h.2.1 == n.2)) ||
    s.unsent.any fun x => x.1 == pkg && isShardOf c x.2)

/-- Collectives that wait for a package stop (R360). -/
def collsLost (s : State) (pkg : Nat) : State :=
  (s.colls.filter fun c => c.2.waitsFor s pkg).foldl (fun s c => collStop s c.1 c.2 3 280) s

/-! ## Packages that cannot be reached (R348, R392) -/

def isFwd (m : OutMsg) : Bool :=
  match m with
  | .fwd _ => true
  | _ => false

/-- Some frame is held for a package that no route reaches. -/
def routeless (s : State) (pkg : Nat) : Bool :=
  s.unsent.any fun x => x.1 == pkg && (match x.2.header with
    | some h => (routesTo s h.part pkg).2.isEmpty
    | none => false)

/-- ROUTE_TIMEOUT: what waits for the package fails; records already taken from a queue stay held (R348, R349). -/
def execRouteTimeout (pkg : Nat) (s : State) : Result :=
  .next (
    if !routeless s pkg then s
    else
      let s := loseBindings (collsLost (mcastLost (failPeer s pkg) pkg) pkg) pkg
      { s with unsent := s.unsent.filter fun x => !(x.1 == pkg) || isFwd x.2 })

/-- The frame goes to a package. -/
def goesTo (pkg : Nat) (m : OutMsg) : Bool := (m.header.map FrameHdr.dst) == some pkg

/-- PARTNER_LINK_LOSS: a partner enters HOLD. Its links go down and frames to it are dropped; other frames of those links go
by other ports (R392). -/
def execPartnerLinkLoss (pkg : Nat) (s : State) : Result :=
  .next (
    let s := loseBindings (collsLost (mcastLost (failPeer s pkg) pkg) pkg) pkg
    let s := { s with
      unsent := s.unsent.filter fun x => !(x.1 == pkg)
      ports := s.ports.map fun p => (p.1, { p.2 with unacked := p.2.unacked.filter fun x => !goesTo pkg x.2 })
      mcastIn := s.mcastIn.filter fun m => m.src != pkg
      reqSeen := s.reqSeen.filter fun r => r.1 / 256 != pkg }
    ((List.range 24).filter fun p => Config.wiredTo p pkg && (s.port p).up).foldl portDown s)

end Sys2Proof.Machine
end

