-- ==== Sys2Proof/Machine/Host.lean ====
section
/-! DEFINITION. Hosts: doorbells, inbound RDMA, failing host queue pairs (R331, R332, R362 to R364, R392). -/

namespace Sys2Proof.Machine

/-! ## Host queue pairs (R362) -/

def hostKey (part qp : Nat) : Nat := part * 512 + qp
def State.hostQp (s : State) (part qp : Nat) : HostQp := (tget s.hostqps (hostKey part qp)).getD ⟨false, 0, false, 0, []⟩
def State.modQp (s : State) (part qp : Nat) (f : HostQp → HostQp) : State :=
  { s with hostqps := tset s.hostqps (hostKey part qp) (f (s.hostQp part qp)) }

/-- The queue pair may change to the other port: some valid host window that names it has FAIL set (R362, R363). -/
def qpFail (s : State) (part qp : Nat) : State × Bool :=
  (List.range 1024).foldl (fun (r : State × Bool) i =>
    if r.2 then r
    else
      let q := fabricEntry r.1 part 6 i 32
      (q.1, fld q.2 0 1 == 1 && fld q.2 1 1 == 1 && fld q.2 96 8 == qp)) (s, false)

/-- Every access that waits on a queue pair fails with 304. -/
def failHost (s : State) (part qp : Nat) : State :=
  (s.remotes.filter fun m => m.2.host && m.2.part == part && m.2.qp == qp && !m.2.answered).foldl
    (fun s m => landRsp s m.1 m.2 304 []) s

/-- HOST_RETRY_EXHAUSTED: failover to the other port where that is allowed and not done yet, else 304 (R362). -/
def execHostRetryExhausted (part qp : Nat) (s : State) : Result :=
  .next (
    let r := qpFail s part qp
    if r.2 && (r.1.hostQp part qp).port == 0 then r.1.modQp part qp fun q => { q with port := 1 } else failHost r.1 part qp)

/-- CONGESTION_NOTIFICATION: the queue pair sends at a reduced rate (R362). -/
def execCongestionNotification (part qp : Nat) (s : State) : Result :=
  .next (if (s.hostQp part qp).open_ then s.modQp part qp fun q => { q with reduced := true } else s)

/-! ## Doorbells (R331, R332) -/

/-- A tail word is accepted: a multiple of 8, not below TAIL, of an enabled queue. An idle queue runs on. -/
def tailAccept (s : State) (q tail : Nat) : State :=
  let w := s.wq q
  if !s.ostler || tail % 8 ≠ 0 || decide (tail < w.tail) || !w.en then s
  else
    let more := decide (w.headp < tail)
    s.modWq q fun w => { w with
      tail := tail
      state := if w.state = 1 ∧ more = true then 2 else w.state
      paused := if w.state = 7 ∧ w.paused = 1 ∧ more = true then 2 else w.paused }

/-- TAIL_WRITE (R332, R392). -/
def execTailWrite (q tail : Nat) (s : State) : Result :=
  .next (if s.phase ≠ .ready ∨ s.ostler = false then emit s (.rnr (s.wq q).part 256) else tailAccept s q (tail % 2 ^ 64))

/-- The oldest free segment of a queue leaves its list: its address, 0 for none. -/
def popSegment (s : State) (q : Nat) : State × Nat :=
  match (s.wq q).free with
  | [] => (s, 0)
  | a :: rest => (s.modWq q fun w => { w with free := rest }, a)

/-- FLPOP: the address goes to the queue pair that asked, which the row does not name: 256 (R331). -/
def execFlpop (q : Nat) (s : State) : Result :=
  .next (
    if s.phase ≠ .ready ∨ s.ostler = false then emit s (.rnr (s.wq q).part 256)
    else
      let r := popSegment s q
      emit r.1 (.rdmaReply (s.wq q).part 256 (ofBytes (natLe 8 r.2))))

/-- The 64 bytes of a doorbell block as reads give them; what a read of TAIL, which is write-only, gives is a free value. -/
def doorbell (free : DWord) (w : WorkQueue) : List Byte :=
  natLe 8 free.toNat ++ natLe 8 w.headp ++ natLe 8 w.free.length ++ natLe 8 (w.state + w.err * 2 ^ 8 + (w.levels.length - 1) * 2 ^ 16) ++ natLe 32 0

/-! ## Inbound RDMA (R364) -/

/-- An entry of the aperture table; where its fields lie is not given (log 9). -/
structure Aperture where
  ctx : Nat
  base : Nat
  len : Nat
  r : Bool
  w : Bool
  atomic : Bool
  bell : Bool
deriving DecidableEq, Repr

/-- The aperture of a key. -/
def findAperture (s : State) (part rkey : Nat) : State × Option Aperture :=
  (List.range 1024).foldl (fun (r : State × Option Aperture) i =>
    match r.2 with
    | some _ => r
    | none =>
      let q := fabricEntry r.1 part 7 i 32
      let e := (List.range 32).map (byteOf q.2)
      let f (k : Nat) := Config.fabricField 7 k e
      (q.1, if q.2 % 2 = 1 ∧ f 0 = rkey then
        some ⟨f 1 % 64, f 2, f 3, f 4 % 2 == 1, f 5 % 2 == 1, f 6 % 2 == 1, f 7 == 1⟩ else none)) (s, none)

/-- Run k on the aperture an operation names, when its bytes lie within it and it is permitted; else a remote access NAK. -/
def withAperture (s : State) (r : Rdma) (n : Nat) (perm : Aperture → Bool) (k : Aperture → State → State) : State :=
  if s.phase ≠ .ready then emit s (.rnr r.part r.qp)
  else if !(s.hostQp r.part r.qp).open_ then s
  else
    let a := findAperture s r.part r.rkey
    match a.2 with
    | none => emit a.1 (.rdmaNak r.part r.qp)
    | some x =>
      if x.base ≤ r.addr ∧ r.addr + n ≤ x.base + x.len ∧ perm x = true then
        (if x.bell && !s.ostler then emit a.1 (.rnr r.part r.qp) else k x a.1)
      else emit a.1 (.rdmaNak r.part r.qp)

/-- Run k on the home locations of a range of the aperture's context; a page that is not mapped, not permitted or not NORMAL
is answered with a NAK. -/
def withHome (s : State) (r : Rdma) (x : Aperture) (n : Nat) (need : Need) (k : List (Loc × Nat) → State → State) : State :=
  let t := ctxRange s r.part x.ctx r.addr n need
  if t.2.1.isSome || t.2.2.any fun p => p.1.kind != 0 then emit t.1 (.rdmaNak r.part r.qp) else k t.2.2 t.1

/-- RDMA_WRITE (R331, R332, R364). -/
def execRdmaWrite (r : Rdma) (s : State) : Result :=
  .next (withAperture s r r.data.length Aperture.w fun x s =>
    let o := r.addr - x.base
    if x.bell then
      (if o % 64 = 0 ∧ r.data.length = 8 then tailAccept s (o / 64) (leNat (toBytes r.data)) else s)
    else if r.data.isEmpty then s
    else withHome s r x r.data.length ⟨false, true, true⟩ fun ps s => writePieces s ps 7 0 (toBytes r.data))

/-- RDMA_READ (R331, R364). -/
def execRdmaRead (r : Rdma) (s : State) : Result :=
  .next (withAperture s r r.len Aperture.r fun x s =>
    let o := r.addr - x.base
    if x.bell then
      emit s (.rdmaReply r.part r.qp ((List.range r.len).map fun i =>
        ((doorbell (Config.freeWord s.fresh ((o + i) / 64)) (s.wq ((o + i) / 64))).getD ((o + i) % 64) 0).toNat))
    else if r.len = 0 then emit s (.rdmaReply r.part r.qp [])
    else withHome s r x r.len ⟨true, false, true⟩ fun ps s =>
      let q := readPieces s ps
      emit q.1 (.rdmaReply r.part r.qp (ofBytes q.2.1)))

/-- An atomic of a host with its packet sequence number: one that comes again is answered from the replay of its queue pair, without effect
(R331; how many are kept is the model's choice, log 80). -/
def replayed (s : State) (r : Rdma) (k : State → State) : State :=
  match (s.hostQp r.part r.qp).replay.find? fun a => a.1 == r.psn with
  | some a => emit s (.rdmaReply r.part r.qp a.2)
  | none => k s

/-- The answer of an atomic, kept for a repeat. -/
def answerAtomic (s : State) (r : Rdma) (data : List Nat) : State :=
  emit (s.modQp r.part r.qp fun q => { q with replay := ((r.psn, data) :: q.replay).take 16 }) (.rdmaReply r.part r.qp data)

/-- An 8-byte atomic of a host at its home slice, as ATG does it (R160, R364). -/
def hostAtomic (s : State) (r : Rdma) (x : Aperture) (op src ex : Nat) : State :=
  if r.addr % 8 ≠ 0 then emit s (.rdmaNak r.part r.qp)
  else withHome s r x 8 ⟨true, true, true⟩ fun ps s =>
    match ps with
    | (l, _) :: _ =>
      let q := homeFor s l (s.owner l.part) 8
      let y := (lineAt q.1 q.2).atom op 1 0 ⟨0, l, r.addr, src, ex, 0, false⟩
      let s := { q.1 with l2 := tset q.1.l2 q.2 y.1 }
      answerAtomic s r (ofBytes (natLe 8 (if y.2.pois then (Config.freeWord s.fresh 0).toNat else y.2.old)))
    | [] => s

/-- FETCH_ADD: on FLPOP it takes a segment, whatever the addend (R331, R364). -/
def execFetchAdd (r : Rdma) (s : State) : Result :=
  .next (withAperture s r 8 Aperture.atomic fun x s => replayed s r fun s =>
    let o := r.addr - x.base
    if x.bell then
      (if o % 64 = 16 then
        let q := popSegment s (o / 64)
        answerAtomic q.1 r (ofBytes (natLe 8 q.2))
      else emit s (.rdmaNak r.part r.qp))
    else hostAtomic s r x 0 r.x 0)

/-- CMP_SWAP: compares with the first operand and writes the second (R364). -/
def execCmpSwap (r : Rdma) (s : State) : Result :=
  .next (withAperture s r 8 Aperture.atomic fun x s => replayed s r fun s =>
    if x.bell then emit s (.rdmaNak r.part r.qp) else hostAtomic s r x 10 r.y r.x)

end Sys2Proof.Machine
end

