-- ==== Sys2Proof/Machine/Ostler.lean ====
section
/-! DEFINITION. Command packets other than LAUNCH_GRAPH (R331 to R342). -/

namespace Sys2Proof.Machine

/-- A packet of a queue that runs. -/
def onPacket (q : Nat) (k : WorkQueue → State → State) (s : State) : State := if wqLive s q then k (s.wq q) s else s

/-- The first field rule a packet breaks: reserved bits (1), LEN or ARG (2), alignment (8) (R342). -/
def packetFlaw (flg len aligned : Bool) : Option Nat := if !flg then some 1 else if !len then some 2 else if !aligned then some 8 else none

/-- Run k unless a field rule is broken. -/
def sound (q : Nat) (flaw : Option Nat) (k : State → State) (s : State) : State :=
  match flaw with
  | some e => wqError s q e 0
  | none => k s

/-- Run k on the pieces of a range of the queue's context; a page that fails stops the queue (R335). -/
def withRange (q va n : Nat) (need : Need) (k : List (Loc × Nat) → State → State) (s : State) : State :=
  let r := ctxRange s (s.wq q).part (s.wq q).ctx va n need
  match r.2.1 with
  | some c => wqError r.1 q 3 c
  | none => k r.2.2 r.1

def pword (p : Pkt) (i : Nat) : Nat := p.qw.getD (i - 1) 0

/-- The data of a packet from quadword i on: n bytes. -/
def packetData (p : Pkt) (i n : Nat) : List Byte := ((p.qw.drop (i - 1)).flatMap (natLe 8)).take n

/-- NOP_PACKET (R334). -/
def execNopPacket (p : Pkt) (s : State) : Result :=
  .next (onPacket p.q (fun _ => sound p.q (packetFlaw (p.flg == 0) (p.len != 0) true) fun s => wqDone s p.q (8 * p.len)) s)

/-- WRITE (R337). -/
def execWrite (p : Pkt) (s : State) : Result :=
  .next (onPacket p.q (fun w s =>
    match w.wait with
    | .remote => wqAnswered s p.q (fun _ s => wqDone s p.q (8 * p.len)) 
    | _ =>
      sound p.q (packetFlaw (p.flg == 0)
          (p.arg % 4 == 0 && decide (4 ≤ p.arg) && decide (p.arg ≤ 2024) && p.len == 2 + (p.arg + 7) / 8) ((pword p 1) % 4 == 0))
        (withRange p.q (pword p 1) p.arg ⟨false, true, false⟩ fun ps s =>
          wqWritten (writePieces s ps 3 p.q (packetData p 2 p.arg)) p.q (8 * p.len)) s) s)

/-- An access still to be acknowledged before a release at a scope: at 4 none, at 5 those of peers, at 6 all (R182). -/
def scopeLeft (s : State) (q scope : Nat) : Bool := decide (5 ≤ scope) && remoteLeft s q

/-- The signal of a WRITE_SIGNAL: a store of 4 or 8 bytes, or an add of 64 bits at the home slice (R337). -/
def signal (s : State) (p : Pkt) (ps : List (Loc × Nat)) : State :=
  let sop := p.flg % 4
  if sop = 2 then
    match ps with
    | (l, _) :: _ =>
      if l.kind = 0 then
        let q := homeFor s l (s.owner l.part) 8
        let x := (lineAt q.1 q.2).atom 0 1 0 ⟨0, l, (pword p 2), (pword p 3), 0, 0, false⟩
        let s := { q.1 with l2 := tset q.1.l2 q.2 x.1 }
        if x.2.pois then logRas s l.part 68 (homeSlice s l) l.addr l.ctx else s
      else sendPeer s l.part l.ctx ostlerCore l.dest 3 p.q (.atomic 0 1 0 [(l.addr, (pword p 3), 0)] none)
    | [] => s
  else writePieces s ps 3 p.q (natLe (if sop = 0 then 4 else 8) (pword p 3))

/-- WRITE_SIGNAL: the data, their release at SCOPE, the signal (R337). -/
def execWriteSignal (p : Pkt) (s : State) : Result :=
  let sop := p.flg % 4
  let scope := p.flg / 4 % 8
  let size := if sop = 0 then 4 else 8
  .next (onPacket p.q (fun w s =>
    let last (ps : List (Loc × Nat)) (s : State) : State :=
      let s := signal s p ps
      if s.remotes.any (ofQueue p.q) then wqHold s p.q w.state .remote true 2 else wqDone s p.q (8 * p.len)
    let keep (ps : List (Loc × Nat)) (s : State) : State := s.modWq p.q fun w => { w with kept := ps }
    match w.wait, w.step with
    | .remote, 1 =>
      if scopeLeft s p.q scope then s
      else
        let r := remoteGot s p.q
        if r.1 = 0 then last w.kept (keep [] s) else wqError (keep [] s) p.q 3 r.1
    | .remote, _ => wqAnswered s p.q (fun _ s => wqDone s p.q (8 * p.len))
    | _, _ =>
      sound p.q (packetFlaw (decide (p.flg < 32) && sop != 3 && decide (4 ≤ scope) && decide (scope ≤ 6) && (p.arg != 0 || (pword p 1) == 0))
          (p.arg % 4 == 0 && decide (p.arg ≤ 2000) && p.len == 4 + (p.arg + 7) / 8)
          ((pword p 1) % 4 == 0 && (pword p 2) % size == 0))
        (withRange p.q (pword p 2) size ⟨sop == 2, true, sop == 2⟩ fun sig s =>
          if p.arg = 0 then last sig s
          else
            withRange p.q (pword p 1) p.arg ⟨false, true, false⟩ (fun ps s =>
              let s := writePieces s ps 3 p.q (packetData p 4 p.arg)
              if scopeLeft s p.q scope then keep sig (wqHold s p.q w.state .remote true 1) else last sig s) s) s) s)

/-! ## Waiting on memory (R338) -/

/-- The size a condition reads. -/
def condSize (p : Pkt) : Nat := if p.flg / 4 % 2 = 1 then 8 else 4

/-- The condition of WAIT_MEM and PRED on a value. -/
def condMeets (p : Pkt) (x : Nat) : Bool :=
  let m := (pword p 3) % 256 ^ condSize p
  wordMeets (p.flg % 4) (Nat.land x m) (Nat.land (pword p 2) m)

/-- The rules of WAIT_MEM and PRED. -/
def condFlaw (p : Pkt) (arg : Bool) : Option Nat := packetFlaw (decide (p.flg < 8)) (arg && p.len == 4) ((pword p 1) % condSize p == 0)

/-- The read of a condition: k takes the value. Poison and faults stop the queue; a peer or host is asked, the queue being in
`state` meanwhile. -/
def condRead (p : Pkt) (state : Nat) (k : Nat → State → State) (s : State) : State :=
  let n := condSize p
  match (s.wq p.q).wait with
  | .remote =>
    if remoteLeft s p.q then s
    else
      let r := remoteGot s p.q
      if r.1 = 76 then wqError s p.q 7 76
      else if r.1 ≠ 0 then wqError s p.q 3 r.1
      else k (leNat (r.2.take n)) (dropRemotes s p.q)
  | _ =>
    withRange p.q (pword p 1) n ⟨true, false, false⟩ (fun ps s =>
      match ps with
      | (l, _) :: _ =>
        if l.kind = 0 then
          let r := homeNat s l (s.owner l.part) n
          if r.2.2 then wqError r.1 p.q 7 68 else k r.2.1 r.1
        else
          let s := dropRemotes s p.q
          let s := if l.kind = 1 then sendPeer s l.part l.ctx ostlerCore l.dest 3 p.q (.read l.addr n) else sendHost s l 3 p.q none n
          wqHold s p.q state .remote (state == 2) 1
      | [] => s) s

/-- WAIT_MEM: while the condition is false the queue is in STATE 3. -/
def execWaitMem (p : Pkt) (s : State) : Result :=
  .next (onPacket p.q (fun w s =>
    if w.wait = .mem then s
    else
      sound p.q (condFlaw p (p.arg == 0))
        (condRead p 3 fun x s => if condMeets p x then wqDone s p.q 32 else wqHold s p.q 3 .mem false 0) s) s)

/-- The packet a queue in STATE 3 waits at, as its lines hold it. -/
def waitingPacket (w : WorkQueue) (q : Nat) : Pkt :=
  let bs := commandBytes w w.depth w.here 32
  let h := quad bs 0
  ⟨q, fld h 8 8, fld h 32 32, fld h 16 8, [quad bs 8, quad bs 16, quad bs 24]⟩

/-- Where the value lies that a queue in STATE 3 watches, if it is on a NORMAL page. -/
def watched (s : State) (q : Nat) : Option Loc :=
  let w := s.wq q
  let r := ctxRange s w.part w.ctx (pword (waitingPacket w q) 1) (condSize (waitingPacket w q)) ⟨true, false, false⟩
  match r.2.1, r.2.2 with
  | none, (l, _) :: _ => if l.kind = 0 then some l else none
  | _, _ => none

/-- A queue in STATE 3 tests its condition: it goes on when that holds, and stops at poison. -/
def retest (q : Nat) : State → State :=
  onPacket q fun w s =>
    if w.wait ≠ .mem then s
    else
      match watched s q with
      | none => s
      | some l =>
        let p := waitingPacket w q
        let x := peekNat s l (s.owner l.part) (condSize p)
        if x.2 then wqError s q 7 68 else if condMeets p x.1 then wqDone s q 32 else s

/-- WAIT_MEM_RETEST: the watched bytes have changed so that the condition holds, or carry poison, and the queue goes on. -/
def execWaitMemRetest (q : Nat) (s : State) : Result := .next (retest q s)

/-- Something has been written: every queue in STATE 3 tests its condition (R338). -/
def retestAll (s : State) : State := s.wqs.foldl (fun s q => if q.2.wait = .mem then retest q.1 s else s) s

/-- WAIT_MEM_POLL: a value on a PEER or HOST page is read again, every 1 024 cycles. -/
def execWaitMemPoll (q : Nat) (s : State) : Result :=
  .next (onPacket q (fun w s =>
    if w.wait ≠ .mem ∨ (watched s q).isSome then s
    else
      condRead (waitingPacket w q) 3
        (fun x s => if condMeets (waitingPacket w q) x then wqDone s q 32 else wqHold s q 3 .mem false 0)
        (wqHold s q 3 .none false 0)) s)

/-- PRED: when the condition is false the next K packets of the level are passed over; a skip ends with its buffer or body. -/
def execPred (p : Pkt) (s : State) : Result :=
  .next (onPacket p.q (fun w s =>
    sound p.q (condFlaw p (decide (1 ≤ p.arg) && decide (p.arg ≤ 65535)))
      (condRead p 2 fun x s =>
        if condMeets p x then wqDone s p.q 32
        else
          let ends := match w.levels with
            | l :: _ :: _ => decide (l.len ≤ l.pos + 32)
            | _ => false
          if ends then wqDone s p.q 32 else (wqDone s p.q 32).modWq p.q fun w => { w with skip := p.arg }) s) s)

/-! ## Levels (R333, R336, R340) -/

/-- INDIRECT: a level that runs the packets of a buffer. -/
def execIndirect (p : Pkt) (s : State) : Result :=
  .next (onPacket p.q (fun w s =>
    sound p.q (packetFlaw (p.flg == 0) (p.arg % 8 == 0 && decide (8 ≤ p.arg) && decide (p.arg ≤ 1048576) && p.len == 2) ((pword p 1) % 8 == 0))
      (fun s =>
        if 5 ≤ w.levels.length then wqError s p.q 4 0
        else
          withRange p.q (pword p 1) p.arg ⟨true, false, false⟩ (fun _ s =>
            s.modWq p.q fun w => { w with levels := ⟨1, (pword p 1), p.arg, 0, 0, 16⟩ :: w.levels }) s) s) s)

/-- LOOP: a level that runs its body for a number of passes; in the stream it waits until TAIL covers the body. -/
def execLoop (p : Pkt) (s : State) : Result :=
  let n := 8 * p.arg
  .next (onPacket p.q (fun w s =>
    sound p.q (packetFlaw (p.flg == 0 && fld (pword p 1) 32 32 == 0)
        (decide (1 ≤ p.arg) && decide (p.arg ≤ 32) && p.len == 2 && (pword p 1) % 2 ^ 32 != 0) true)
      (fun s =>
        if 5 ≤ w.levels.length then wqError s p.q 4 0
        else
          match w.levels with
          | [] => s
          | l :: _ =>
            if l.len < l.pos + 16 + n then wqError s p.q 6 0
            else if w.left < 16 + n then s
            else s.modWq p.q fun w => { w with levels := ⟨2, l.base + l.pos + 16, n, 0, (pword p 1) % 2 ^ 32, 16 + n⟩ :: w.levels }) s) s)

/-- FETCH_FENCE: bytes its level has fetched beyond it are discarded; a LOOP body is kept. -/
def execFetchFence (p : Pkt) (s : State) : Result :=
  .next (onPacket p.q (fun w s =>
    sound p.q (packetFlaw (p.flg == 0) (p.arg == 0 && p.len == 1) true)
      (fun s =>
        let keep := match w.levels with
          | l :: _ => l.kind == 2
          | [] => true
        (wqDone s p.q 8).modWq p.q fun x => { x with lines := if keep then x.lines else x.lines.filter fun y => y.level != w.depth }) s) s)

/-- LINK: the stream goes on in the next segment; with RET the one left is returned once its packets are complete. -/
def execLink (p : Pkt) (s : State) : Result :=
  .next (onPacket p.q (fun w s =>
    sound p.q (packetFlaw (decide (p.flg < 2)) (p.arg == 0 && p.len == 2) true)
      (fun s =>
        match w.levels with
        | [l] =>
          if (pword p 1) % 2 ^ w.seglog ≠ 0 then wqError s p.q 5 0
          else
            (s.modWq p.q fun w => { w with
              levels := [⟨0, (pword p 1), 2 ^ w.seglog, 0, 0, 0⟩]
              headp := w.headp + 16
              lines := []
              leaving := if p.flg = 1 then w.leaving ++ [l.base] else w.leaving }).modWq p.q WorkQueue.rest
        | _ => wqError s p.q 5 0) s) s)

/-- SEGMENT_RETURN: the segment that was left first goes to the free list, or is dropped when that holds 255 (R333). -/
def execSegmentReturn (q seg : Nat) (s : State) : Result :=
  .next (
    if (s.wq q).leaving.head? = some seg then
      s.modWq q fun w =>
        let w := { w with leaving := w.leaving.tail }
        if w.free.length < 255 then { w with free := w.free ++ [seg] } else { w with flov := true }
    else s)

/-! ## Events and time (R340) -/

/-- A packet that waits with DRAIN for the launches and collectives before it. -/
def drainFirst (p : Pkt) (k : State → State) (s : State) : State :=
  if p.flg = 1 ∧ 0 < (s.wq p.q).pending then wqHold s p.q 4 .drain false 0 else k s

/-- EVENT: a record in the event ring. -/
def execEvent (p : Pkt) (s : State) : Result :=
  .next (onPacket p.q (fun w s =>
    match w.wait with
    | .remote => wqAnswered s p.q (fun _ s => wqDone s p.q 8)
    | _ =>
      sound p.q (packetFlaw (decide (p.flg < 2)) (p.len == 1) true)
        (drainFirst p fun s =>
          if w.evt = 0 then wqDone s p.q 8
          else
            withRange p.q (w.evt + 16 * w.evidx) 16 ⟨false, true, false⟩ (fun ps s =>
              wqWritten ((writePieces s ps 3 p.q (eventBytes s p.q 0 p.arg)).modWq p.q fun w => { w with
                evidx := (w.evidx + 1) % 256 }) p.q 8) s) s) s)

/-- TIMESTAMP: the package time. -/
def execTimestamp (p : Pkt) (s : State) : Result :=
  .next (onPacket p.q (fun w s =>
    match w.wait with
    | .remote => wqAnswered s p.q (fun _ s => wqDone s p.q 16)
    | _ =>
      sound p.q (packetFlaw (decide (p.flg < 2)) (p.arg == 0 && p.len == 2) ((pword p 1) % 8 == 0))
        (drainFirst p fun s =>
          withRange p.q (pword p 1) 8 ⟨false, true, false⟩ (fun ps s =>
            wqWritten (writePieces s ps 3 p.q (natLe 8 s.clock)) p.q 16) s) s) s)

/-! ## Collectives (R340, R358) -/

/-- COLLECTIVE: the record is read and the collective issued; with SYNC the queue waits for its completion. -/
def execCollective (p : Pkt) (s : State) : Result :=
  .next (onPacket p.q (fun w s =>
    let go (r : Nat) (s : State) : State :=
      let x := issueCollective s p.q (pword p 1) (pword p 2) (BitVec.ofNat 64 (pword p 3)) (p.flg == 1) r
      match x.2 with
      | some id => if p.flg = 1 then wqHold x.1 p.q 4 (.collective id) false 1 else wqDone x.1 p.q 32
      | none => wqDone x.1 p.q 32
    if w.step = 9 then wqDone s p.q 32
    else
      match w.wait with
      | .remote => wqAnswered s p.q (fun bs s => go (leNat (bs.take 64)) s)
      | .collective _ => s
      | _ =>
        sound p.q (packetFlaw (decide (p.flg < 2)) (p.arg == 0 && p.len == 4) ((pword p 2) % 8 == 0))
          (withRange p.q (pword p 2) 8 ⟨false, true, false⟩ fun _ s =>
            withRange p.q (pword p 1) 64 ⟨true, true, false⟩ (fun ps s =>
              if ps.all fun x => x.1.kind == 0 then
                let r := readPieces s ps
                go (leNat r.2.1) r.1
              else
                let s := ps.foldl (fun s x =>
                  if x.1.kind = 1 then sendPeer s x.1.part x.1.ctx ostlerCore x.1.dest 3 p.q (.read x.1.addr x.2)
                  else sendHost s x.1 3 p.q none x.2) s
                wqHold s p.q w.state .remote true 1) s) s) s)

end Sys2Proof.Machine
end

