-- ==== Sys2Proof/Machine/Residency.lean ====
section
/-! DEFINITION. Graphs become resident and leave (R34, R258 to R262, R298, R299, R339). -/

namespace Sys2Proof.Machine

/-! ## Reading and checking a graph (R258 to R262) -/

/-- A reader of global memory that may refuse the graph: failing stage (0xFF the header or a table) and REASON. -/
abbrev Reader (α : Type) := State → State × Except (Nat × Nat) α

def Reader.pure {α : Type} (a : α) : Reader α := fun s => (s, .ok a)
def Reader.bind {α β : Type} (x : Reader α) (f : α → Reader β) : Reader β := fun s =>
  match x s with
  | (s, .ok a) => f a s
  | (s, .error e) => (s, .error e)

/-- Refuse unless a condition holds. -/
def demand (ok : Bool) (stage reason : Nat) : Reader Unit := fun s => (s, if ok then .ok () else .error (stage, reason))

/-- A reader for each element of a list. -/
def readAll {α β : Type} (f : α → Reader β) : List α → Reader (List β)
  | [] => .pure []
  | a :: as => (f a).bind fun b => (readAll f as).bind fun bs => .pure (b :: bs)

/-- n bytes of a record of the graph (REASON 7 where a page fails). -/
def readRecord (part ctx va n stage : Nat) : Reader (List Byte) := fun s =>
  if n = 0 then (s, .ok [])
  else
    let r := ctxRange s part ctx va n ⟨true, false, false⟩
    if r.2.1.isSome || r.2.2.any fun p => p.1.kind != 0 then (r.1, .error (stage, 7))
    else
      let x := readPieces r.1 r.2.2
      (x.1, .ok x.2.1)

/-- The bytes of a code image, zero where its pages cannot be read (R88). -/
def readImage (part ctx va n : Nat) : Reader (List Byte) := fun s =>
  match readRecord part ctx va n 255 s with
  | (s, .ok bs) => (s, .ok bs)
  | (s, .error _) => (s, .ok [])

/-- A kernel record with its pool list and image (R72, R260). -/
def readKernel (part ctx va : Nat) : Reader Kernel :=
  (demand (va % 64 == 0) 255 1).bind fun _ =>
  (readRecord part ctx va 64 255).bind fun bs =>
  let h := leNat bs
  let np := fld h 192 7
  (demand (fld h 199 313 == 0 && decide (np ≤ 64) && decide (1 ≤ fld h 64 32) && fld h 0 6 == 0 && fld h 128 6 == 0 &&
    (fld h 96 32 != 0 || fld h 128 64 == 0)) 255 1).bind fun _ =>
  (readRecord part ctx (va + 64) (8 * np) 255).bind fun ps =>
  let pools := (List.range np).map fun i => quad ps (8 * i)
  (demand (pools.all fun e => fld e 48 16 == 0) 255 1).bind fun _ =>
  (readImage part ctx (fld h 0 64) (12 * fld h 64 32)).bind fun img =>
  .pure ⟨fld h 0 64, fld h 64 32, fld h 128 64, fld h 96 32, pools.map fun e => (fld e 0 32, fld e 32 16 + 1), mwrite [] 0 img⟩

/-- A stage entry as fields (R261). -/
def stageOf (e : Nat) : Stage where
  kidx := fld e 0 8
  w := 16 * 2 ^ fld e 8 2
  lanes := 16 * (fld e 10 6 + 1)
  teams := fld e 16 6 + 1
  nreg := 8 * (fld e 22 5 + 1)
  spill := fld e 27 6
  win := fld e 33 13
  accr := fld e 46 9
  wbr := fld e 55 9
  weight := fld e 64 8
  maxb := fld e 72 12
  hitch := fld e 84 2
  onepc := fld e 86 1 == 1
  joins := fld e 88 4
  joinp := fld e 92 4
  budget := fld e 96 32
  inq := fld e 128 8
  outq := ((List.range 4).map fun k => fld e (136 + 8 * k) 8).filter (· != 255)
  pads := ((List.range 4).map fun k => fld e (168 + 8 * k) 8).filterMap fun b =>
    if b / 128 = 1 then some (b / 64 % 2 == 1, b % 64) else none

/-- Reserved bits and ranges of a stage entry: REASON 1. -/
def stageRange (e : Nat) : Bool :=
  let st := stageOf e
  fld e 200 312 == 0 && fld e 87 1 == 0 && decide (1 ≤ st.weight) && decide (st.win ≤ 4096) && decide (st.accr ≤ 256) &&
    decide (st.wbr ≤ 256) && !(st.hitch != 0 && ((st.maxb != 0 && decide (st.maxb < hitchSize st)) || st.onepc))

/-- Shape rules whose breach means that a block never fits: REASON 3 (R18, R27). -/
def stageShape (st : Stage) : Bool :=
  decide (st.w ≤ 64) && st.lanes % st.w == 0 && decide (16 ≤ st.nreg) && decide (st.lanes * st.nreg ≤ 32768)

/-- A queue descriptor of the graph: aligned (REASON 1), on a queue page of the package (REASON 7), with no reserved bit set (REASON 1); its
QKIND is for the reader to accept (REASON 6). -/
def readQueue (part ctx va stage : Nat) : Reader Nat := fun s =>
  if va % 64 ≠ 0 then (s, .error (stage, 1))
  else
    let w := walk s part ctx 0 va
    match w.2 with
    | none => (w.1, .error (stage, 7))
    | some (e, b) =>
      if canonical va = false ∨ leafKind e ≠ 0 ∨ leafQ e = false then (w.1, .error (stage, 7))
      else
        let d := readDesc w.1 (leafLoc part ctx e b va)
        (d.1, if qReserved d.2 then .error (stage, 1) else .ok d.2)

/-- A block of the stage fits on an empty core, with no paddock resident there (R27). -/
def demandFit (part ctx : Nat) (kernels : List Kernel) (pads : List Paddock) (st : Stage) (n : Nat) : Reader Unit := fun s =>
  let g : Graph := ⟨part, ctx, 0, 0, kernels, [], [], pads.map fun p => (p.name, 0), [], [], 0, 0, 0, 0, [], [], [], false⟩
  let known := s.paddocks ++ pads.filter fun p => (padFind s part p.name).isNone
  let bare := { s with teams := [], blocks := [], paddocks := known.map fun p => { p with state := 1 } }
  (s, if (placeWith bare 0 g st [] 0).isSome then .ok () else .error (n, 3))

/-- The whiffletree slot of a queue with WEN lies in the partition's range, else REASON 6 (R378). -/
def demandSlot (part d stage : Nat) : Reader Unit := fun s =>
  let e := s.part part
  demand (!qWen d || (decide (partWsbase e ≤ qWslot d) && decide (qWslot d < partWsbase e + partWscnt e))) stage 6 s

/-- A stage entry checked against the tables (R262). -/
def readStage (part ctx : Nat) (kernels : List Kernel) (queues : List Nat) (pads : List Paddock) (sn : Nat × Nat) : Reader Stage :=
  let e := sn.2
  let n := sn.1
  let st := stageOf e
  (demand (stageRange e) n 1).bind fun _ =>
  (demand (decide (st.kidx < kernels.length) && decide (st.inq < queues.length) && st.outq.all (fun q => decide (q < queues.length)) &&
    st.pads.all (fun p => decide (p.2 < pads.length))) n 2).bind fun _ =>
  (demand (stageShape st) n 3).bind fun _ =>
  (demandFit part ctx kernels pads st n).bind fun _ =>
  (readQueue part ctx (queues.getD st.inq 0) n).bind fun d =>
  (demandSlot part d n).bind fun _ =>
  (demand (qWen d && (qKind d == 0 || qKind d == 1 || qKind d == 3)) n 6).bind fun _ =>
  (readAll (fun q => (readQueue part ctx (queues.getD q 0) n).bind fun d => (demandSlot part d n).bind fun _ => .pure d) st.outq).bind fun ds =>
  (demand (ds.all fun d => qWen d && (qKind d == 0 || qKind d == 2)) n 6).bind fun _ =>
  .pure st

/-- A paddock table entry: name and descriptor (R212, R259). -/
def padOf (part ctx : Nat) (bs : List Byte) : Nat × Paddock :=
  let d := quad bs 8
  (d, ⟨quad bs 0, part, ctx, (d % 256 + 1) * 4096, d / 4096 * 4096, fld d 8 1 == 1, 1, 0, 0, 0, 0, [], ctx⟩)

/-- A whole graph read and checked: the graph, and the paddocks of its table (R258 to R262). -/
def readGraph (part ctx va : Nat) : Reader (Graph × List Paddock) :=
  (demand (va % 64 == 0) 255 1).bind fun _ =>
  (readRecord part ctx va 64 255).bind fun bs =>
  let h := leNat bs
  let nk := fld h 280 8 + 1
  let npd := fld h 272 7
  let nq := fld h 264 8
  let ns := fld h 256 8 + 1
  let evq := fld h 192 64
  (demand (fld h 288 224 == 0 && fld h 279 1 == 0 && decide (npd ≤ 64) && decide (1 ≤ nq) && fld h 0 3 == 0 && fld h 64 3 == 0 &&
    fld h 128 4 == 0 && (npd != 0 || fld h 128 64 == 0)) 255 1).bind fun _ =>
  (readRecord part ctx (fld h 0 64) (8 * nk) 255).bind fun kt =>
  (readRecord part ctx (fld h 64 64) (8 * nq) 255).bind fun qt =>
  (readRecord part ctx (fld h 128 64) (16 * npd) 255).bind fun pt =>
  let queues := (List.range nq).map fun i => quad qt (8 * i)
  let pads := (List.range npd).map fun i => padOf part ctx ((pt.drop (16 * i)).take 16)
  (demand (pads.all fun p => p.2.name != 0 && fld p.1 9 3 == 0 && canonical p.2.back) 255 1).bind fun _ =>
  (demand (queues.all fun q => q % 64 == 0) 255 1).bind fun _ =>
  (readAll (readKernel part ctx) ((List.range nk).map fun i => quad kt (8 * i))).bind fun kernels =>
  (if evq = 0 then .pure 0 else
    (readQueue part ctx evq 255).bind fun d => (demandSlot part d 255).bind fun _ => (demand (qKind d == 3) 255 6).bind fun _ => .pure d).bind fun _ =>
  (readRecord part ctx (va + 64) (64 * ns) 255).bind fun st =>
  (readAll (readStage part ctx kernels queues (pads.map Prod.snd))
    ((List.range ns).map fun i => (i, leNat ((st.drop (64 * i)).take 64)))).bind fun stages =>
  fun s =>
    (s, .ok (⟨part, ctx, va, evq, kernels, queues,
      queues.map fun q => ((peekDesc s part ctx q).map qWslot).getD 0,
      pads.map fun p => (p.2.name, p.1), stages, [], 0, 0, 0, 0, [], [], [], false⟩, pads.map Prod.snd))

/-- The paddocks of a graph that the registry does not know are created evicted: the state with them, or the REASON
(R262, R399). -/
def createPads (part ctx : Nat) : List Paddock → State → State × Option Nat
  | [], s => (s, none)
  | p :: ps, s =>
    if (padFind s part p.name).isSome then createPads part ctx ps s
    else if 4096 ≤ (s.paddocks.filter fun p => p.part == part).length then (s, some 5)
    else
      let r := padPages part ctx s (pageStarts p.back p.size)
      match r.2.2 with
      | some _ => (r.1, some 7)
      | none => createPads part ctx ps { r.1 with paddocks := r.1.paddocks ++ [{ p with detached := r.1.nextStamp }] }

/-! ## Launch records (R339) -/

/-- A launch record. GSLOT of a refusal and STAGE of any other record are not stated: free. -/
def launchRecord (s : State) (cval : DWord) (stage reason : Nat) (gslot : Option Nat) (status : Nat) : List Byte :=
  let st := if status = 3 then stage else (Config.freeWord s.fresh 1).toNat % 256
  let gs := gslot.getD ((Config.freeWord s.fresh 2).toNat % 16)
  natLe 16 (status + gs * 2 ^ 28 + reason * 2 ^ 32 + st * 2 ^ 40 + cval.toNat * 2 ^ 64)

/-- The graph slots of a partition (R377). -/
def partSlots (s : State) (part : Nat) : List Nat :=
  (List.range (partGscnt (s.part part))).map (partGsbase (s.part part) + ·)

/-- The lowest free graph slot of a partition. -/
def freeGraphSlot (s : State) (part : Nat) : Option Nat := (partSlots s part).find? fun g => (tget s.graphs g).isNone

/-- A graph's digests are loaded on every core of its partition, which drops its clean L1 sectors of the context and evaluates
(R298, R339). -/
def loadDigests (s : State) (part ctx gs : Nat) : State :=
  (coresOf s part).foldl (fun s c =>
    (dropClean s c fun l => l.part == part && l.ctx == ctx).modCore c fun x => { x with
      digests := insertNat gs x.digests, evalDue := true }) s

/-- The launch record is written; the packet is done once that is acknowledged, or with SYNC once the launch is complete. -/
def launchWritten (p : Pkt) (rec_ : List Byte) (gs : Option Nat) (s : State) : State :=
  withRange p.q (pword p 3) 16 ⟨false, true, false⟩ (fun ps s =>
    let s := writePieces s ps 3 p.q rec_
    match gs with
    | some g => if p.flg % 2 = 1 then wqHold s p.q 4 (.launch g) false 1 else wqWritten s p.q 40
    | none => wqWritten s p.q 40) s

/-- Parameter bytes read through their pieces, those of peers from the answers in order, those of a host not known. -/
def joinPieces (s : State) (q : Nat) (ps : List (Loc × Nat)) : State × List Byte :=
  let got := ((s.remotes.filter fun m => ofQueue q m && m.2.answered).flatMap fun m => toBytes m.2.data)
  let r := ps.foldl (fun (r : State × List Byte × List Byte) p =>
    if p.1.kind = 0 then
      let x := homeRead r.1 p.1 (r.1.owner p.1.part) p.2
      (x.1, r.2.1 ++ x.2.1, r.2.2)
    else if p.1.kind = 1 then (r.1, r.2.1 ++ r.2.2.take p.2, r.2.2.drop p.2)
    else (r.1, r.2.1 ++ (List.range p.2).map (fun i => (Config.freeWord s.fresh (r.2.1.length + i)).truncate 8), r.2.2)) (s, [], got)
  (r.1, r.2.1)

/-- LAUNCH_GRAPH once its parameters are there: residency or refusal (R262, R298, R339). -/
def launchNow (p : Pkt) (params : List Byte) (s : State) : State :=
  let w := s.wq p.q
  let cval := BitVec.ofNat 64 (pword p 4)
  let refuse (s : State) (stage reason : Nat) : State := launchWritten p (launchRecord s cval stage reason none 3) none s
  match readGraph w.part w.ctx (pword p 1) s with
  | (s, .error (stage, reason)) => refuse s stage reason
  | (s, .ok (g, pads)) =>
    match freeGraphSlot s w.part with
    | none => if p.flg / 2 % 2 = 1 then wqHold s p.q 4 .slot true 0 else refuse s 255 4
    | some gs =>
      let r := createPads w.part w.ctx pads s
      match r.2 with
      | some reason => refuse { r.1 with paddocks := s.paddocks } 255 reason
      | none =>
        let g := { g with params := params, launchRec := pword p 3, cval := cval, wq := p.q }
        let s := { r.1 with graphs := tset r.1.graphs gs g }
        let s := (loadDigests s w.part w.ctx gs).modWq p.q fun w => { w with pending := w.pending + 1 }
        launchWritten p (launchRecord s cval 0 0 (some gs) 1) (some gs) s

/-- LAUNCH_GRAPH (R339). -/
def execLaunchGraph (p : Pkt) (s : State) : Result :=
  .next (onPacket p.q (fun w s =>
    if w.step = 9 then wqAnswered s p.q (fun _ s => wqDone s p.q 40)
    else
      match w.wait, w.step with
      | .launch _, _ => s
      | .remote, 2 =>
        if remoteLeft s p.q then s
        else
          let r := remoteGot s p.q
          if r.1 ≠ 0 then wqError s p.q 3 r.1
          else
            withRange p.q (pword p 2) p.arg ⟨true, false, false⟩ (fun ps s =>
              let x := joinPieces s p.q ps
              launchNow p x.2 (dropRemotes x.1 p.q)) s
      | .remote, _ => wqAnswered s p.q (fun _ s => wqDone s p.q 40)
      | _, _ =>
        sound p.q (packetFlaw (decide (p.flg < 4)) (p.arg % 8 == 0 && decide (p.arg ≤ 4096) && p.len == 5)
            (pword p 2 % 8 == 0 && pword p 3 % 16 == 0))
          (withRange p.q (pword p 3) 16 ⟨false, true, false⟩ fun _ s =>
            if p.arg = 0 then launchNow p [] s
            else
              withRange p.q (pword p 2) p.arg ⟨true, false, false⟩ (fun ps s =>
                if ps.all fun x => x.1.kind == 0 then
                  let x := joinPieces s p.q ps
                  launchNow p x.2 x.1
                else
                  let s := ps.foldl (fun s x =>
                    if x.1.kind = 1 then sendPeer s x.1.part x.1.ctx ostlerCore x.1.dest 3 p.q (.read x.1.addr x.2)
                    else if x.1.kind = 2 then sendHost s x.1 3 p.q none x.2 else s) s
                  wqHold s p.q w.state .remote true 2) s) s) s)

/-! ## The end of a launch (R34, R299, R339) -/

/-- A core has stores, atomics or dray jobs of a context outstanding (R32). -/
def coreOutstanding (s : State) (core part ctx : Nat) : Bool :=
  (s.ops.any fun o => o.2.unit.core == core && o.2.part == part && o.2.ctx == ctx && !(opWrites o.2).isEmpty) ||
    (s.reqs.any fun r => r.2.core == core && r.2.loc.part == part && r.2.loc.ctx == ctx && writeKind r.2.kind && unperformed r.2) ||
    (s.jobs.any fun j => j.2.unit.core == core && j.2.part == part && j.2.ctx == ctx)

/-- No claim and no hitch request names the graph slot: a placement that is under way ends first (R307, R308). -/
def placingDone (s : State) (gs : Nat) : Bool :=
  (s.cores.all fun c => match c.2.claim with | some x => x.1 != gs | none => true) && s.hitches.all fun h => h.2.all fun x => x.gslot != gs

/-- The launch is complete (R34). -/
def launchOver (s : State) (gs : Nat) (g : Graph) : Bool :=
  g.stages.length == g.finished.length && !g.removing &&
    (s.blocks.all fun b => b.2.gslot != gs || b.2.part != g.part || b.2.ctx != g.ctx) &&
    (s.cores.all fun c => !(c.2.events.any fun e => e.gslot == gs)) && placingDone s gs &&
    (g.ran.all fun c => !coreOutstanding s c g.part g.ctx)

/-- A core drops a graph's digests (R299). -/
def dropDigests (gs : Nat) (c : Core) : Core :=
  { c with digests := c.digests.filter (· != gs), excluded := c.excluded.filter fun x => x.1 != gs }

/-- A graph leaves its slot: its digests go, its record is written, and its queue counts it no longer. -/
def leaveSlot (s : State) (gs : Nat) (g : Graph) (status : Nat) : State :=
  let s := ctxWrite s g.part g.ctx g.launchRec (launchRecord s g.cval 0 0 (some gs) status)
  let s := { s with
    graphs := tdel s.graphs gs
    cancels := s.cancels.filter fun x => x.1 / 256 % 16 != gs
    cores := s.cores.map fun (c : Nat × Core) => (c.1, dropDigests gs c.2) }
  s.modWq g.wq fun w => { w with
    pending := w.pending - 1
    wait := if w.wait = WqWait.launch gs then .none else w.wait
    step := if w.wait = WqWait.launch gs then 9 else w.step }

/-- A sector with bytes of the graph's context that have not gone home. -/
def launchDirty (g : Graph) (x : L1Sector) : Bool := x.dirty != 0 && inList x.core g.ran && x.loc.part == g.part && x.loc.ctx == g.ctx

/-- LAUNCH_COMPLETE: STATUS 2, the host-visible completion, a release of the launch's writes: dirty bytes go home first
(R34, R339). -/
def execLaunchComplete (gslot : Nat) (s : State) : Result :=
  .next (match tget s.graphs gslot with
    | none => s
    | some g =>
      if launchOver s gslot g then
        if s.l1.any (launchDirty g) then flushL1 s (launchDirty g) else leaveSlot s gslot g 2
      else s)

end Sys2Proof.Machine
end

