-- ==== Sys2Proof/Machine/Manage.lean ====
section
/-! DEFINITION. The management queue pair: work queues, stopped units, graphs, slices, the state map, contexts (R287, R289, R299,
R343, R345, R369, R387, R397). -/

namespace Sys2Proof.Machine

/-! ## Requests and replies (R345) -/

/-- A reply still waits: for the graph it reports to leave its slot, or for the peers its request wrote to. -/
def replyHeld (s : State) (r : Reply) : Bool :=
  r.gslot != 0 || (r.id != 0 && s.remotes.any fun m => m.2.owner == 9 && m.2.id == r.id && !m.2.host && !m.2.answered)

/-- The oldest reply of a partition leaves when nothing holds it: requests are answered in order. -/
def sendReplies (part : Nat) : Nat → State → State
  | 0, s => s
  | n + 1, s =>
    match s.replies.find? fun r => r.part == part with
    | none => s
    | some r =>
      if replyHeld s r then s
      else
        sendReplies part n (emit { s with
          replies := s.replies.erase r
          remotes := s.remotes.filter fun m => !(m.2.owner == 9 && m.2.id == r.id && r.id != 0) } r.msg)

/-- Some reply may leave. -/
def repliesDue (s : State) (part : Nat) : Bool :=
  match s.replies.find? fun r => r.part == part with
  | some r => !replyHeld s r
  | none => false

/-- Replies of a partition that may leave do. -/
def flushReplies (part : Nat) (s : State) : State := sendReplies part s.replies.length s

/-- A reply takes its place. -/
def reply (s : State) (op : Nat) (m : Mgmt) (result q1 gslot id : Nat) : State :=
  flushReplies m.part { s with replies := s.replies ++ [⟨m.part, gslot, id, .mgmt m.part op result m.tag q1⟩] }

/-- A request that arrives: before READY it is turned away (R392); only an open connection brings any; a malformed one is answered
with 1 (R345). -/
def onRequest (m : Mgmt) (k : State → State) (s : State) : State :=
  if s.phase ≠ .ready ∨ s.ostler = false then emit s (.rnr m.part 256)
  else if (s.hostQp m.part 256).open_ = false then s
  else
    match m.odd with
    | some op => reply s op m 1 0 0 0
    | none => k s

/-- A request answered at once with a RESULT and the state it leaves. -/
def managed (op : Nat) (m : Mgmt) (k : State → State × Nat) : State → State :=
  onRequest m fun s => let r := k s; reply r.1 op m r.2 0 0 0

/-! ## Work queues (R330, R345) -/

/-- CURSEG: the base of level 0. -/
def curSeg (w : WorkQueue) : Nat := (w.levels.getLast?.map Level.base).getD 0

/-- A descriptor anew: of what it held the fields stay that R330 does not list, and CURSEG. -/
def WorkQueue.blank (w : WorkQueue) : WorkQueue :=
  { WorkQueue.init with pending := w.pending, ecode := w.ecode, erradr := w.erradr, levels := [⟨0, curSeg w, 0, 0, 0, 0⟩] }

/-- The descriptor WQ_CONFIG writes: with EN the stream begins at BASE; a queue of a context that does not run sits in STATE 7 (R330, R343). -/
def wqNew (s : State) (m : Mgmt) (w : WorkQueue) : WorkQueue :=
  let c := m.q4 / 2 ^ 8 % 2 ^ 6
  let en := m.q4 / 2 ^ 32 % 2 == 1
  let runs := tget s.running m.part == some c
  { w.blank with
    base := m.q2, evt := m.q3, seglog := m.q4 / 2 ^ 16 % 16
    ctx := c, part := m.part, en := en
    state := if en = false then 0 else if runs then 1 else 7
    paused := if en = true ∧ runs = false then 1 else 0
    levels := [⟨0, if en then m.q2 else curSeg w, 2 ^ (m.q4 / 2 ^ 16 % 16), 0, 0, 0⟩] }

/-- WQ_CONFIG (R330, R378). -/
def wqConfigOf (m : Mgmt) (s : State) : State × Nat :=
  let w := s.wq m.q1
  let seg := m.q4 / 2 ^ 16 % 16
  if 8192 ≤ m.q1 then (s, 2)
  else if m.q4 % 8 ≠ m.part then (s, 3)
  else if w.state ≠ 0 ∧ w.part ≠ m.part then (s, 3)
  else if !(m.q4 / 2 ^ 3 % 32 == 0 && m.q4 / 2 ^ 14 % 4 == 0 && m.q4 / 2 ^ 20 % 2 ^ 12 == 0 && decide (m.q4 < 2 ^ 33)) then (s, 1)
  else if seg < 12 ∨ m.q2 % 2 ^ seg ≠ 0 ∨ m.q3 % 4096 ≠ 0 then (s, 1)
  else if !inList w.state [0, 1, 5, 6] then (s, 1)
  else ((dropRemotes s m.q1).modWq m.q1 (wqNew s m), 0)

def execWqConfig (m : Mgmt) (s : State) : Result := .next (managed 1 m (wqConfigOf m) s)

/-- A queue stops before its next packet: waits of STATE 4 are kept, a wait on memory is tested again (R344, R345). -/
def WorkQueue.stopNow (w : WorkQueue) : WorkQueue :=
  if w.busy then { w with stopReq := true }
  else if w.state = 5 ∨ w.state = 6 then w
  else
    let st := realState w
    { w with state := 6, paused := if st = 3 then 2 else st, wait := if st = 3 then .none else w.wait }

/-- A queue of the partition that is configured, or the RESULT that says why not. -/
def withWq (m : Mgmt) (k : WorkQueue → State → State × Nat) (s : State) : State × Nat :=
  let w := s.wq m.q1
  if 8192 ≤ m.q1 then (s, 2)
  else if w.state = 0 then (s, if (tget s.wqs m.q1).isSome ∧ w.part = m.part then 5 else 2)
  else if w.part ≠ m.part then (s, 3)
  else k w s

def execWqStop (m : Mgmt) (s : State) : Result :=
  .next (managed 2 m (withWq m fun _ s => (s.modWq m.q1 WorkQueue.stopNow, 0)) s)

/-- A stopped queue runs on: the packet again, or the one after it; a wait of STATE 4 goes on; ERR is cleared (R344, R345). -/
def WorkQueue.resumed (w : WorkQueue) (skip runs : Bool) : WorkQueue :=
  let waits := w.state == 6 && w.paused == 4
  let st := if waits && !skip then 4 else if w.levels.length = 1 ∧ w.headp = w.tail then 1 else 2
  { w with
    err := 0
    state := if runs then st else 7
    paused := if runs then 0 else st
    wait := if waits && !skip then w.wait else .none
    step := if waits && !skip then w.step else 0
    busy := false, stopReq := false
    skip := if skip then resumeSkip else w.skip
    lines := w.lines.filter fun x => (w.levels.reverse.map Level.kind).getD x.level 0 == 2 }

def execWqResume (m : Mgmt) (s : State) : Result :=
  .next (managed 3 m (withWq m fun w s =>
    if 2 ≤ m.q2 then (s, 1)
    else if w.state ≠ 5 ∧ w.state ≠ 6 then (s, 5)
    else ((dropRemotes s m.q1).modWq m.q1 fun w => w.resumed (m.q2 == 1) (tget s.running w.part == some w.ctx), 0)) s)

/-! ## Units (R287, R289) -/

/-- The unit a request names. -/
def targetUnit (q1 : Nat) : UnitId :=
  let coach := q1 / 2 ^ 18 % 2 == 1
  ⟨q1 % 256, q1 / 256 % 16, if coach then 0 else q1 / 2 ^ 12 % 64, coach⟩

/-- How a unit stands; none where there is none. -/
def unitStatus (s : State) (u : UnitId) : Option UnitStatus :=
  if (tget s.blocks (blockKey u)).isNone then none
  else if u.coach then (tget s.coaches (blockKey u)).map Coach.status else (tget s.teams (teamKey u)).map Team.status

/-- Run k on the unit a request names, in its own partition. -/
def withUnit (m : Mgmt) (k : UnitId → UnitStatus → State → State × Nat) (s : State) : State × Nat :=
  let u := targetUnit m.q1
  if 2 ^ 19 ≤ m.q1 then (s, 1)
  else if 192 ≤ u.core then (s, 2)
  else if partOfCore s u.core ≠ some m.part then (s, 3)
  else
    match unitStatus s u with
    | none => (s, 2)
    | some st => k u st s

/-- A record delivered at the stop is cleared as a return to the WAIT clears it (R71, R252, R286). -/
def StopRec.delivered (r : StopRec) : Option Nat :=
  let e := (r.words.getD 3 0).toNat
  if e / 2 ^ 14 % 2 = 1 then some (e / 2 ^ 10 % 16) else none

/-- A stopped team goes on where its record has it, in the mode of the stop; one that stopped in U mode at a WAIT returns to it (R286,
R287). -/
def Team.resumed (t : Team) : Team :=
  match t.stop with
  | none => t
  | some r =>
    { (if t.priv then t else t.returned r.pkt r.slot) with
      status := .running, stop := none, blocked := false, pkt := r.pkt, slot := r.slot }

def Coach.resumed (c : Coach) : Coach :=
  match c.stop with
  | none => c
  | some r =>
    { c with
      status := .running, stop := none, blocked := false
      flags := match r.delivered with
        | some f => tset c.flags f ⟨((tget c.flags f).getD ⟨0, none⟩).count, none⟩
        | none => c.flags }

/-- UNIT_RESUME: a stopped unit goes on where it stopped, in the mode of the stop (R287). -/
def execUnitResume (m : Mgmt) (s : State) : Result :=
  .next (managed 4 m (withUnit m fun u st s =>
    if st.isStopped = false then (s, 5)
    else if u.coach then ({ s with coaches := tset s.coaches (blockKey u) ((tget s.coaches (blockKey u)).getD Coach.init).resumed }, 0)
    else (s.modUnit u Team.resumed, 0)) s)

/-- A unit ends, a team with its block marked: it departs from its barriers; its guards are released afterwards (R29, R197, R207). -/
def killUnit (s : State) (u : UnitId) : State :=
  let s := if u.coach then s else s.modBlockAt (blockKey u) fun b => { b with killed := true }
  let s :=
    if u.coach then
      { s with coaches := tset s.coaches (blockKey u)
                 { (tget s.coaches (blockKey u)).getD Coach.init with status := .terminated, stop := none, wait := .none, ibuf := none } }
    else s.modUnit u fun t => { t with status := .terminated, stop := none, waits := [], ibuf := none }
  departAll s u

/-- UNIT_TERMINATE (R287). -/
def execUnitTerminate (m : Mgmt) (s : State) : Result :=
  .next (managed 5 m (withUnit m fun u st s => if st.isStopped then (killUnit s u, 0) else (s, 5)) s)

/-- UNIT_HALT: the team stops at its next packet boundary with 62 (R289). -/
def execUnitHalt (m : Mgmt) (s : State) : Result :=
  .next (managed 6 m (withUnit m fun u st s =>
    if u.coach then (s, 1)
    else match st with
      | .running => (s.modUnit u fun t => { t with halt := true, blocked := false }, 0)
      | .stopped => (s, 5)
      | .exited => (s, 5)
      | .terminated => (s, 5)) s)

/-! ## Removing a graph (R299, R345) -/

/-- Blocks of a graph on the cores. -/
def blocksOf (s : State) (gs : Nat) : List (Nat × Block) := s.blocks.filter fun b => b.2.gslot == gs && !b.2.retired

/-- A unit that has not ended. -/
def unitLive (st : UnitStatus) : Bool := !unitOver st

/-- The units of a block that have not ended. -/
def liveUnits (s : State) (key : Nat) : List UnitId :=
  ((s.teams.filter fun t => t.1 / 64 == key && unitLive t.2.status).map fun t => ⟨key / 16, key % 16, t.1 % 64, false⟩) ++
    (match tget s.coaches key with
    | some c => if unitLive c.status then [⟨key / 16, key % 16, 0, true⟩] else []
    | none => [])

/-- The units of a graph's blocks that are placed and have not ended. -/
def graphUnits (s : State) (gs : Nat) : List UnitId := ((blocksOf s gs).filter fun b => !b.2.aside).flatMap fun b => liveUnits s b.1

/-- Every block of a graph has retired, on the cores and in what switched-out contexts have saved, and none is on its way. -/
def graphGone (s : State) (gs : Nat) : Bool :=
  (s.blocks.all fun b => b.2.gslot != gs) && (s.saved.all fun v => v.2.blocks.all fun b => b.2.gslot != gs) &&
    placingDone s gs

/-- An event that outlives its graph's slot names none. -/
def eventLoose (gs : Nat) (e : HeldEvent) : HeldEvent := if e.gslot = gs then { e with gslot := 16 } else e

def coreLoose (gs : Nat) (c : Nat × Core) : Nat × Core := (c.1, { c.2 with events := c.2.events.map (eventLoose gs) })
def savedLoose (gs : Nat) (v : Nat × Saved) : Nat × Saved := (v.1, { v.2 with events := v.2.events.map (eventLoose gs) })

/-- A removal moves on: units of the graph's blocks are terminated, and once every block has retired the slot frees with
STATUS 4 and the request is answered. -/
def sweepGraph (gs : Nat) (s : State) : State :=
  match tget s.graphs gs with
  | none => s
  | some g =>
    if g.removing = false then s
    else if (graphUnits s gs).isEmpty = false then (graphUnits s gs).foldl killUnit s
    else if graphGone s gs = false then s
    else
      let s := leaveSlot s gs g 4
      flushReplies g.part { s with
        cores := s.cores.map (coreLoose gs)
        saved := s.saved.map (savedLoose gs)
        replies := s.replies.map fun r => if r.gslot = gs + 1 then { r with gslot := 0 } else r }

/-- A removal has something to do. -/
def sweepDue (s : State) (gs : Nat) : Bool :=
  match tget s.graphs gs with
  | some g => g.removing && (!(graphUnits s gs).isEmpty || graphGone s gs)
  | none => false

/-- GRAPH_REMOVE: answered when the slot is free (R345). -/
def execGraphRemove (m : Mgmt) (s : State) : Result :=
  .next (onRequest m (fun s =>
    if 16 ≤ m.q1 then reply s 7 m 2 0 0 0
    else if !inList m.q1 (partSlots s m.part) then reply s 7 m 3 0 0 0
    else
      match tget s.graphs m.q1 with
      | none => reply s 7 m 2 0 0 0
      | some g => sweepGraph m.q1 (reply { s with graphs := tset s.graphs m.q1 { g with removing := true } } 7 m 0 0 (m.q1 + 1) 0)) s)

/-- SLICE_SET (R343). -/
def execSliceSet (m : Mgmt) (s : State) : Result :=
  .next (managed 8 m (fun s =>
    if m.q1 < 1750 ∨ 2 ^ 32 ≤ m.q1 then (s, 1) else ({ s with sliceLen := tset s.sliceLen m.part m.q1 }, 0)) s)

/-! ## The state map (R396, R397) -/

/-- STATE_READ. -/
def execStateRead (m : Mgmt) (s : State) : Result :=
  .next (onRequest m (fun s =>
    match mapRead s m.q1 with
    | none => reply s 9 m 2 0 0 0
    | some (p, _, w) => if p = m.part ∨ p = 8 then reply s 9 m 0 w.toNat 0 0 else reply s 9 m 3 0 0 0) s)

/-- What a context has saved, with a word of a state that showed it put back. -/
def Saved.take (v : Saved) (s : State) : Saved :=
  { v with teams := s.teams, blocks := s.blocks, coaches := s.coaches, spad := s.spad, chains := s.chains }

/-- A word of a switched-out context written where it was saved. -/
def writeSaved (s : State) (idx : Nat) (w : DWord) : Option State :=
  (s.saved.find? fun v => (mapLive (savedView s v.2) idx).isSome).bind fun v =>
    (writeMapUnit (savedView s v.2) true idx w).map fun s' => { s with saved := tset s.saved v.1 (v.2.take s') }

/-- The head of a partition's log written: records before it are consumed (R394). -/
def writeHeadOf (s : State) (part v : Nat) : State × Nat :=
  let l := (tget s.raslogs part).getD emptyLog
  if v < l.head ∨ l.tail < v then (s, 1) else ({ s with raslogs := tset s.raslogs part { l with head := v } }, 0)

/-- STATE_WRITE (R397). -/
def stateWriteOf (m : Mgmt) (s : State) : State × Nat :=
  match mapRead s m.q1 with
  | none => (s, 2)
  | some (p, _, _) =>
    if p ≠ m.part ∧ p ≠ 8 then (s, 3)
    else if mapArea m.q1 < 2 then
      (match (if (mapLive s m.q1).isSome then writeMapUnit s false m.q1 (BitVec.ofNat 64 m.q2)
        else writeSaved s m.q1 (BitVec.ofNat 64 m.q2)) with
      | some s' => (s', 0)
      | none => (s, 5))
    else if mapArea m.q1 = 7 ∧ mapItem m.q1 = 0x11000 + 0x800 * m.part then writeHeadOf s m.part m.q2
    else (s, 5)

def execStateWrite (m : Mgmt) (s : State) : Result := .next (managed 0x16 m (stateWriteOf m) s)

/-! ## Contexts (R369, R387) -/

def ctxKey (part c : Nat) : Nat := part * 64 + c

/-- The seed flush of a context (R369): pending reduce-adds applied, its lines written back and dropped, its walk-cache pointers
gone. -/
def seedFlush (s : State) (part c : Nat) : State :=
  let s := (List.range 192).foldl (fun s sl =>
    ((redAt s sl).filter fun r => r.loc.part == part && r.loc.ctx == c).foldl (fun s r =>
      settleRed s sl (r.loc.addr / 128) (r.loc.addr / 128 * 128) 128) s) s
  let mine (x : Nat × Line) : Bool := x.2.ctxp == ctxKey part c
  let s := (s.l2.filter mine).foldl (fun s x => writeBackLine s x.2) s
  { s with
    l2 := s.l2.filter fun x => !mine x
    wcache := s.wcache.filter fun w => !(w.part == part && w.ctx == c) }

/-- The stash pages of a block translated anew. -/
def remapStash (part c : Nat) (e : Nat × StashSlot) (s : State) : State × (Nat × StashSlot) :=
  let r := e.2.pages.foldl (fun (r : State × List (Nat × Loc)) pg =>
    let q := ctxLoc r.1 part c (pg.1 * 65536)
    (q.1, match q.2 with
      | some l => r.2 ++ [(pg.1, l)]
      | none => r.2)) (s, [])
  (r.1, (e.1, { e.2 with pages := r.2 }))

def remapBlock (part c : Nat) (b : Nat × Block) (s : State) : State × (Nat × Block) :=
  let r := b.2.stash.foldl (fun (r : State × Tab StashSlot) e =>
    let q := remapStash part c e r.1
    (q.1, r.2 ++ [q.2])) (s, [])
  (r.1, (b.1, { b.2 with stash := r.2 }))

/-- The stash pages of what a switched-out context has saved translated anew. -/
def remapSaved (s : State) (part c : Nat) : State :=
  (s.saved.filter fun v => v.1 / 64 % 8 == part && v.1 % 64 == c).foldl (fun s v =>
    let r := v.2.blocks.foldl (fun (r : State × Tab Block) b =>
      let q := remapBlock part c b r.1
      (q.1, r.2 ++ [q.2])) (s, [])
    { r.1 with saved := tset r.1.saved v.1 { v.2 with blocks := r.2 } }) s

/-- A context's fields written; what its seed and its root change acts first. -/
def putCtx (s : State) (part c : Nat) (x : Ctx) : State :=
  let old := tget s.ctxs (ctxKey part c)
  let s := if old.map Ctx.hseed = some x.hseed then s else seedFlush s part c
  let s := { s with ctxs := tset s.ctxs (ctxKey part c) x }
  if old.map Ctx.ptbase = some x.ptbase then s else remapSaved (shootDown s part c fun _ _ => true) part c

/-- CTX_SET (R387); a page-table root or a handler base that is no legal one is malformed (R282, R316). -/
def ctxSetOf (m : Mgmt) (s : State) : State × Nat :=
  if 64 ≤ m.q1 ∨ 2 ^ 33 ≤ m.q6 ∨ m.q2 % 2 ^ 21 ≠ 0 ∨ 2 ^ 39 ≤ m.q2 ∨ m.q5 % 64 ≠ 0 then (s, 1)
  else if s.stacksDown.any (fun g => partHas (s.part m.part) g) then (s, 5)
  else if (tget s.ctxs (ctxKey m.part m.q1)).isSome = true ∧ tget s.running m.part = some m.q1 then (s, 5)
  else (putCtx s m.part m.q1 ⟨m.q2, m.q3, m.q4, m.q5, m.q6 % 2 ^ 32, m.q6 / 2 ^ 32, m.q7⟩, 0)

def execCtxSet (m : Mgmt) (s : State) : Result := .next (managed 0x10 m (ctxSetOf m) s)

/-- A context may be removed: no resident graph, every queue in STATE 0 (R387). -/
def ctxIdle (s : State) (part c : Nat) : Bool :=
  (s.graphs.all fun g => g.2.part != part || g.2.ctx != c) && (s.wqs.all fun q => q.2.part != part || q.2.ctx != c || q.2.state == 0) &&
    tget s.switching part != some c

/-- CTX_DEL (R387). -/
def ctxDelOf (m : Mgmt) (s : State) : State × Nat :=
  if 64 ≤ m.q1 then (s, 1)
  else if (tget s.ctxs (ctxKey m.part m.q1)).isNone then (s, 2)
  else if !ctxIdle s m.part m.q1 then (s, 5)
  else
    let s := shootDown s m.part m.q1 fun _ _ => true
    ({ s with
      ctxs := tdel s.ctxs (ctxKey m.part m.q1)
      saved := s.saved.filter fun v => !(v.1 / 64 % 8 == m.part && v.1 % 64 == m.q1)
      queueLocs := s.queueLocs.filter fun l => l.part != m.part || l.ctx != m.q1
      running := if tget s.running m.part = some m.q1 then tdel s.running m.part else s.running }, 0)

def execCtxDel (m : Mgmt) (s : State) : Result := .next (managed 0x11 m (ctxDelOf m) s)

/-! ## Connections (R345, R362, R379) -/

/-- CONNECTION_EXCHANGE: the management queue pair accepts only its endpoint. -/
def execConnectionExchange (c : Conn) (s : State) : Result :=
  .next (
    if s.phase ≠ .ready then emit s (.rnr c.part c.qp)
    else
      let e := s.part c.part
      if partV e = true ∧ (c.qp < 256 ∨ (c.qp = 256 ∧ c.mgid = partMgid e ∧ c.qpn = partMqpn e)) then
        emit (s.modQp c.part c.qp fun _ => ⟨true, 0, false, c.qpn, []⟩) (.accept c.part c.qp)
      else emit s (.reject c.part c.qp))

end Sys2Proof.Machine
end

