-- ==== Sys2Proof/Machine/Sha256.lean ====
section
/-! DEFINITION. SHA-256 (FIPS 180-4), which R382 to R385 name: bytes in, 32 bytes out. -/

namespace Sys2Proof.Machine

/-! ## Constants: the first 32 bits of the fractional parts of square roots (the start value) and cube roots (the round constants) of the
first primes -/

/-- The greatest x below 2^n, above what `x` has already, whose k-th power does not pass y. -/
def rootBits (k y : Nat) : Nat → Nat → Nat
  | 0, x => x
  | n + 1, x => rootBits k y n (if (x + 2 ^ n) ^ k ≤ y then x + 2 ^ n else x)

/-- The first 32 bits of the fraction of the k-th root of p. -/
def rootFraction (k p : Nat) : Word := BitVec.ofNat 32 (rootBits k (p * 2 ^ (32 * k)) 40 0)

/-- The first 64 primes. -/
def smallPrimes : List Nat := (List.range 312).filter fun p => decide (2 ≤ p) && (List.range 18).all fun d => decide (d < 2) || decide (p ≤ d) || p % d != 0

def shaStart : List Word := (smallPrimes.take 8).map (rootFraction 2)
def shaKeys : List Word := smallPrimes.map (rootFraction 3)

/-! ## The compression function -/

/-- The eight working words. -/
structure ShaVars where
  a : Word
  b : Word
  c : Word
  d : Word
  e : Word
  f : Word
  g : Word
  h : Word
deriving DecidableEq, Repr

def ShaVars.ofList (l : List Word) : ShaVars :=
  ⟨l.getD 0 0, l.getD 1 0, l.getD 2 0, l.getD 3 0, l.getD 4 0, l.getD 5 0, l.getD 6 0, l.getD 7 0⟩

def ShaVars.toList (v : ShaVars) : List Word := [v.a, v.b, v.c, v.d, v.e, v.f, v.g, v.h]

/-- A word turned right by two amounts, and turned or, for a schedule, shifted by a third; the three are added without carry. -/
def threeTurns (x : Word) (i j : Nat) (last : Word) : Word := x.rotateRight i ^^^ (x.rotateRight j ^^^ last)

/-- One round with the sum of a round constant and a schedule word: f or g as e chooses, and the majority of a, b, c. -/
def ShaVars.round (v : ShaVars) (kw : Word) : ShaVars :=
  let choice := v.g ^^^ (v.e &&& (v.f ^^^ v.g))
  let most := (v.a &&& (v.b ||| v.c)) ||| (v.b &&& v.c)
  let x := v.h + kw + choice + threeTurns v.e 6 11 (v.e.rotateRight 25)
  { v with
    h := v.g, g := v.f, f := v.e, e := v.d + x
    d := v.c, c := v.b, b := v.a, a := x + (most + threeTurns v.a 2 13 (v.a.rotateRight 22)) }

/-- The rounds, with the sixteen schedule words from the present one on: each round takes the first and finds the word sixteen later. -/
def shaRounds : List Word → List Word → ShaVars → ShaVars
  | [], _, v => v
  | k :: ks, win, v =>
    let at_ (i : Nat) : Word := win.getD i 0
    let later := at_ 9 + (threeTurns (at_ 1) 7 18 (at_ 1 >>> 3) + (at_ 0 + threeTurns (at_ 14) 17 19 (at_ 14 >>> 10)))
    shaRounds ks (win.drop 1 ++ [later]) (v.round (k + at_ 0))

/-- One block of sixteen words added to the hash so far. -/
def shaBlock (hash block : List Word) : List Word :=
  List.zipWith (· + ·) hash (shaRounds shaKeys block (ShaVars.ofList hash)).toList

/-! ## Messages -/

/-- Four bytes as a word, the first the highest. -/
def wordHigh (bs : List Nat) : Word := BitVec.ofNat 32 (bs.foldl (fun x b => x * 256 + b % 256) 0)

/-- The message with its padding: 80 hex, zeros, and its length in bits as 8 bytes, big end first. -/
def shaPad (bs : List Nat) : List Nat :=
  bs ++ 128 :: (List.replicate ((119 - bs.length % 64) % 64) 0 ++ (ofBytes (natLe 8 (8 * bs.length))).reverse)

/-- SHA-256 of a byte string. -/
def sha256 (bs : List Nat) : List Nat :=
  let msg := shaPad bs
  let block (k : Nat) : List Word := (List.range 16).map fun i => wordHigh ((msg.drop (64 * k + 4 * i)).take 4)
  let hash := (List.range (msg.length / 64)).foldl (fun h k => shaBlock h (block k)) shaStart
  hash.flatMap fun w => (List.range 4).map fun i => w.toNat / 256 ^ (3 - i) % 256

end Sys2Proof.Machine
end

