-- ==== Sys2Proof/Machine/Secure.lean ====
section
/-! DEFINITION. Ownership: images, measurement, attestation, key slots, signed commands (R379 to R389). -/

namespace Sys2Proof.Machine

/-! ## Bytes -/

def leOf (h : List Nat) (lo n : Nat) : Nat := leNat (toBytes ((h.drop lo).take n))
def allZero (bs : List Nat) : Bool := bs.all (· == 0)
def numBytes (n x : Nat) : List Nat := ofBytes (natLe n x)

/-- n bytes of a context on pages of the package; none where a page fails, lies elsewhere or holds poison. -/
def ctxBytes (s : State) (part c va n : Nat) : State × Option (List Nat) :=
  let r := ctxRange s part c va n ⟨true, false, false⟩
  if r.2.1.isSome || !(r.2.2.all fun p => p.1.kind == 0) then (r.1, none)
  else
    r.2.2.foldl (fun (q : State × Option (List Nat)) p =>
      match q.2 with
      | none => q
      | some bs =>
        let x := homeRead q.1 p.1 (q.1.owner p.1.part) p.2
        (x.1, if x.2.2 then none else some (bs ++ ofBytes x.2.1))) (r.1, some [])

/-- Run k on a range of a context that exists; 2 for an absent context, 1 for a number that is none or a range that cannot be read. -/
def withBytes (m : Mgmt) (c va n : Nat) (k : List Nat → State → State × Nat) (s : State) : State × Nat :=
  if 64 ≤ c then (s, 1)
  else if (tget s.ctxs (ctxKey m.part c)).isNone then (s, 2)
  else
    let r := ctxBytes s m.part c va n
    match r.2 with
    | none => (r.1, 1)
    | some bs => k bs r.1

/-! ## Images (R382 to R384) -/

def sigLen : Nat := 7856

/-- The farrier accepts an image (R383): its header, body and signatures. The body is hashed last. -/
def imageGood (s : State) (i : FlashImage) : Bool :=
  let h := i.header
  h.length == 128 && leOf h 0 4 == 0x474D495A && (leOf h 4 2 == 1 || leOf h 4 2 == 2) && decide (leOf h 6 1 < 2) && leOf h 7 1 == 0 &&
    allZero (h.drop 80) && leOf h 12 4 % 64 == 0 && decide (64 ≤ leOf h 12 4) && decide (leOf h 12 4 ≤ 67108864) &&
    i.body.length == leOf h 12 4 && decide ((tget s.minver (leOf h 4 2)).getD 0 ≤ leOf h 8 4) &&
    (!s.owned || (h.drop 48).take 32 == s.ownerKh) && Config.verify Config.makerKey h i.makerSig &&
    (!s.owned || Config.verify s.ownerKey h i.ownerSig) && sha256 i.body == (h.drop 16).take 32

/-- An image becomes active: BOOTM is extended, and with FLOOR the rollback floor rises (R383, R384). -/
def activate (s : State) (i : FlashImage) : State :=
  { s with
    bootm := sha256 (s.bootm ++ sha256 i.header)
    minver := if leOf i.header 6 1 % 2 = 1 then tset s.minver (leOf i.header 4 2) (leOf i.header 8 4) else s.minver }

/-- Where the flash holds the image of a TYPE in a set: 0 A, 1 B (R382). -/
def flashKey (set type : Nat) : Nat := set * 4 + type

/-- The farrier loads the image of a TYPE: set A, then set B; a failure is logged as 374 (R382, R383). -/
def loadImage (s : State) (type : Nat) : State × Bool :=
  [0, 1].foldl (fun (r : State × Bool) set =>
    if r.2 then r
    else
      match tget r.1.flash (flashKey set type) with
      | none => (logRas r.1 8 374 set 0 63, false)
      | some i =>
        if imageGood r.1 i && leOf i.header 4 2 == type then (activate r.1 i, true) else (logRas r.1 8 374 set 0 63, false)) (s, false)

/-- IMG_LOAD: the same steps on an image in memory, which then stands in the flash and becomes active at the next reset. -/
def imgLoadOf (m : Mgmt) (s : State) : State × Nat :=
  if 2 ≤ m.q3 then (s, 1)
  else
    withBytes m m.q4 m.q1 m.q2 (fun bs s =>
      let n := m.q2 - 128 - 2 * sigLen
      let i : FlashImage := ⟨bs.take 128, (bs.drop 128).take n, (bs.drop (128 + n)).take sigLen, (bs.drop (128 + n + sigLen)).take sigLen⟩
      if decide (128 + 2 * sigLen ≤ m.q2) && imageGood s i then
        ({ s with flash := tset s.flash (flashKey m.q3 (leOf i.header 4 2)) i }, 0)
      else (logRas s 8 374 m.q3 0 63, 4)) s

def execImgLoad (m : Mgmt) (s : State) : Result := .next (managed 0x12 m (imgLoadOf m) s)

/-! ## Attestation (R385) -/

/-- n bytes of a list, zeros beyond its end. -/
def padTo (n : Nat) (bs : List Nat) : List Nat := (bs ++ List.replicate n 0).take n

/-- The report, bytes 0 to 255. -/
def reportBody (s : State) (m : Mgmt) : List Nat :=
  numBytes 8 m.q1 ++ numBytes 8 m.q2 ++ numBytes 8 m.q3 ++ numBytes 8 m.q4 ++ padTo 32 Config.devid ++ padTo 32 s.bootm ++
    padTo 32 ((tget s.partm m.part).getD []) ++ (if s.owned then padTo 32 s.ownerKh else List.replicate 32 0) ++
    sha256 (numBytes 64 (s.part m.part)) ++ numBytes 8 s.epoch ++ numBytes 8 s.clock ++ numBytes 2 m.part ++ List.replicate 46 0

def report (s : State) (m : Mgmt) : List Nat := reportBody s m ++ padTo sigLen (Config.sign (reportBody s m))

/-- ATTEST: the reply follows the write of the report, to a peer too (R385, R387). -/
def execAttest (m : Mgmt) (s : State) : Result :=
  .next (onRequest m (fun s =>
    if m.q5 % 64 ≠ 0 ∨ 64 ≤ m.q6 then reply s 0x13 m 1 0 0 0
    else if (tget s.ctxs (ctxKey m.part m.q6)).isNone then reply s 0x13 m 2 0 0 0
    else
      let r := ctxRange s m.part m.q6 m.q5 8112 ⟨false, true, false⟩
      match r.2.1 with
      | some _ => reply r.1 0x13 m 1 0 0 0
      | none =>
        let id := r.1.nextOp
        let s := writePieces { r.1 with nextOp := id + 1 } r.2.2 9 id (toBytes (report r.1 m))
        reply s 0x13 m 0 0 0 id) s)

/-! ## Key slots (R380, R381) -/

/-- KEY_RETAIN. -/
def execKeyRetain (m : Mgmt) (s : State) : Result :=
  .next (managed 0x14 m (fun s =>
    if 2 ≤ m.q1 then (s, 1)
    else
      let k := partKslot (s.part m.part)
      match tget s.keys k with
      | none => (s, 2)
      | some x => ({ s with keys := tset s.keys k { x with retain := m.q1 == 1 } }, 0)) s)

/-- The on-chip arrays of the cores, slices and clusters that p holds of, cleared: nothing is written back (R380, R389, R390). -/
def wipeCores (s : State) (p : Nat → Bool) : State :=
  let core (n : Nat) (k : Nat) : Bool := !p (k / n)
  let local_ (m : List Host.Cell) (n : Nat) : List Host.Cell := m.filter fun x => core n x.1
  { s with
    teams := s.teams.filter fun x => core 1024 x.1
    chains := s.chains.filter fun x => core 1024 x.1
    blocks := s.blocks.filter fun x => core 16 x.1
    coaches := s.coaches.filter fun x => core 16 x.1
    cores := s.cores.filter fun x => core 1 x.1
    spad := local_ s.spad (2 ^ 20)
    acc := local_ s.acc (2 ^ 18)
    wbuf := local_ s.wbuf (2 ^ 18)
    spadPois := s.spadPois.filter (core (2 ^ 20))
    accPois := s.accPois.filter (core (2 ^ 18))
    wbufPois := s.wbufPois.filter (core (2 ^ 18))
    l1 := s.l1.filter fun x => !p x.core
    tables := s.tables.filter fun x => core 8 x.1
    tabCur := s.tabCur.filter fun x => core 4 x.1
    curTeam := s.curTeam.filter fun x => core 4 x.1
    ops := s.ops.filter fun x => !p x.2.unit.core
    reqs := s.reqs.filter fun x => !p x.2.core
    jobs := s.jobs.filter fun x => !p x.2.unit.core
    mops := s.mops.filter fun x => !p x.2.core
    tlb := s.tlb.filter fun x => !p x.holder
    ctlb := s.ctlb.filter fun x => !p (x.holder * 8)
    wcache := s.wcache.filter fun x => !p (x.cluster * 8)
    walks := s.walks.filter fun x => !p (x.2.cluster * 8)
    l2 := s.l2.filter fun x => core 8192 x.1
    redbuf := s.redbuf.filter fun x => core 1 x.1
    redOvf := s.redOvf.filter (core 1)
    wtree := s.wtree.filter fun x => core 1 x.1
    spadOwn := s.spadOwn.filter fun x => !p (x.1 / 16384 % 256) }

/-- The stack groups of an entry, as a test on cores. -/
def coresIn (e : Nat) (core : Nat) : Bool := partV e && partHas e (groupOf core)

/-- A slot's key is zeroised and a new one generated for a partition: its arrays are cleared and its PARTM is zero (R380, R384). -/
def regenerate (s : State) (slot part : Nat) : State :=
  let keep := ((tget s.keys slot).map KeySlot.retain).getD false
  let s := { s with
    keys := tset s.keys slot ⟨true, keep, part, s.nextKey⟩
    nextKey := s.nextKey + 1
    partm := tset s.partm part (List.replicate 32 0)
    paddocks := s.paddocks.filter fun p => p.part != part
    queueLocs := s.queueLocs.filter fun l => l.part != part }
  wipeCores s (coresIn (s.part part))

/-! ## Signed commands (R388) -/

/-- No partition holds a context, but the one the blob itself is read through, which must be idle as for CTX_DEL: with that one counted
no such command could ever run (log 13). -/
def noContexts (m : Mgmt) (s : State) : Bool := (s.ctxs.all fun c => c.1 == ctxKey m.part m.q3) && ctxIdle s m.part m.q3
def partContexts (s : State) (part : Nat) : Bool := s.ctxs.any fun c => c.1 / 64 == part

/-- The parts of a blob: OP, SEQ, DEVID, body, signed message, signature. -/
structure Blob where
  op : Nat
  seq : Nat
  devid : List Nat
  body : List Nat
  message : List Nat
  sig : List Nat
deriving DecidableEq, Repr

/-- A blob taken apart; none when its shape is wrong. -/
def blobOf (bs : List Nat) : Option Blob :=
  let n := leOf bs 48 4
  if bs.length = 64 + n + sigLen ∧ allZero ((bs.drop 4).take 4) = true ∧ allZero ((bs.drop 52).take 12) = true then
    some ⟨leOf bs 0 4, leOf bs 8 8, (bs.drop 16).take 32, (bs.drop 64).take n, bs.take (64 + n), bs.drop (64 + n)⟩
  else none

/-- The key a blob is verified with. -/
def blobKey (s : State) (b : Blob) : List Nat :=
  if b.op = 3 then b.body else if b.op = 4 then Config.makerKey else s.ownerKey

/-- Ownership allows the command (R389): CLAIM when UNOWNED, OWN_XFER and RELEASE when OWNED. -/
def ownerAllows (s : State) (op : Nat) : Bool := if op = 3 then !s.owned else if op = 2 ∨ op = 4 then s.owned else true

/-- A blob is accepted for verification: this package's, above the sequence counter, with a good signature. The owner's own
commands have no key on an unowned package. -/
def blobGood (s : State) (b : Blob) : Bool :=
  b.devid == padTo 32 Config.devid && decide (s.seqCtr < b.seq) && (s.owned || b.op == 3 || b.op == 4) &&
    Config.verify (blobKey s b) b.message b.sig

/-- A signed command of a row: only a blob of that OP is the row's, or one of no OP at all, which is malformed. -/
def signedRow (op : Nat) (m : Mgmt) (k : Blob → State → State × Nat) (s : State) : State :=
  let mine := match (withBytes m m.q3 m.q1 m.q2 (fun bs s => (s, match blobOf bs with
    | some b => if decide (1 ≤ b.op) && decide (b.op ≤ 5) && b.op != op then 100 else 0
    | none => 0)) s).2 with
    | 100 => false
    | _ => true
  if m.odd = none ∧ mine = false then s
  else
    managed 0x15 m (withBytes m m.q3 m.q1 m.q2 fun bs s =>
      match blobOf bs with
      | none => (s, 1)
      | some b =>
        if b.op ≠ op then (s, 1)
        else if b.op = 2 ∧ s.owned = false then (s, 5)
        else if !blobGood s b then (s, 4)
        else if !ownerAllows s b.op then (s, 5)
        else
          let r := k b s
          if r.2 = 0 then ({ r.1 with seqCtr := if op = 2 ∨ op = 3 then 0 else b.seq }, 0) else (s, r.2)) s

/-! ### PART_SET (R377, R379, R384, R388) -/

/-- Ranges of two entries do not overlap. -/
def apart (a n b m : Nat) : Bool := n == 0 || m == 0 || decide (a + n ≤ b) || decide (b + m ≤ a)

/-- One valid entry by itself. -/
def entryGood (e : Nat) : Bool :=
  partBase e % partSize e == 0 && fld e 384 128 == 0 && fld e 88 16 == 0 && fld e 61 3 == 0 && fld e 44 4 == 0 && fld e 21 3 == 0 &&
    fld e 7 1 == 0 && fld e 1 1 == 0 && decide (1 ≤ partKslot e) && decide (1 ≤ partGscnt e) && decide (partGsbase e + partGscnt e ≤ 16) &&
    decide (partWsbase e + partWscnt e ≤ 4096) && partHas e (groupOf (partReghome e)) && decide (partReghome e < 192) &&
    partFcfg e % 4096 == 0

/-- Two valid entries share nothing. -/
def entriesApart (a b : Nat) : Bool :=
  apart (partBase a) (partSize a) (partBase b) (partSize b) && (partPorts a &&& partPorts b) == 0 &&
    apart (partGsbase a) (partGscnt a) (partGsbase b) (partGscnt b) && apart (partWsbase a) (partWscnt a) (partWsbase b) (partWscnt b) &&
    partKslot a != partKslot b

/-- A set of entries is legal (R379). -/
def setGood (es : List Nat) : Bool :=
  let vs := es.filter partV
  vs.all entryGood && decide (vs.Pairwise fun a b => entriesApart a b = true)

/-- A slot its partition no longer names is zeroised. -/
def leaveSlotKey (s : State) (part e : Nat) : State :=
  let old := s.part part
  if partV old && !(partV e && partKslot e == partKslot old) then { s with keys := tdel s.keys (partKslot old) } else s

/-- One changed entry takes effect: a slot newly assigned, or a new OWNERTAG, regenerates the key. -/
def putEntry (s : State) (part e : Nat) : State :=
  let old := s.part part
  let s := { s with
    parts := tset s.parts part (BitVec.ofNat 512 e)
    running := tdel s.running part }
  let s := if partV e && (!partV old || partKslot e != partKslot old || partOwner e != partOwner old) then regenerate s (partKslot e) part else s
  { s with partm := tset s.partm part (sha256 (padTo 32 ((tget s.partm part).getD []) ++ sha256 (numBytes 64 e))) }

def partSetOf (b : Blob) (s : State) : State × Nat :=
  let es := (List.range 8).map fun i => leOf b.body (64 * i) 64
  let changed := (List.range 8).filter fun i => es.getD i 0 != s.part i
  if b.body.length ≠ 512 ∨ setGood es = false then (s, 1)
  else if changed.any (partContexts s) then (s, 5)
  else
    let s := changed.foldl (fun s i => leaveSlotKey s i (es.getD i 0)) s
    (changed.foldl (fun s i => putEntry s i (es.getD i 0)) s, 0)

def execPartSet (m : Mgmt) (s : State) : Result := .next (signedRow 1 m partSetOf s)

/-! ### Ownership (R389) -/

/-- The clearing of a change of ownership: keys, entries, measurements, arrays, L2 and the fast layer, and the identity;
with the entries the context the blob was read through is gone. -/
def clearOwner (s : State) : State :=
  let s := wipeCores s fun _ => true
  { s with
    keys := s.keys.filter fun k => k.1 == 0
    parts := []
    partm := []
    ctxs := []
    saved := []
    queueLocs := []
    running := []
    paddocks := []
    wport := []
    wsample := []
    wnext := 0
    pkgIdent := none
    epoch := s.epoch + 1 }

/-- A new owner: its key and the hash of it. -/
def setOwner (s : State) (key : List Nat) : State := { s with owned := true, ownerKey := key, ownerKh := sha256 key }

def execOwnXfer (m : Mgmt) (s : State) : Result :=
  .next (signedRow 2 m (fun b s =>
    if b.body.length ≠ 32 then (s, 1) else if !noContexts m s then (s, 5) else (setOwner (clearOwner s) b.body, 0)) s)

def execClaim (m : Mgmt) (s : State) : Result :=
  .next (signedRow 3 m (fun b s =>
    if b.body.length ≠ 32 then (s, 1) else (setOwner { s with epoch := s.epoch + 1 } b.body, 0)) s)

def execRelease (m : Mgmt) (s : State) : Result :=
  .next (signedRow 4 m (fun _ s =>
    if !noContexts m s then (s, 5) else ({ clearOwner s with owned := false, ownerKey := [], ownerKh := [] }, 0)) s)

/-- SET_ID: the identity takes effect at the next warm reset (R386). -/
def execSetId (m : Mgmt) (s : State) : Result :=
  .next (signedRow 5 m (fun b s =>
    if b.body.length ≠ 4 ∨ 2 ^ 17 ≤ leOf b.body 0 4 then (s, 1)
    else if !noContexts m s then (s, 5)
    else ({ s with pkgIdent := some (leOf b.body 0 4) }, 0)) s)

end Sys2Proof.Machine
end

