-- ==== Sys2Proof/Machine/Reset.lean ====
section
/-! DEFINITION. Reset and bring-up, error events, power limits (R329, R381, R390 to R394, R398). -/

namespace Sys2Proof.Machine

/-! ## Reset (R381, R390) -/

/-- Keys at a reset: a slot without RETAIN, and at a cold reset every slot, gets a new one; its partition's PARTM is zero. -/
def resetKeys (cold : Bool) (s : State) : State :=
  s.keys.foldl (fun s k =>
    if cold || !k.2.retain then
      { s with
        keys := tset s.keys k.1 { k.2 with key := s.nextKey }
        nextKey := s.nextKey + 1
        partm := tdel s.partm k.2.part }
    else s) s

/-- FLMODE of an HBM stack (R372). -/
def flMode (s : State) (stack : Nat) : Nat := fld ((tget s.hbmctl stack).getD (BitVec.ofNat 64 (1024 * 2 ^ 16))).toNat 32 2

/-- The dirty blocks of the fast layers, 2 KiB each and at most 2^20, which are 2 GiB, to a stack: which they are is not known (R8, R374). -/
def fastDirty (s : State) : List Nat :=
  (List.range 8).flatMap fun k =>
    (((s.memKey.map fun x => x.1 / 64).eraseDups).filter fun b =>
      b / 2 ^ 25 == k && flMode s k == 0 && Config.freeChoice s.fresh (2 ^ 50 + b) % 2 == 1).take (2 ^ 20)

/-- A warm reset loses the dirty blocks of the fast layer; what the main layers hold of them is a free value (R374, R390). -/
def loseFast (s : State) : State :=
  let bs := fastDirty s
  s.memKey.foldl (fun s x =>
    let sec := x.1
    if inList (sec / 64) bs then
      { s with mem := mwrite s.mem (sec * 32) ((List.range 32).map fun i => (Config.freeWord s.fresh (2 ^ 50 + sec * 32 + i)).truncate 8) }
    else s) s

/-- What survives a reset (R390): memory under its keys, the secure store, the flash, the package log at a warm one. -/
def resetTo (cold : Bool) (s : State) : State :=
  let s := resetKeys cold (if cold then s else loseFast s)
  { State.reset with
    fresh := s.fresh
    inputs := s.inputs
    outbox := s.outbox
    nextOp := s.nextOp
    nextStamp := s.nextStamp
    nextHitch := s.nextHitch
    mem := s.mem
    memPois := s.memPois
    memKey := s.memKey
    parts := s.parts
    raslogs := if cold then [] else s.raslogs.filter fun l => l.1 == 8
    owned := s.owned
    ownerKh := s.ownerKh
    ownerKey := s.ownerKey
    seqCtr := s.seqCtr
    minver := s.minver
    epoch := s.epoch
    pkgIdent := s.pkgIdent
    keys := s.keys
    nextKey := s.nextKey
    bootm := if cold then List.replicate 32 0 else s.bootm
    partm := if cold then [] else s.partm
    flash := s.flash
    power := s.power }

/-- COLD_RESET: PORST_N or power-on (R390). -/
def execColdReset (s : State) : Result := .next (resetTo true s)

/-- WRST_N, or damage the farrier finds in its own state (R390). -/
def execWarmReset (s : State) : Result := .next (resetTo false s)

/-! ## Bring-up (R391) -/

/-- PINS_RELEASED: the farrier verifies and loads its firmware, then the ostler; without both the package stays in reset. -/
def execPinsReleased (s : State) : Result :=
  .next (
    if s.phase ≠ .hold then s
    else
      let a := loadImage s 1
      if a.2 = false then { a.1 with phase := .farrier }
      else
        let b := loadImage a.1 2
        { b.1 with ostler := b.2, phase := if b.2 then .train else .farrier })

/-- The log an HBM stack or stack group reports to: its partition's, else the package's (R393). -/
def groupLog (s : State) (g : Nat) : Nat := ((List.range 8).find? fun p => partV (s.part p) && partHas (s.part p) g).getD 8

/-- One port after training: up under the identity, or down and logged (R386, R391). -/
def portTrained (s : State) (ok : Bool) (p : Nat) : State :=
  if !decide (portPart s p < 8) then s
  else if !ok then logRas (s.modPort p fun _ => Port.init) (portPart s p) 365 p 0 63
  else if s.identNow.isNone then s.modPort p fun _ => Port.init
  else s.modPort p fun _ => { Port.init with up := true, ident := pkgNow s }

/-- TRAIN_COMPLETE: masks of the stacks and ports that trained. -/
def execTrainComplete (hbmMask ports : Nat) (s : State) : Result :=
  .next (
    if s.phase ≠ .train then s
    else
      let bad := (List.range 8).filter fun g => hbmMask / 2 ^ g % 2 == 0
      let s := bad.foldl (fun s g => logRas s (groupLog s g) 357 g 0 63) { s with
        identNow := s.pkgIdent
        stacksDown := bad
        phase := .clear }
      (List.range 24).foldl (fun s p => portTrained s (ports / 2 ^ p % 2 == 1) p) s)

/-- CLEAR_COMPLETE: arrays are zero, the whiffletree runs, and the package is ready. -/
def execClearComplete (s : State) : Result :=
  .next (if s.phase ≠ .clear then s else { wipeCores s (fun _ => true) with wport := [], wsample := [], wnext := 0, wstarted := true, phase := .ready })

/-! ## The ostler's integrity (R329) -/

/-- A multi-step packet is under way: WRITE_SIGNAL, LAUNCH_GRAPH or COLLECTIVE (R337). -/
def WorkQueue.multi (w : WorkQueue) : Bool := w.busy && inList (leNat (commandBytes w w.depth w.here 1)) [2, 7, 10]

/-- A queue at an integrity error: STATE 6; a multi-step packet that was cut short leaves ERR 9. -/
def WorkQueue.cut (w : WorkQueue) : WorkQueue :=
  let waits := realState w == 4 && !w.busy
  { w with
    state := 6
    paused := if waits then 4 else if w.state = 6 then w.paused else 2
    wait := if waits then w.wait else .none
    step := if waits then w.step else 0
    err := if w.multi then 9 else w.err
    erradr := if w.multi then w.here else w.erradr
    busy := false, stopReq := false, kept := [] }

def cutQueue (s : State) (q : Nat) : State :=
  let w := s.wq q
  let s := (if w.busy then dropRemotes s q else s).modWq q WorkQueue.cut
  if w.multi then postEvent s q 1 9 else s

/-- OSTLER_INTEGRITY_ERROR: every queue stops, and the ostler image is loaded again; slots, queues and blocks run on. -/
def execOstlerIntegrityError (s : State) : Result :=
  .next (
    if s.phase ≠ .ready then s
    else
      let s := logRas s 8 374 0 0 63
      let s := ((s.wqs.filter fun q => q.2.en).map Prod.fst).foldl cutQueue s
      let r := loadImage { s with ostler := false } 2
      { r.1 with ostler := r.2 })

/-! ## Error events (R393, R394) -/

def causeKind (code : Nat) : Nat := code % 8
def causeUnit (code : Nat) : Nat := code / 8 % 8

/-- A unit stops with a code where it stands (R287, R394). -/
def stopUnit (code : Nat) (s : State) (u : UnitId) : State :=
  let s := { s with cur := u }
  let rec_ (pkt slot : Nat) (ws : List Nat) (priv : Bool) : StopRec :=
    ⟨faultWords s (causeOf code) pkt slot (firstWord ws slot) priv, pkt, slot, false⟩
  let s1 :=
    if u.coach then s.modCoach fun k => { k with status := .stopped, stop := some (rec_ k.pkt k.slot (k.ibuf.getD []) false) }
    else s.modTeam fun t => { t with status := .stopped, stop := some (rec_ t.pkt t.slot (wordsAt s t) t.priv) }
  logRas s1 s.block.part code u.core 0 s.block.ctx

/-- The units of a context that run, in a state. -/
def runningUnits (s : State) (part c : Nat) : List UnitId :=
  (s.blocks.filter fun b => b.2.part == part && b.2.ctx == c && !b.2.retired).flatMap fun b =>
    (liveUnits s b.1).filter fun u => match unitStatus s u with
      | some .running => true
      | _ => false

def stopUnits (code part c : Nat) (s : State) : State :=
  let cur := s.cur
  { (runningUnits s part c).foldl (stopUnit code) s with cur := cur }

/-- Every unit of a context stops, on the cores and where it is saved, and its queues enter STATE 6 (R394). -/
def stopContext (code part c : Nat) (s : State) : State :=
  let s := stopUnits code part c s
  let s := (s.saved.filter fun v => v.1 / 64 % 8 == part && v.1 % 64 == c).foldl (fun s v =>
    let x := stopUnits code part c (savedView s v.2)
    { s with saved := tset s.saved v.1 (v.2.take x), raslogs := x.raslogs }) s
  mapQueues s part c fun w => if w.en then w.stopNow else w

/-- The 32-byte sector an error of kind 1 poisons: of HBM or a slice by its address; of a core's arrays the place is not given. -/
def poisonBy (e : RasEv) (s : State) : State :=
  let pick := Config.freeChoice s.fresh 5
  match causeUnit e.code with
  | 1 =>
    if pick % 2 = 0 then setPois s 0 e.inst (pick / 2 % 2 ^ 15 * 32) 32 else setPois s 1 e.inst (pick / 2 % 2 ^ 13 * 32) 32
  | 2 =>
    if pick % 2 = 0 then setPois s 2 e.inst (pick / 2 % 2 ^ 13 * 32) 32
    else { s with l1 := (s.l1.zip (List.range s.l1.length)).map fun x =>
             if x.1.core = e.inst ∧ x.2 = pick / 2 % (s.l1.length + 1) then { x.1 with pois := true } else x.1 }
  | 3 =>
    match findWay s e.inst (e.addr / 128) with
    | some k => modLine s k fun l => { l with pois := l.pois ||| BitVec.ofNat 4 (2 ^ (e.addr / 32 % 4)) }
    | none => s
  | 4 => { s with memPois := insertNat (e.addr / 32) s.memPois }
  | _ => s

/-- An uncorrectable register-file error is also delivered to the instruction that read the register (R297): a team of the core that
runs, which one is not given. -/
def registerError (e : RasEv) (s : State) : State :=
  let us := (s.teams.filter fun t => t.1 / 1024 == e.inst && (match t.2.status with
    | .running => true
    | _ => false)).map Prod.fst
  match us[Config.freeChoice s.fresh 5 % (us.length + 1)]? with
  | some k => raiseCode 321 { s with cur := ⟨k / 1024, k / 64 % 16, k % 64, false⟩ }
  | none => s

/-- RAS_EVENT: logged or counted; kind 1 poisons, kind 2 stops the context (R393, R394). -/
def execRasEvent (e : RasEv) (s : State) : Result :=
  .next (
    let n := if e.part < 8 ∧ partV (s.part e.part) = true then e.part else 8
    let s := logRas s n e.code e.inst e.addr e.ctx
    if e.code / 64 ≠ 5 then s
    else if e.code = 321 then registerError e s
    else if causeKind e.code = 1 then poisonBy e s
    else if causeKind e.code = 2 ∧ e.part < 8 ∧ e.ctx < 63 then stopContext e.code e.part e.ctx s
    else s)

/-! ## Power (R398) -/

/-- POWER_LIMIT: an HBM stack's limit (inst 0 to 7) is logged as 356, the package's as 380; idle cycles change no result. -/
def execPowerLimit (inst : Nat) (s : State) : Result :=
  .next (
    let k := min inst 8
    let s := { s with power := insertNat k s.power }
    if k < 8 then logRas s (groupLog s k) 356 k 0 63 else logRas s 8 380 0 0 63)

/-- POWER_LIMIT_LIFTED. -/
def execPowerLimitLifted (inst : Nat) (s : State) : Result :=
  .next { s with power := s.power.filter fun k => k != min inst 8 }

end Sys2Proof.Machine
end

