-- ==== Sys2Proof/Machine/Special.lean ====
section
/-! DEFINITION. Special functions (R125, R126). Each result is one of the two values that bracket the exact one. The exact
value is enclosed by fixed-point arithmetic of 600 fraction bits; which neighbour is delivered is a free value. -/

namespace Sys2Proof.Machine

/-! ## Fixed-point numbers: x stands for x / 2^600 -/

def fixBits : Nat := 600
def fixOne : Nat := 2 ^ fixBits
def fixMul (a b : Nat) : Nat := a * b / fixOne
def fixDiv (a b : Nat) : Nat := a * fixOne / b

/-- z + z³/3 + z⁵/5 + …, from term number k on; t is z^(2k + 1). -/
def atanhTerms (zz : Nat) : Nat → Nat → Nat → Nat
  | 0, _, _ => 0
  | n + 1, k, t => t / (2 * k + 1) + atanhTerms zz n (k + 1) (fixMul t zz)

/-- ln y for y in [1, 2): twice the series at (y − 1) / (y + 1). -/
def fixLn (y : Nat) : Nat :=
  let z := fixDiv (y - fixOne) (y + fixOne)
  2 * atanhTerms (fixMul z z) 200 0 z

def fixLn2 : Nat := 2 * atanhTerms (fixOne / 9) 200 0 (fixOne / 3)

/-- Terms of eʳ from number k on; t is r^k / k!. -/
def expTerms (r : Nat) : Nat → Nat → Nat → Nat
  | 0, _, _ => 0
  | n + 1, k, t => t + expTerms r n (k + 1) (fixMul t r / (k + 1))

/-- eʳ for r in [0, 1). -/
def fixExp (r : Nat) : Nat := expTerms r 130 0 fixOne

/-- e^y for y below 2^10: y = n ln 2 + r. -/
def fixExpBig (y : Nat) : Nat :=
  let n := y / fixLn2
  fixExp (y % fixLn2) * 2 ^ n

/-- Terms of the arc tangent of 1/d: t is 1/d^(2k + 1), signs alternate. -/
def atanTerms (dd : Nat) : Nat → Nat → Nat → Int
  | 0, _, _ => 0
  | n + 1, k, t => ((t / (2 * k + 1) : Nat) : Int) - atanTerms dd n (k + 1) (t / dd)

/-- π / 2 by Machin's formula. -/
def fixHalfPi : Nat := (2 * (4 * atanTerms 25 140 0 (fixOne / 5) - atanTerms (239 * 239) 50 0 (fixOne / 239))).toNat

/-- Terms of the sine (from t = r) or the cosine (from t = 1): signs alternate, two factors a term. -/
def trigTerms (rr : Nat) : Nat → Nat → Nat → Int
  | 0, _, _ => 0
  | n + 1, k, t => (t : Int) - trigTerms rr n (k + 2) (fixMul t rr / ((k + 1) * (k + 2)))

def fixSin (r : Nat) : Int := trigTerms (fixMul r r) 80 1 r
def fixCos (r : Nat) : Int := trigTerms (fixMul r r) 80 0 fixOne

/-! ## Brackets -/

/-- The faithful result for a magnitude m × 2^e that stands in the same gap between format values as the exact one, or is
the exact one when `exact`: overflow and underflow are judged as by RNE (R126). `hi` picks the larger neighbour. -/
def FF.faithful (f : FF) (hi neg : Bool) (m : Nat) (e : Int) : Nat × Nat :=
  let r := f.roundMag 0 false neg m e
  if Nat.land r.2 flagOF ≠ 0 then r
  else if Nat.land r.2 flagNX = 0 then r
  else
    let lo := (f.roundMag 1 false neg m e).1
    let up := f.roundMag (if neg then 3 else 2) false neg m e
    (if hi && Nat.land up.2 flagOF == 0 then up.1 else lo, r.2)

/-- A value known to lie within 2^20 units of a fixed-point number: one point of its gap. -/
def FF.ofFix (f : FF) (hi : Bool) (v : Int) : Nat × Nat :=
  f.faithful hi (decide (v < 0)) (2 * (v.natAbs - 2 ^ 20) + 1) (-(fixBits : Int) - 1)

/-- Just below a magnitude m × 2^e. -/
def FF.justBelow (f : FF) (hi neg : Bool) (m : Nat) (e : Int) : Nat × Nat := f.faithful hi neg (2 ^ 60 * m - 1) (e - 60)

/-- |x| as a fixed-point number; exact for exponents down to −600. -/
def Dy.toFix (x : Dy) : Nat :=
  if 0 ≤ x.e + (fixBits : Int) then x.m.natAbs * 2 ^ (x.e + (fixBits : Int)).toNat else x.m.natAbs / 2 ^ (-(x.e + (fixBits : Int))).toNat

/-- |x| < 2^k. -/
def Dy.belowPow (x : Dy) (k : Int) : Bool := x.abs.lt ⟨1, k⟩

def FF.one (f : FF) : Nat := f.bias * 2 ^ f.mb
def FF.half (f : FF) : Nat := (f.bias - 1) * 2 ^ f.mb

/-! ## The functions on a finite non-zero operand -/

def FF.rcp (f : FF) (hi : Bool) (x : Nat) : Nat × Nat :=
  let (m, e) := quotient (f.mb + 4) ⟨1, 0⟩ (f.val x)
  f.faithful hi (f.neg x) m e

/-- 1/√x for x > 0: exact only for even powers of two. -/
def FF.rsq (f : FF) (hi : Bool) (x : Nat) : Nat × Nat :=
  let v := f.val x
  let m := v.m.natAbs
  let odd : Nat := if v.e % 2 = 0 then 0 else 1
  let n := 2 ^ (2 * (f.mb + 40) + odd) / m
  let r := isqrt n (n.log2 / 2 + 1) 0
  let exact := r * r * m == 2 ^ (2 * (f.mb + 40) + odd)
  f.faithful hi false (2 * r + (if exact then 0 else 1)) (-((v.e + (odd : Int)) / 2) - ((f.mb : Int) + 40) - 1)

def FF.exp2 (f : FF) (hi : Bool) (x : Nat) : Nat × Nat :=
  let v := f.val x
  let n := v.floor
  if 2000 < n then (f.inf false, orNat flagOF flagNX)
  else if n < -2000 then f.faithful hi false 1 (-3000)
  else
    let fr := v.sub ⟨n, 0⟩
    if fr.isZero then f.faithful hi false 1 n
    else f.faithful hi false (2 * (fixExp (fixMul fr.toFix fixLn2) - 2 ^ 20) + 1) (n - (fixBits : Int) - 1)

def FF.log2 (f : FF) (hi : Bool) (x : Nat) : Nat × Nat :=
  let v := f.val x
  let m := v.m.natAbs
  let l := m.log2
  let k : Int := (l : Int) + v.e
  if m = 2 ^ l then f.round 0 false false ⟨k, 0⟩
  else f.ofFix hi (k * (fixOne : Int) + (fixDiv (fixLn (m * 2 ^ (fixBits - l))) fixLn2 : Int))

/-- Sine (c = 0) or cosine (c = 1) after exact reduction by quarter turns (R126). -/
def FF.trig (f : FF) (hi : Bool) (c x : Nat) : Nat × Nat :=
  let v := f.val x
  let t := v.toFix
  let q := (t / fixHalfPi + c) % 4
  let r := t % fixHalfPi
  let y := if q % 2 = 0 then fixSin r else fixCos r
  let neg := decide (2 ≤ q) != (f.neg x && c == 0)
  f.ofFix hi (if neg then -y else y)

def FF.sin (f : FF) (hi : Bool) (x : Nat) : Nat × Nat :=
  let v := f.val x
  if v.belowPow (-40) then f.justBelow hi (f.neg x) v.m.natAbs v.e else f.trig hi 0 x

def FF.cos (f : FF) (hi : Bool) (x : Nat) : Nat × Nat :=
  if (f.val x).belowPow (-40) then f.justBelow hi false 1 0 else f.trig hi 1 x

def FF.tanh (f : FF) (hi : Bool) (x : Nat) : Nat × Nat :=
  let v := f.val x
  if v.belowPow (-40) then f.justBelow hi (f.neg x) v.m.natAbs v.e
  else if v.belowPow 6 then
    let ee := fixExpBig (2 * v.toFix)
    let y : Int := ((fixOne - fixDiv (2 * fixOne) (ee + fixOne) : Nat) : Int)
    f.ofFix hi (if f.neg x then -y else y)
  else f.justBelow hi (f.neg x) 1 0

def FF.sigmoid (f : FF) (hi : Bool) (x : Nat) : Nat × Nat :=
  let v := f.val x
  if v.belowPow 8 then
    let ee := fixExpBig v.toFix
    f.ofFix hi ((if f.neg x then fixDiv fixOne (ee + fixOne) else fixDiv ee (ee + fixOne) : Nat) : Int)
  else if f.neg x then f.faithful hi false 1 (-1000)
  else f.justBelow hi false 1 0

/-- Function number n of the group (R125) on one element, special operands included (R126). -/
def FF.special (f : FF) (n x : Nat) : Nat × Nat :=
  let hi := Config.specialPick (n * 64 + f.width + f.mb) x
  match f.nanOf [x] with
  | some r => r
  | none =>
    match n with
    | 0 => if f.isZero x then (f.inf (f.neg x), flagDZ) else if f.isInf x then (f.withSign (f.neg x) 0, 0) else f.rcp hi x
    | 1 =>
      if f.isZero x then (f.inf (f.neg x), flagDZ) else if f.neg x then f.invalid else if f.isInf x then (0, 0) else f.rsq hi x
    | 2 =>
      if f.isInf x then (if f.neg x then 0 else f.inf false, 0) else if f.isZero x then (f.one, 0) else f.exp2 hi x
    | 3 =>
      if f.isZero x then (f.inf true, flagDZ) else if f.neg x then f.invalid else if f.isInf x then (x, 0) else f.log2 hi x
    | 4 => if f.isInf x then f.invalid else if f.isZero x then (x, 0) else f.sin hi x
    | 5 => if f.isInf x then f.invalid else if f.isZero x then (f.one, 0) else f.cos hi x
    | 6 => if f.isInf x then (f.withSign (f.neg x) f.one, 0) else if f.isZero x then (x, 0) else f.tanh hi x
    | _ =>
      if f.isInf x then (if f.neg x then 0 else f.one, 0) else if f.isZero x then (f.half, 0) else f.sigmoid hi x

/-- A special-function instruction: function n on every element (R125). -/
def specialOp (n : Nat) (o : V2) (s : State) : State := floatOne (fun f x => f.special n x) o s

def execFrcp (o : V2) (s : State) : Result := .next (checked (operandCause (.frcp o) s) s (specialOp 0 o))
def execFrsq (o : V2) (s : State) : Result := .next (checked (operandCause (.frsq o) s) s (specialOp 1 o))
def execFexp2 (o : V2) (s : State) : Result := .next (checked (operandCause (.fexp2 o) s) s (specialOp 2 o))
def execFlog2 (o : V2) (s : State) : Result := .next (checked (operandCause (.flog2 o) s) s (specialOp 3 o))
def execFsin (o : V2) (s : State) : Result := .next (checked (operandCause (.fsin o) s) s (specialOp 4 o))
def execFcos (o : V2) (s : State) : Result := .next (checked (operandCause (.fcos o) s) s (specialOp 5 o))
def execFtanh (o : V2) (s : State) : Result := .next (checked (operandCause (.ftanh o) s) s (specialOp 6 o))
def execFsigm (o : V2) (s : State) : Result := .next (checked (operandCause (.fsigm o) s) s (specialOp 7 o))

end Sys2Proof.Machine
end

