-- ==== Sys2Proof/Machine/Dispatch.lean ====
section
/-! DEFINITION. One arm for each constructor of Instr. -/

namespace Sys2Proof.Machine

def exec (i : Instr) (s : State) : Host.Outcome State Fault Refusal :=
  match i with
  | .sadd d a b => Sys2Proof.Machine.execSadd d a b s
  | .ssub d a b => Sys2Proof.Machine.execSsub d a b s
  | .smul d a b => Sys2Proof.Machine.execSmul d a b s
  | .smulh d a b => Sys2Proof.Machine.execSmulh d a b s
  | .sand d a b => Sys2Proof.Machine.execSand d a b s
  | .sor d a b => Sys2Proof.Machine.execSor d a b s
  | .sxor d a b => Sys2Proof.Machine.execSxor d a b s
  | .sandn d a b => Sys2Proof.Machine.execSandn d a b s
  | .sshl d a b => Sys2Proof.Machine.execSshl d a b s
  | .sshr d a b => Sys2Proof.Machine.execSshr d a b s
  | .ssar d a b => Sys2Proof.Machine.execSsar d a b s
  | .smin d a b => Sys2Proof.Machine.execSmin d a b s
  | .smax d a b => Sys2Proof.Machine.execSmax d a b s
  | .sminu d a b => Sys2Proof.Machine.execSminu d a b s
  | .smaxu d a b => Sys2Proof.Machine.execSmaxu d a b s
  | .sclz d a => Sys2Proof.Machine.execSclz d a s
  | .spopc d a => Sys2Proof.Machine.execSpopc d a s
  | .smov d a => Sys2Proof.Machine.execSmov d a s
  | .smad d a b r => Sys2Proof.Machine.execSmad d a b r s
  | .ssel d a b r => Sys2Proof.Machine.execSsel d a b r s
  | .sbfx d a p l => Sys2Proof.Machine.execSbfx d a p l s
  | .sbfi d a p l => Sys2Proof.Machine.execSbfi d a p l s
  | .scmp d a b q => Sys2Proof.Machine.execScmp d a b q s
  | .sldi d x1 => Sys2Proof.Machine.execSldi d x1 s
  | .sldiLong d x1 => Sys2Proof.Machine.execSldiLong d x1 s
  | .saddi d a x2 => Sys2Proof.Machine.execSaddi d a x2 s
  | .saddiLong d a x2 => Sys2Proof.Machine.execSaddiLong d a x2 s
  | .sldl d a x2 => Sys2Proof.Machine.execSldl d a x2 s
  | .sldlLong d a x2 => Sys2Proof.Machine.execSldlLong d a x2 s
  | .sget d n => Sys2Proof.Machine.execSget d n s
  | .sgetRcv d n => Sys2Proof.Machine.execSgetRcv d n s
  | .ssetSnd a n => Sys2Proof.Machine.execSsetSnd a n s
  | .ssetSndcfg a n => Sys2Proof.Machine.execSsetSndcfg a n s
  | .ssetMask a => Sys2Proof.Machine.execSsetMask a s
  | .ssetFpmode a => Sys2Proof.Machine.execSsetFpmode a s
  | .ssetFpflags a => Sys2Proof.Machine.execSsetFpflags a s
  | .ssetGreedy a => Sys2Proof.Machine.execSsetGreedy a s
  | .bra o => Sys2Proof.Machine.execBra o s
  | .brc r q o => Sys2Proof.Machine.execBrc r q o s
  | .brm q o => Sys2Proof.Machine.execBrm q o s
  | .call k o => Sys2Proof.Machine.execCall k o s
  | .jmp a => Sys2Proof.Machine.execJmp a s
  | .callr k a => Sys2Proof.Machine.execCallr k a s
  | .ret k a => Sys2Proof.Machine.execRet k a s
  | .wait m => Sys2Proof.Machine.execWait m s
  | .trap x0 => Sys2Proof.Machine.execTrap x0 s
  | .brk x0 => Sys2Proof.Machine.execBrk x0 s
  | .pand d a b => Sys2Proof.Machine.execPand d a b s
  | .por d a b => Sys2Proof.Machine.execPor d a b s
  | .pxor d a b => Sys2Proof.Machine.execPxor d a b s
  | .pandn d a b => Sys2Proof.Machine.execPandn d a b s
  | .pnot d a => Sys2Proof.Machine.execPnot d a s
  | .pmov d a => Sys2Proof.Machine.execPmov d a s
  | .pseti d v => Sys2Proof.Machine.execPseti d v s
  | .pany d a => Sys2Proof.Machine.execPany d a s
  | .pall d a => Sys2Proof.Machine.execPall d a s
  | .pcnt d a => Sys2Proof.Machine.execPcnt d a s
  | .pfirst d a => Sys2Proof.Machine.execPfirst d a s
  | .mpush a => Sys2Proof.Machine.execMpush a s
  | .msave d => Sys2Proof.Machine.execMsave d s
  | .mload a => Sys2Proof.Machine.execMload a s
  | .vadd o => Sys2Proof.Machine.execVadd o s
  | .vsub o => Sys2Proof.Machine.execVsub o s
  | .vadds o => Sys2Proof.Machine.execVadds o s
  | .vsubs o => Sys2Proof.Machine.execVsubs o s
  | .vmul o => Sys2Proof.Machine.execVmul o s
  | .vmulh o => Sys2Proof.Machine.execVmulh o s
  | .vmad o r => Sys2Proof.Machine.execVmad o r s
  | .vdot4 o r sat => Sys2Proof.Machine.execVdot4 o r sat s
  | .vand o => Sys2Proof.Machine.execVand o s
  | .vor o => Sys2Proof.Machine.execVor o s
  | .vxor o => Sys2Proof.Machine.execVxor o s
  | .vshl o => Sys2Proof.Machine.execVshl o s
  | .vshr o => Sys2Proof.Machine.execVshr o s
  | .vsar o => Sys2Proof.Machine.execVsar o s
  | .vmin o => Sys2Proof.Machine.execVmin o s
  | .vmax o => Sys2Proof.Machine.execVmax o s
  | .vminu o => Sys2Proof.Machine.execVminu o s
  | .vmaxu o => Sys2Proof.Machine.execVmaxu o s
  | .vabs o => Sys2Proof.Machine.execVabs o s
  | .vneg o => Sys2Proof.Machine.execVneg o s
  | .vclz o => Sys2Proof.Machine.execVclz o s
  | .vpopc o => Sys2Proof.Machine.execVpopc o s
  | .vmov o => Sys2Proof.Machine.execVmov o s
  | .vlane d g => Sys2Proof.Machine.execVlane d g s
  | .vbcs o => Sys2Proof.Machine.execVbcs o s
  | .vbfx o p l => Sys2Proof.Machine.execVbfx o p l s
  | .vbfi o p l => Sys2Proof.Machine.execVbfi o p l s
  | .vsel o r => Sys2Proof.Machine.execVsel o r s
  | .vcmp o q => Sys2Proof.Machine.execVcmp o q s
  | .vldi d x1 => Sys2Proof.Machine.execVldi d x1 s
  | .vldiLong d x1 => Sys2Proof.Machine.execVldiLong d x1 s
  | .fadd o => Sys2Proof.Machine.execFadd o s
  | .faddLong o rm => Sys2Proof.Machine.execFaddLong o rm s
  | .fsub o => Sys2Proof.Machine.execFsub o s
  | .fsubLong o rm => Sys2Proof.Machine.execFsubLong o rm s
  | .fmul o => Sys2Proof.Machine.execFmul o s
  | .fmulLong o rm => Sys2Proof.Machine.execFmulLong o rm s
  | .ffma o r rm => Sys2Proof.Machine.execFfma o r rm s
  | .fmin o => Sys2Proof.Machine.execFmin o s
  | .fmax o => Sys2Proof.Machine.execFmax o s
  | .fminp o => Sys2Proof.Machine.execFminp o s
  | .fmaxp o => Sys2Proof.Machine.execFmaxp o s
  | .fabs o => Sys2Proof.Machine.execFabs o s
  | .fneg o => Sys2Proof.Machine.execFneg o s
  | .fcps o => Sys2Proof.Machine.execFcps o s
  | .fcmp o q => Sys2Proof.Machine.execFcmp o q s
  | .fcls o => Sys2Proof.Machine.execFcls o s
  | .fscl o => Sys2Proof.Machine.execFscl o s
  | .fsclLong o rm => Sys2Proof.Machine.execFsclLong o rm s
  | .fcvt o sf df rm sat => Sys2Proof.Machine.execFcvt o sf df rm sat s
  | .frnd o => Sys2Proof.Machine.execFrnd o s
  | .frndLong o rm => Sys2Proof.Machine.execFrndLong o rm s
  | .fcvi o ity rm sat => Sys2Proof.Machine.execFcvi o ity rm sat s
  | .fciv o ity rm => Sys2Proof.Machine.execFciv o ity rm s
  | .fdiv o => Sys2Proof.Machine.execFdiv o s
  | .fdivLong o rm => Sys2Proof.Machine.execFdivLong o rm s
  | .fsqrt o => Sys2Proof.Machine.execFsqrt o s
  | .fsqrtLong o rm => Sys2Proof.Machine.execFsqrtLong o rm s
  | .fdot2 o r rm => Sys2Proof.Machine.execFdot2 o r rm s
  | .frcp o => Sys2Proof.Machine.execFrcp o s
  | .frsq o => Sys2Proof.Machine.execFrsq o s
  | .fexp2 o => Sys2Proof.Machine.execFexp2 o s
  | .flog2 o => Sys2Proof.Machine.execFlog2 o s
  | .fsin o => Sys2Proof.Machine.execFsin o s
  | .fcos o => Sys2Proof.Machine.execFcos o s
  | .ftanh o => Sys2Proof.Machine.execFtanh o s
  | .fsigm o => Sys2Proof.Machine.execFsigm o s
  | .ftab d a n g => Sys2Proof.Machine.execFtab d a n g s
  | .tabld n x1 f => Sys2Proof.Machine.execTabld n x1 f s
  | .shfl o => Sys2Proof.Machine.execShfl o s
  | .shfu d a n => Sys2Proof.Machine.execShfu d a n s
  | .shfd d a n => Sys2Proof.Machine.execShfd d a n s
  | .shfx d a n => Sys2Proof.Machine.execShfx d a n s
  | .vbcl d a n => Sys2Proof.Machine.execVbcl d a n s
  | .vred o q => Sys2Proof.Machine.execVred o q s
  | .vscn o q => Sys2Proof.Machine.execVscn o q s
  | .fred o q => Sys2Proof.Machine.execFred o q s
  | .fscn o q => Sys2Proof.Machine.execFscn o q s
  | .ball d a g => Sys2Proof.Machine.execBall d a g s
  | .vmtc o => Sys2Proof.Machine.execVmtc o s
  | .vcpt o => Sys2Proof.Machine.execVcpt o s
  | .vhq o r q => Sys2Proof.Machine.execVhq o r q s
  | .vq8 o r q rm sat => Sys2Proof.Machine.execVq8 o r q rm sat s
  | .vdq o r q => Sys2Proof.Machine.execVdq o r q s
  | .vbsd o r q rm => Sys2Proof.Machine.execVbsd o r q rm s
  | .ldg8 o => Sys2Proof.Machine.execLdg8 o s
  | .ldg8Long o off => Sys2Proof.Machine.execLdg8Long o off s
  | .ldg16 o => Sys2Proof.Machine.execLdg16 o s
  | .ldg16Long o off => Sys2Proof.Machine.execLdg16Long o off s
  | .ldg32 o => Sys2Proof.Machine.execLdg32 o s
  | .ldg32Long o off => Sys2Proof.Machine.execLdg32Long o off s
  | .ldg64 o => Sys2Proof.Machine.execLdg64 o s
  | .ldg64Long o off => Sys2Proof.Machine.execLdg64Long o off s
  | .stg8 o => Sys2Proof.Machine.execStg8 o s
  | .stg8Long o off => Sys2Proof.Machine.execStg8Long o off s
  | .stg16 o => Sys2Proof.Machine.execStg16 o s
  | .stg16Long o off => Sys2Proof.Machine.execStg16Long o off s
  | .stg32 o => Sys2Proof.Machine.execStg32 o s
  | .stg32Long o off => Sys2Proof.Machine.execStg32Long o off s
  | .stg64 o => Sys2Proof.Machine.execStg64 o s
  | .stg64Long o off => Sys2Proof.Machine.execStg64Long o off s
  | .ldl32 o => Sys2Proof.Machine.execLdl32 o s
  | .ldl32Long o off => Sys2Proof.Machine.execLdl32Long o off s
  | .ldl64 o => Sys2Proof.Machine.execLdl64 o s
  | .ldl64Long o off => Sys2Proof.Machine.execLdl64Long o off s
  | .stl32 o => Sys2Proof.Machine.execStl32 o s
  | .stl32Long o off => Sys2Proof.Machine.execStl32Long o off s
  | .stl64 o => Sys2Proof.Machine.execStl64 o s
  | .stl64Long o off => Sys2Proof.Machine.execStl64Long o off s
  | .ldx o => Sys2Proof.Machine.execLdx o s
  | .ldxLong o off => Sys2Proof.Machine.execLdxLong o off s
  | .stx o => Sys2Proof.Machine.execStx o s
  | .stxLong o off => Sys2Proof.Machine.execStxLong o off s
  | .ldk32 d x1 => Sys2Proof.Machine.execLdk32 d x1 s
  | .ldk32Long d x1 off => Sys2Proof.Machine.execLdk32Long d x1 off s
  | .ldk64 d x1 => Sys2Proof.Machine.execLdk64 d x1 s
  | .ldk64Long d x1 off => Sys2Proof.Machine.execLdk64Long d x1 off s
  | .tld x0 f => Sys2Proof.Machine.execTld x0 f s
  | .tldLong x0 f off => Sys2Proof.Machine.execTldLong x0 f off s
  | .tst x0 f => Sys2Proof.Machine.execTst x0 f s
  | .tstLong x0 f off => Sys2Proof.Machine.execTstLong x0 f off s
  | .pfg a x1 g => Sys2Proof.Machine.execPfg a x1 g s
  | .pfgLong a x1 g off => Sys2Proof.Machine.execPfgLong a x1 g off s
  | .xmap x0 => Sys2Proof.Machine.execXmap x0 s
  | .xmapLong x0 off => Sys2Proof.Machine.execXmapLong x0 off s
  | .xunmap x0 => Sys2Proof.Machine.execXunmap x0 s
  | .xwb x0 => Sys2Proof.Machine.execXwb x0 s
  | .xinv x0 => Sys2Proof.Machine.execXinv x0 s
  | .atg o => Sys2Proof.Machine.execAtg o s
  | .atl o => Sys2Proof.Machine.execAtl o s
  | .redg o => Sys2Proof.Machine.execRedg o s
  | .redl o => Sys2Proof.Machine.execRedl o s
  | .enq x0 v f m => Sys2Proof.Machine.execEnq x0 v f m s
  | .deq x0 v f m => Sys2Proof.Machine.execDeq x0 v f m s
  | .qlen x0 v => Sys2Proof.Machine.execQlen x0 v s
  | .qcls x0 => Sys2Proof.Machine.execQcls x0 s
  | .grab x0 v => Sys2Proof.Machine.execGrab x0 v s
  | .fence p m => Sys2Proof.Machine.execFence p m s
  | .acq x0 p m => Sys2Proof.Machine.execAcq x0 p m s
  | .rel x0 p => Sys2Proof.Machine.execRel x0 p s
  | .teth x0 v p => Sys2Proof.Machine.execTeth x0 v p s
  | .unte x0 v p => Sys2Proof.Machine.execUnte x0 v p s
  | .barv x0 v p => Sys2Proof.Machine.execBarv x0 v p s
  | .bwat x0 v p => Sys2Proof.Machine.execBwat x0 v p s
  | .bsyn v p => Sys2Proof.Machine.execBsyn v p s
  | .bmsk x0 v p m => Sys2Proof.Machine.execBmsk x0 v p m s
  | .aini x0 v => Sys2Proof.Machine.execAini x0 v s
  | .aarv x0 v p m => Sys2Proof.Machine.execAarv x0 v p m s
  | .awat x0 v p => Sys2Proof.Machine.execAwat x0 v p s
  | .wadr x0 v p m => Sys2Proof.Machine.execWadr x0 v p m s
  | .dcpy o => Sys2Proof.Machine.execDcpy o s
  | .dcpyLong o aoff => Sys2Proof.Machine.execDcpyLong o aoff s
  | .dgth o => Sys2Proof.Machine.execDgth o s
  | .dgthLong o aoff => Sys2Proof.Machine.execDgthLong o aoff s
  | .dsct o => Sys2Proof.Machine.execDsct o s
  | .dsctLong o aoff => Sys2Proof.Machine.execDsctLong o aoff s
  | .dmcs o => Sys2Proof.Machine.execDmcs o s
  | .dmcsLong o aoff => Sys2Proof.Machine.execDmcsLong o aoff s
  | .dcmt o => Sys2Proof.Machine.execDcmt o s
  | .dcmtLong o aoff => Sys2Proof.Machine.execDcmtLong o aoff s
  | .dfil o => Sys2Proof.Machine.execDfil o s
  | .dfilLong o aoff => Sys2Proof.Machine.execDfilLong o aoff s
  | .dcol o => Sys2Proof.Machine.execDcol o s
  | .dcolLong o aoff => Sys2Proof.Machine.execDcolLong o aoff s
  | .dsts x => Sys2Proof.Machine.execDsts x s
  | .dfnc y => Sys2Proof.Machine.execDfnc y s
  | .pdnew x y => Sys2Proof.Machine.execPdnew x y s
  | .pdatt x y f => Sys2Proof.Machine.execPdatt x y f s
  | .pddet x => Sys2Proof.Machine.execPddet x s
  | .pdevi x y => Sys2Proof.Machine.execPdevi x y s
  | .pdqry x => Sys2Proof.Machine.execPdqry x s
  | .csrr d n => Sys2Proof.Machine.execCsrr d n s
  | .csrw a n => Sys2Proof.Machine.execCsrw a n s
  | .csrwTinj a => Sys2Proof.Machine.execCsrwTinj a s
  | .tlbi a k => Sys2Proof.Machine.execTlbi a k s
  | .sread p => Sys2Proof.Machine.execSread p s
  | .nop => Sys2Proof.Machine.execNop s
  | .exit => Sys2Proof.Machine.execExit s
  | .yield => Sys2Proof.Machine.execYield s
  | .melse => Sys2Proof.Machine.execMelse s
  | .mpop => Sys2Proof.Machine.execMpop s
  | .eret => Sys2Proof.Machine.execEret s
  | .halt => Sys2Proof.Machine.execHalt s
  | .mnop => Sys2Proof.Machine.execMnop s
  | .msetz r => Sys2Proof.Machine.execMsetz r s
  | .mzer z => Sys2Proof.Machine.execMzer z s
  | .mma o mf shr arank k => Sys2Proof.Machine.execMma o mf shr arank k s
  | .mmag o mf zt gm k => Sys2Proof.Machine.execMmag o mf zt gm k s
  | .mmat o mf zm k => Sys2Proof.Machine.execMmat o mf zm k s
  | .mldw zw zs mf => Sys2Proof.Machine.execMldw zw zs mf s
  | .mdrn zd zs sh sat act tbl mf zero => Sys2Proof.Machine.execMdrn zd zs sh sat act tbl mf zero s
  | .mbar n m => Sys2Proof.Machine.execMbar n m s
  | .mwat k st off => Sys2Proof.Machine.execMwat k st off s
  | .mlop n cnt => Sys2Proof.Machine.execMlop n cnt s
  | .mbra o => Sys2Proof.Machine.execMbra o s
  | .mbraLoop n o => Sys2Proof.Machine.execMbraLoop n o s
  | .mend => Sys2Proof.Machine.execMend s
  | .tableSwap core t => Sys2Proof.Machine.execTableSwap core t s
  | .drayJobStop id => Sys2Proof.Machine.execDrayJobStop id s
  | .drayJobComplete id => Sys2Proof.Machine.execDrayJobComplete id s
  | .paddockWritebackComplete id => Sys2Proof.Machine.execPaddockWritebackComplete id s
  | .paddockFillComplete id => Sys2Proof.Machine.execPaddockFillComplete id s
  | .arrayDispatch id => Sys2Proof.Machine.execArrayDispatch id s
  | .matrixOpComplete id => Sys2Proof.Machine.execMatrixOpComplete id s
  | .loadComplete id => Sys2Proof.Machine.execLoadComplete id s
  | .storeAck id => Sys2Proof.Machine.execStoreAck id s
  | .atomicComplete id => Sys2Proof.Machine.execAtomicComplete id s
  | .sliceLoad id => Sys2Proof.Machine.execSliceLoad id s
  | .sliceStore id => Sys2Proof.Machine.execSliceStore id s
  | .sliceAtomic id => Sys2Proof.Machine.execSliceAtomic id s
  | .sliceReduce id => Sys2Proof.Machine.execSliceReduce id s
  | .sliceLineFill slice line => Sys2Proof.Machine.execSliceLineFill slice line s
  | .tileLockAcquired id => Sys2Proof.Machine.execTileLockAcquired id s
  | .tileComplete id => Sys2Proof.Machine.execTileComplete id s
  | .enqAtHome id => Sys2Proof.Machine.execEnqAtHome id s
  | .deqAtHome id => Sys2Proof.Machine.execDeqAtHome id s
  | .deqWaitServed id => Sys2Proof.Machine.execDeqWaitServed id s
  | .grabAtHome id => Sys2Proof.Machine.execGrabAtHome id s
  | .queueReply id => Sys2Proof.Machine.execQueueReply id s
  | .queueRefillMove q => Sys2Proof.Machine.execQueueRefillMove q s
  | .prodsDecrement q => Sys2Proof.Machine.execProdsDecrement q s
  | .guardRequestAtHome id => Sys2Proof.Machine.execGuardRequestAtHome id s
  | .guardGrant id => Sys2Proof.Machine.execGuardGrant id s
  | .guardReleaseAtHome id => Sys2Proof.Machine.execGuardReleaseAtHome id s
  | .reinFlitDeliver unit ch => Sys2Proof.Machine.execReinFlitDeliver unit ch s
  | .faultRecordEnqueue unit => Sys2Proof.Machine.execFaultRecordEnqueue unit s
  | .pageWalkComplete id => Sys2Proof.Machine.execPageWalkComplete id s
  | .distributorEvaluate core => Sys2Proof.Machine.execDistributorEvaluate core s
  | .maxbClaimReply core => Sys2Proof.Machine.execMaxbClaimReply core s
  | .hitchRequest cluster => Sys2Proof.Machine.execHitchRequest cluster s
  | .hitchReserve cluster core => Sys2Proof.Machine.execHitchReserve cluster core s
  | .hitchResponse cluster => Sys2Proof.Machine.execHitchResponse cluster s
  | .hitchCommit cluster core => Sys2Proof.Machine.execHitchCommit cluster core s
  | .hitchCancel cluster core => Sys2Proof.Machine.execHitchCancel cluster core s
  | .blockRetire unit => Sys2Proof.Machine.execBlockRetire unit s
  | .completionEventEnqueue core => Sys2Proof.Machine.execCompletionEventEnqueue core s
  | .launchComplete gslot => Sys2Proof.Machine.execLaunchComplete gslot s
  | .whiffletreeSample j => Sys2Proof.Machine.execWhiffletreeSample j s
  | .whiffletreeTableWrite drops => Sys2Proof.Machine.execWhiffletreeTableWrite drops s
  | .sliceExpiry part => Sys2Proof.Machine.execSliceExpiry part s
  | .drainComplete core => Sys2Proof.Machine.execDrainComplete core s
  | .partitionSaved part => Sys2Proof.Machine.execPartitionSaved part s
  | .hbmAgeCapExpiry ch => Sys2Proof.Machine.execHbmAgeCapExpiry ch s
  | .hbmRefresh ch => Sys2Proof.Machine.execHbmRefresh ch s
  | .reqFrame f => Sys2Proof.Machine.execReqFrame f s
  | .rspFrame f => Sys2Proof.Machine.execRspFrame f s
  | .fwdFrame f => Sys2Proof.Machine.execFwdFrame f s
  | .sumFrame f => Sys2Proof.Machine.execSumFrame f s
  | .mcdFrame f => Sys2Proof.Machine.execMcdFrame f s
  | .mcrFrame f => Sys2Proof.Machine.execMcrFrame f s
  | .colFrame f => Sys2Proof.Machine.execColFrame f s
  | .collectiveComplete id => Sys2Proof.Machine.execCollectiveComplete id s
  | .ackFrame port seq => Sys2Proof.Machine.execAckFrame port seq s
  | .nakFrame port seq busy => Sys2Proof.Machine.execNakFrame port seq busy s
  | .retransmitTimeout port => Sys2Proof.Machine.execRetransmitTimeout port s
  | .routeTimeout pkg => Sys2Proof.Machine.execRouteTimeout pkg s
  | .partnerLinkLoss pkg => Sys2Proof.Machine.execPartnerLinkLoss pkg s
  | .sumTimer port => Sys2Proof.Machine.execSumTimer port s
  | .portFrameTime port => Sys2Proof.Machine.execPortFrameTime port s
  | .heldRecordsMove port idx => Sys2Proof.Machine.execHeldRecordsMove port idx s
  | .tailWrite q tail => Sys2Proof.Machine.execTailWrite q tail s
  | .flpop q => Sys2Proof.Machine.execFlpop q s
  | .rdmaWrite r => Sys2Proof.Machine.execRdmaWrite r s
  | .rdmaRead r => Sys2Proof.Machine.execRdmaRead r s
  | .fetchAdd r => Sys2Proof.Machine.execFetchAdd r s
  | .cmpSwap r => Sys2Proof.Machine.execCmpSwap r s
  | .hostRetryExhausted part qp => Sys2Proof.Machine.execHostRetryExhausted part qp s
  | .nopPacket p => Sys2Proof.Machine.execNopPacket p s
  | .write p => Sys2Proof.Machine.execWrite p s
  | .writeSignal p => Sys2Proof.Machine.execWriteSignal p s
  | .waitMem p => Sys2Proof.Machine.execWaitMem p s
  | .waitMemRetest q => Sys2Proof.Machine.execWaitMemRetest q s
  | .waitMemPoll q => Sys2Proof.Machine.execWaitMemPoll q s
  | .pred p => Sys2Proof.Machine.execPred p s
  | .indirect p => Sys2Proof.Machine.execIndirect p s
  | .loop p => Sys2Proof.Machine.execLoop p s
  | .launchGraph p => Sys2Proof.Machine.execLaunchGraph p s
  | .fetchFence p => Sys2Proof.Machine.execFetchFence p s
  | .link p => Sys2Proof.Machine.execLink p s
  | .segmentReturn q seg => Sys2Proof.Machine.execSegmentReturn q seg s
  | .collective p => Sys2Proof.Machine.execCollective p s
  | .event p => Sys2Proof.Machine.execEvent p s
  | .timestamp p => Sys2Proof.Machine.execTimestamp p s
  | .commandLineFetch q level line => Sys2Proof.Machine.execCommandLineFetch q level line s
  | .wqConfig m => Sys2Proof.Machine.execWqConfig m s
  | .wqStop m => Sys2Proof.Machine.execWqStop m s
  | .wqResume m => Sys2Proof.Machine.execWqResume m s
  | .unitResume m => Sys2Proof.Machine.execUnitResume m s
  | .unitTerminate m => Sys2Proof.Machine.execUnitTerminate m s
  | .unitHalt m => Sys2Proof.Machine.execUnitHalt m s
  | .graphRemove m => Sys2Proof.Machine.execGraphRemove m s
  | .sliceSet m => Sys2Proof.Machine.execSliceSet m s
  | .stateRead m => Sys2Proof.Machine.execStateRead m s
  | .stateWrite m => Sys2Proof.Machine.execStateWrite m s
  | .ctxSet m => Sys2Proof.Machine.execCtxSet m s
  | .ctxDel m => Sys2Proof.Machine.execCtxDel m s
  | .imgLoad m => Sys2Proof.Machine.execImgLoad m s
  | .attest m => Sys2Proof.Machine.execAttest m s
  | .keyRetain m => Sys2Proof.Machine.execKeyRetain m s
  | .partSet m => Sys2Proof.Machine.execPartSet m s
  | .ownXfer m => Sys2Proof.Machine.execOwnXfer m s
  | .claim m => Sys2Proof.Machine.execClaim m s
  | .release m => Sys2Proof.Machine.execRelease m s
  | .setId m => Sys2Proof.Machine.execSetId m s
  | .coldReset => Sys2Proof.Machine.execColdReset s
  | .warmReset => Sys2Proof.Machine.execWarmReset s
  | .pinsReleased => Sys2Proof.Machine.execPinsReleased s
  | .trainComplete hbmMask ports => Sys2Proof.Machine.execTrainComplete hbmMask ports s
  | .clearComplete => Sys2Proof.Machine.execClearComplete s
  | .ostlerIntegrityError => Sys2Proof.Machine.execOstlerIntegrityError s
  | .rasEvent e => Sys2Proof.Machine.execRasEvent e s
  | .powerLimit inst => Sys2Proof.Machine.execPowerLimit inst s
  | .powerLimitLifted inst => Sys2Proof.Machine.execPowerLimitLifted inst s
  | .connectionExchange c => Sys2Proof.Machine.execConnectionExchange c s
  | .geldyLinkTraining port => Sys2Proof.Machine.execGeldyLinkTraining port s
  | .congestionNotification part qp => Sys2Proof.Machine.execCongestionNotification part qp s

end Sys2Proof.Machine
end

