-- ==== Sys2Proof/Machine/Issue.lean ====
section
/-! DEFINITION. How a unit issues: fetching and checking a packet, chains, the program counter, debug events, which team of a partition
issues (R23 to R25, R58 to R63, R68, R72, R73, R285, R288, R289). -/

namespace Sys2Proof.Machine

/-- The second of two runs, after the first. -/
def andThen (r : Result) (k : State → Result) : Result :=
  match r with
  | .next s => k s
  | .fault f => .fault f
  | .refused f => .refused f

/-! ## Fetching (R68, R323) -/

/-- What a fetch gives. -/
inductive Fetched where
  | ok (ls : List (Loc × Nat))
  | wait
  | bad (code va : Nat)
deriving DecidableEq, Repr

/-- The 12 bytes at va translated: a NORMAL page with R, else 64 or 65 (R323). -/
def fetchPages (s : State) (va : Nat) : State × Fetched :=
  (pageStarts va 12).foldl (fun (r : State × Fetched) a =>
    match r.2 with
    | .ok ls =>
      let q := checkMine r.1 a 1 ⟨true, false, false⟩
      match q.2 with
      | .ok l => (q.1, if l.kind = 0 then .ok (ls ++ [(l, min (va + 12) (a / 65536 * 65536 + 65536) - a)]) else .bad 65 a)
      | .bad c => (q.1, .bad (if c % 8 = 0 then 64 else 65) a)
      | .wait => (q.1, .wait)
    | .wait => r
    | .bad _ _ => r) (s, .ok [])

/-- The bytes of translated pieces as their homes hold them. -/
def piecesNow (s : State) (ls : List (Loc × Nat)) : State × List Byte :=
  ls.foldl (fun (r : State × List Byte) p =>
    let x := homeRead r.1 p.1 (r.1.owner p.1.part) p.2
    (x.1, r.2 ++ x.2.1)) (s, [])

/-- Run k on the words of the packet at va: from a loaded image when there is one, else from memory. -/
def withFetch (s : State) (va : Nat) (image : Option (List Byte)) (k : List Nat → State → Result) : Result :=
  let r := fetchPages s va
  match r.2 with
  | .wait => .next (stall r.1)
  | .bad c a => .next (raise { causeOf c with addr := a } (dropMisses r.1 (requester s.cur)))
  | .ok ls =>
    let s := dropMisses r.1 (requester s.cur)
    match image with
    | some bs => k (packetWords bs) s
    | none =>
      let x := piecesNow s ls
      k (packetWords x.2) x.1

/-! ## Chains (R60 to R62) -/

def atSlot (k : Nat) (s : State) : State := (s.modTeam fun t => { t with slot := k }).withFate .completed

/-- An issue run by itself on a state: the meaning of its instruction. -/
def runIssue (i : Issue) (s : State) : Result := exec i.instr (atSlot i.slot s)

/-- How a member ends when it runs by itself. -/
def aloneFate (i : Issue) (s : State) : Fate :=
  match runIssue i s with
  | .next s' => s'.fate
  | .fault _ => .trapped
  | .refused _ => .trapped

/-- The cause of the trap just taken: in the stop's record, else in ECAUSE. -/
def lastCause (s : State) : Nat :=
  match s.team.stop with
  | some r => (r.words.getD 3 0).toNat
  | none => s.team.ecause.toNat

/-- A member that traps after its effect: an atomic that met poison (R164). -/
def trapsAfter (i : Issue) (s : State) : Bool :=
  match runIssue i s with
  | .next s' => s'.fate == .trapped && decide (64 ≤ lastCause s' % 512) && lastCause s' / 2 ^ 15 % 2 == 1
  | .fault _ => false
  | .refused _ => false

/-- A member that cannot finish has started what it waits for. -/
def hasStarted (i : Issue) (s : State) : Bool :=
  match runIssue i s with
  | .next s' => (tget s'.team.waits i.slot).getD .none != .none
  | .fault _ => false
  | .refused _ => false

/-- The place of a member when a chain is applied: a WAIT first, for it speaks of what stood before the chain; a late trap after the
others; a transfer or an end last. -/
def memberRank (s : State) (i : Issue) : Nat :=
  match i.instr with
  | .wait _ => 0
  | _ =>
    match aloneFate i s with
    | .completed => 1
    | .stalled => 1
    | .trapped => 2
    | .transferred => 3
    | .ended => 3

/-- The members of a chain in the order in which they are applied. -/
def inRank (c : List Issue) (s : State) : List Issue :=
  (List.range 4).flatMap fun r => c.filter fun i => memberRank s i == r

/-- Members applied one after the other, with the slots of those that took effect and whether one stays behind. A late trap ends the chain with
it: the transfer or end that would follow is not made (log 15). -/
def runMembers (k : List Nat → Bool → State → Result) : List Issue → List Nat → Bool → State → Result
  | [], done, held, s => k done held s
  | i :: is, done, held, s =>
    andThen (runIssue i s) fun s' =>
      match s'.fate with
      | .completed => runMembers k is (insertNat i.slot done) held (wakeSleepers s')
      | .stalled => runMembers k is done true s'
      | .trapped => .next s'
      | .transferred => .next s'
      | .ended => .next s'

/-- A register of a team as it stood in another: classes 0 vector, 1 scalar, 2 predicate. -/
def Team.restore (t before : Team) (d : Nat × Nat) : Team :=
  match d.1 with
  | 0 =>
    let a := (before.winbase + d.2) * 1024
    { t with vregs := (List.range 1024).foldl (fun v i => tset v (a + i) (wget before.vregs (a + i))) t.vregs }
  | 1 => { t with sregs := tset t.sregs (physS before d.2) (wget before.sregs (physS before d.2)) }
  | 2 => { t with pregs := tset t.pregs d.2 (wget before.pregs d.2) }
  | _ => t

/-- A chain: a member that traps decides alone, and what others have brought back is undone; one that cannot finish holds the others back, and
what has to start comes before what waits for its data; else every member reads what stood before the chain (R60). -/
def runChain (c : List Issue) (s : State) : Result :=
  match c with
  | [i] => runIssue i s
  | _ =>
    let key := teamKey s.cur
    let e := (tget s.chains key).getD ⟨s.team, []⟩
    let left := c.filter fun i => !inList i.slot e.done
    let v := { s with snap := some e.before }
    let fin (r : Result) : Result :=
      andThen r fun u => .next { u with
        snap := none
        chains := if u.fate == .stalled then u.chains else tdel u.chains key }
    match left.find? fun i => aloneFate i v == .trapped && !trapsAfter i v with
    | some i =>
      fin (runIssue i (if (tget s.chains key).isSome then
        v.modTeam fun t => (left.flatMap fun j => destsOf s.block.w j.instr).foldl (fun t d => t.restore e.before d) t
        else v))
    | none =>
      let held := left.filter fun i => aloneFate i v == .stalled
      let fresh := held.filter fun i => !hasStarted i v
      let wait (k : State → State) : List Nat → Bool → State → Result := fun _ _ u => .next (stall (k u))
      if held.isEmpty then
        fin (runMembers (fun done behind u => .next
          (if behind then stall { u with chains := tset u.chains key ⟨e.before, done⟩ } else u.withFate .completed))
          (inRank left v) e.done false v)
      else if fresh.isEmpty then fin (runMembers (wait fun u => { u with chains := tset u.chains key e }) held [] false v)
      else fin (runMembers (wait id) fresh [] false v)

/-! ## After an issue -/

/-- A packet of a team is over: the issue policy counts it, a single step traps (R24, R289). -/
def packetOver (u0 : Bool) (s : State) : State :=
  let s := s.modTeam fun t => { t with
    consec := t.consec + 1
    yielded := t.yielded || decide (t.greedy ≤ t.consec + 1) }
  if u0 && s.team.sstep then raiseCode 60 s else s

/-- The program counter moves to slot k of its packet, or past its end. -/
def moveTo (k : Nat) (u0 : Bool) (s : State) : State :=
  if k < 3 then s.modTeam fun t => { t with slot := k }
  else packetOver u0 (s.modTeam fun t => { t with pkt := t.pkt + 1, slot := 0, ibuf := none })

/-- What follows an issue that ends at slot k: u0 tells that it ran in U mode. SKIP is cleared by what has issued (R282). -/
def afterIssue (k : Nat) (u0 : Bool) (s : State) : State :=
  let pass (s : State) : State := if u0 then s.modTeam fun t => { t with skip := false } else s
  match s.fate with
  | .completed => moveTo k u0 (pass s)
  | .transferred => packetOver u0 (pass s)
  | .trapped => pass s
  | .stalled => s.modTeam fun t => { t with blocked := true }
  | .ended => s

/-- The unit of issue at the team's slot: of a chain that is entered in its middle only the members from there on (R58). -/
def issueNow (ws : List Nat) (s : State) : Result :=
  let t := s.team
  let c := chainAt ws t.slot
  if c.isEmpty then .next (moveTo 3 (!t.priv) s)
  else
    andThen (runChain (c.filter fun i => decide (t.slot ≤ i.slot)) s) fun s' =>
      .next (afterIssue (chainEnd c) (!t.priv)
        (if s'.fate == .completed || s'.fate == .stalled then s'.modTeam fun x => { x with slot := t.slot } else s'))

/-! ## Starting a packet (R68, R285, R288, R289) -/

/-- An enabled breakpoint of a team matches a packet of the kernel (img 0) or of the coachman stream (1). -/
def breakAt (t : Team) (img pkt : Nat) : Bool :=
  (List.range 4).any fun j =>
    let b := (wget t.bpc j).toNat
    b / 2 ^ 63 % 2 == 1 && b / 2 ^ 62 % 2 == img && fld b 0 36 == pkt * 12

/-- An injected cause is delivered by its class: escalated (X), logged (L), or precise; 321 is both logged and precise (R283, R285). -/
def injectCause (code : Nat) (s : State) : State :=
  let s := s.modTeam fun t => { t with tinj := none }
  let c := { causeOf code with inj := true }
  let log := if code = 288 ∨ code = 289 ∨ 320 ≤ code then logRas s s.block.part code s.cur.core 0 s.block.ctx else s
  if (40 ≤ code ∧ code ≤ 44) ∨ (61 ≤ code ∧ code ≤ 63) ∨ (272 ≤ code ∧ code ≤ 279) then escalate c s
  else if code = 288 ∨ code = 289 ∨ (320 ≤ code ∧ code ≠ 321) then log
  else raise c log

/-- The packet lies in a pool: in a listed range, or behind a marker (R72). -/
def inPool (s : State) (pkt : Nat) (ws : List Nat) : Bool :=
  (!s.team.priv && s.block.kern.pools.any fun p => decide (p.1 ≤ pkt) && decide (pkt < p.1 + p.2)) ||
    wordOp (ws.getD 0 0) == 0x17

/-- A packet with its words is checked and its first unit issued. -/
def checkAndIssue (ws : List Nat) (s : State) : Result :=
  if inPool s s.team.pkt ws then .next (raiseCode 54 (s.modTeam fun t => { t with slot := 0, ibuf := some ws }))
  else
    match checkPacket s ws with
    | .error (k, code) => .next (raiseCode code (s.modTeam fun t => { t with slot := k, ibuf := some ws }))
    | .ok _ => issueNow ws (s.modTeam fun t => { t with ibuf := some ws })

/-- A new packet: writes that waited for it take effect; held injections, halts and breakpoints come first. -/
def startPacket (s0 : State) : Result :=
  let s := s0.modTeam fun t => { t.settle with fpnew := 0 }
  let t := s.team
  match t.priv, t.tinj with
  | false, some c => .next (injectCause c s)
  | _, _ =>
    if !t.priv && t.halt then .next (escalate (causeOf 62) (s.modTeam fun t => { t with halt := false }))
    else if !t.priv && !t.skip && t.slot == 0 && breakAt t 0 t.pkt then .next (raiseCode 58 s)
    else if imagePackets s ≤ t.pkt then .next (raiseCode 48 (s.modTeam fun t => { t with slot := 0 }))
    else
      withFetch s ((imageBase s + t.pkt * 12) % 2 ^ 64)
        (if t.priv then none else some (mread s.block.kern.image (t.pkt * 12) 12)) checkAndIssue

/-- What a stalled attempt at a new packet leaves. -/
def markStall (r : Result) : Result :=
  andThen r fun s => .next (if s.fate == .stalled then s.modTeam fun t => { t with blocked := true } else s)

/-- The current unit, a team, goes on. -/
def teamStep (s : State) : Result :=
  let s := s.withFate .completed
  match s.team.ibuf with
  | none => markStall (startPacket s)
  | some ws => issueNow ws s

/-! ## The coachman (R73, R235, R289) -/

/-- A coachman instruction: a direct call of its meaning. -/
def runCoach (o : CoachOp) (s : State) : Result :=
  match o with
  | .mnop => execMnop s
  | .msetz r => execMsetz r s
  | .mzer z => execMzer z s
  | .mma o mf shr arank k => execMma o mf shr arank k s
  | .mmag o mf zt gm k => execMmag o mf zt gm k s
  | .mmat o mf zm k => execMmat o mf zm k s
  | .mldw zw zs mf => execMldw zw zs mf s
  | .mdrn zd zs sh sat act tbl mf zero => execMdrn zd zs sh sat act tbl mf zero s
  | .mbar n m => execMbar n m s
  | .mwat k st off => execMwat k st off s
  | .mlop n cnt => execMlop n cnt s
  | .mbra o => execMbra o s
  | .mbraLoop n o => execMbraLoop n o s
  | .mend => execMend s

/-- What follows a coachman instruction that ends at slot k. -/
def coachFinish (k : Nat) (s : State) : State :=
  match s.fate with
  | .completed =>
    if k < 3 then s.modCoach fun c => { c with slot := k }
    else s.modCoach fun c => { c with pkt := c.pkt + 1, slot := 0, ibuf := none }
  | .stalled => s.modCoach fun c => { c with blocked := true }
  | .transferred => s
  | .trapped => s
  | .ended => s

/-- The coachman instruction at the current slot. -/
def coachIssue (ws : List Nat) (s : State) : Result :=
  match decodeCoachFrom 3 0 ws with
  | .error _ => .next (s.modCoach fun c => { c with pkt := c.pkt + 1, slot := 0, ibuf := none })
  | .ok is =>
    match is.find? fun i => i.slot == s.coach.slot with
    | some i => andThen (runCoach i.op s) fun s' => .next (coachFinish (i.slot + i.size) s')
    | none => .next (s.modCoach fun c => { c with pkt := c.pkt + 1, slot := 0, ibuf := none })

/-- Teams of the current block with a breakpoint on the coachman's packet. -/
def coachBreak (s : State) : Bool :=
  s.teams.any fun t => t.1 / 64 == blockKey s.cur && !t.2.priv && breakAt t.2 1 s.coach.pkt

/-- A new packet of the coachman stream. -/
def coachStart (s : State) : Result :=
  if s.block.kern.mpkt ≤ s.coach.pkt then .next (raiseCode 40 s)
  else
    withFetch s ((s.block.kern.mcode + s.coach.pkt * 12) % 2 ^ 64) none fun ws s =>
      if coachBreak s && s.coach.slot == 0 then .next (escalate (causeOf 61) (s.modCoach fun c => { c with ibuf := some ws }))
      else match decodeCoachFrom 3 0 ws with
      | .error (k, code) => .next (raiseCode code (s.modCoach fun c => { c with slot := k, ibuf := some ws }))
      | .ok _ => coachIssue ws (s.modCoach fun c => { c with ibuf := some ws })

/-- The current unit, a coachman, goes on. -/
def coachStep (s : State) : Result :=
  let s := s.withFate .completed
  match s.coach.ibuf with
  | none => andThen (coachStart s) fun s' => .next (if s'.fate == .stalled then s'.modCoach fun c => { c with blocked := true } else s')
  | some ws => coachIssue ws s

/-! ## Which team issues (R18, R23, R24) -/

/-- The block of a key lets its units run: started, on a core that is not being switched, or with a packet still under way. -/
def blockRuns (s : State) (key : Nat) (mid : Bool) : Bool :=
  s.phase == .ready &&
    (match tget s.blocks key with
    | some b => !b.aside && !b.retired
    | none => false) &&
    (match (s.core (key / 16)).phase with
    | .run => true
    | .stop => mid
    | _ => false)

/-- A team may issue. -/
def teamReady (s : State) (k : Nat) (t : Team) : Bool :=
  t.status == .running && !t.blocked && blockRuns s (k / 64) (midPacket s k t)

/-- The ready teams of a partition of a core. -/
def readyTeams (s : State) (core part : Nat) : List (Nat × Team) :=
  s.teams.filter fun t => t.1 / 1024 == core && t.2.rfpart == part && teamReady s t.1 t.2

/-- Team a comes before team b: launched earlier, then the lower team number, then the lower block slot. -/
def older (a b : Nat × Team) : Bool :=
  decide (a.2.stamp < b.2.stamp) ||
    (a.2.stamp == b.2.stamp && (decide (a.1 % 64 < b.1 % 64) || (a.1 % 64 == b.1 % 64 && decide (a.1 < b.1))))

def oldest : List (Nat × Team) → Option (Nat × Team)
  | [] => none
  | t :: ts =>
    match oldest ts with
    | some u => if older u t then some u else some t
    | none => some t

/-- Yielded marks of a partition cleared. -/
def clearYields (s : State) (core part : Nat) : State :=
  { s with teams := s.teams.map fun (t : Nat × Team) =>
      if t.1 / 1024 = core ∧ t.2.rfpart = part then (t.1, { t.2 with yielded := false }) else t }

/-- The team a partition issues from next, and the state with its marks: greedy, then oldest (R24). -/
def pickTeam (s : State) (core part : Nat) : Option (Nat × State) :=
  let rs := readyTeams s core part
  let cur := tget s.curTeam (core * 4 + part)
  let choose (k : Nat) (s : State) : State :=
    { s with
      curTeam := tset s.curTeam (core * 4 + part) k
      teams := s.teams.map fun (t : Nat × Team) => if t.1 = k then (t.1, { t.2 with consec := 0 }) else t }
  match rs.find? fun t => some t.1 == cur && (t.2.slot != 0 || t.2.ibuf.isSome || (!t.2.yielded && decide (t.2.consec < t.2.greedy))) with
  | some t => some (t.1, s)
  | none =>
    match oldest (rs.filter fun t => !t.2.yielded) with
    | some t => some (t.1, choose t.1 s)
    | none => (oldest rs).map fun t => (t.1, choose t.1 (clearYields s core part))

/-- A team's own key as a unit. -/
def teamUnit (k : Nat) : UnitId := ⟨k / 1024, k / 64 % 16, k % 64, false⟩
def coachUnit (k : Nat) : UnitId := ⟨k / 16, k % 16, 0, true⟩

/-- One issue of a partition of a core. -/
def issueTeam (core part : Nat) (s : State) : Result :=
  match pickTeam s core part with
  | none => .next s
  | some (k, s) => teamStep { s with cur := teamUnit k }

/-- A coachman may go on. -/
def coachReady (s : State) (k : Nat) (c : Coach) : Bool :=
  c.status == .running && !c.blocked && blockRuns s k (c.slot != 0)

/-- Something has moved: sleepers and waiting queues test what they wait for, and every unit that waited tries again (R203, R338). -/
def wakeAll (s0 : State) : State :=
  let s := retestAll (wakeSleepers s0)
  { s with
    teams := s.teams.map fun (t : Nat × Team) => if t.2.blocked then (t.1, { t.2 with blocked := false }) else t
    coaches := s.coaches.map fun (c : Nat × Coach) => if c.2.blocked then (c.1, { c.2 with blocked := false }) else c }

end Sys2Proof.Machine
end

