-- ==== Sys2Proof/Machine/Engine.lean ====
section
/-! DEFINITION. What moves by itself between instructions: the events of the table that hardware brings about, the work of engines that
no row names, and who may move next (R178, R371). -/

namespace Sys2Proof.Machine

/-- The rows that the package's own units bring about. Rows that come from outside arrive through `inputs`. -/
inductive Ev where
  | tableSwap (core t : Nat)
  | drayJobStop (id : Nat)
  | drayJobComplete (id : Nat)
  | paddockWritebackComplete (id : Nat)
  | paddockFillComplete (id : Nat)
  | arrayDispatch (id : Nat)
  | matrixOpComplete (id : Nat)
  | loadComplete (id : Nat)
  | storeAck (id : Nat)
  | atomicComplete (id : Nat)
  | sliceLoad (id : Nat)
  | sliceStore (id : Nat)
  | sliceAtomic (id : Nat)
  | sliceReduce (id : Nat)
  | sliceLineFill (slice line : Nat)
  | tileLockAcquired (id : Nat)
  | tileComplete (id : Nat)
  | enqAtHome (id : Nat)
  | deqAtHome (id : Nat)
  | deqWaitServed (id : Nat)
  | grabAtHome (id : Nat)
  | queueReply (id : Nat)
  | queueRefillMove (k : Nat)
  | prodsDecrement (k : Nat)
  | guardRequestAtHome (id : Nat)
  | guardGrant (id : Nat)
  | guardReleaseAtHome (id : Nat)
  | reinFlitDeliver (unit ch : Nat)
  | faultRecordEnqueue (unit : Nat)
  | pageWalkComplete (id : Nat)
  | distributorEvaluate (core : Nat)
  | maxbClaimReply (core : Nat)
  | hitchRequest (cluster : Nat)
  | hitchReserve (cluster core : Nat)
  | hitchResponse (cluster : Nat)
  | hitchCommit (cluster core : Nat)
  | hitchCancel (cluster core : Nat)
  | blockRetire (unit : Nat)
  | completionEventEnqueue (core : Nat)
  | launchComplete (gslot : Nat)
  | whiffletreeSample (j : Nat)
  | whiffletreeTableWrite (drops : List Nat)
  | sliceExpiry (part : Nat)
  | drainComplete (core : Nat)
  | partitionSaved (part : Nat)
  | hbmAgeCapExpiry (ch : Nat)
  | hbmRefresh (ch : Nat)
  | collectiveComplete (id : Nat)
  | retransmitTimeout (port : Nat)
  | routeTimeout (pkg : Nat)
  | sumTimer (port : Nat)
  | portFrameTime (port : Nat)
  | heldRecordsMove (port idx : Nat)
  | nopPacket (p : Pkt)
  | write (p : Pkt)
  | writeSignal (p : Pkt)
  | waitMem (p : Pkt)
  | waitMemRetest (q : Nat)
  | waitMemPoll (q : Nat)
  | pred (p : Pkt)
  | indirect (p : Pkt)
  | loop (p : Pkt)
  | launchGraph (p : Pkt)
  | fetchFence (p : Pkt)
  | link (p : Pkt)
  | segmentReturn (q seg : Nat)
  | collective (p : Pkt)
  | event (p : Pkt)
  | timestamp (p : Pkt)
  | commandLineFetch (q level line : Nat)
  | clearComplete
deriving DecidableEq, Repr

/-- An event: a direct call of its meaning. -/
def runEv (e : Ev) (s : State) : Result :=
  match e with
  | .tableSwap core t => execTableSwap core t s
  | .drayJobStop id => execDrayJobStop id s
  | .drayJobComplete id => execDrayJobComplete id s
  | .paddockWritebackComplete id => execPaddockWritebackComplete id s
  | .paddockFillComplete id => execPaddockFillComplete id s
  | .arrayDispatch id => execArrayDispatch id s
  | .matrixOpComplete id => execMatrixOpComplete id s
  | .loadComplete id => execLoadComplete id s
  | .storeAck id => execStoreAck id s
  | .atomicComplete id => execAtomicComplete id s
  | .sliceLoad id => execSliceLoad id s
  | .sliceStore id => execSliceStore id s
  | .sliceAtomic id => execSliceAtomic id s
  | .sliceReduce id => execSliceReduce id s
  | .sliceLineFill slice line => execSliceLineFill slice line s
  | .tileLockAcquired id => execTileLockAcquired id s
  | .tileComplete id => execTileComplete id s
  | .enqAtHome id => execEnqAtHome id s
  | .deqAtHome id => execDeqAtHome id s
  | .deqWaitServed id => execDeqWaitServed id s
  | .grabAtHome id => execGrabAtHome id s
  | .queueReply id => execQueueReply id s
  | .queueRefillMove k => execQueueRefillMove k s
  | .prodsDecrement k => execProdsDecrement k s
  | .guardRequestAtHome id => execGuardRequestAtHome id s
  | .guardGrant id => execGuardGrant id s
  | .guardReleaseAtHome id => execGuardReleaseAtHome id s
  | .reinFlitDeliver unit ch => execReinFlitDeliver unit ch s
  | .faultRecordEnqueue unit => execFaultRecordEnqueue unit s
  | .pageWalkComplete id => execPageWalkComplete id s
  | .distributorEvaluate core => execDistributorEvaluate core s
  | .maxbClaimReply core => execMaxbClaimReply core s
  | .hitchRequest cluster => execHitchRequest cluster s
  | .hitchReserve cluster core => execHitchReserve cluster core s
  | .hitchResponse cluster => execHitchResponse cluster s
  | .hitchCommit cluster core => execHitchCommit cluster core s
  | .hitchCancel cluster core => execHitchCancel cluster core s
  | .blockRetire unit => execBlockRetire unit s
  | .completionEventEnqueue core => execCompletionEventEnqueue core s
  | .launchComplete gslot => execLaunchComplete gslot s
  | .whiffletreeSample j => execWhiffletreeSample j s
  | .whiffletreeTableWrite drops => execWhiffletreeTableWrite drops s
  | .sliceExpiry part => execSliceExpiry part s
  | .drainComplete core => execDrainComplete core s
  | .partitionSaved part => execPartitionSaved part s
  | .hbmAgeCapExpiry ch => execHbmAgeCapExpiry ch s
  | .hbmRefresh ch => execHbmRefresh ch s
  | .collectiveComplete id => execCollectiveComplete id s
  | .retransmitTimeout port => execRetransmitTimeout port s
  | .routeTimeout pkg => execRouteTimeout pkg s
  | .sumTimer port => execSumTimer port s
  | .portFrameTime port => execPortFrameTime port s
  | .heldRecordsMove port idx => execHeldRecordsMove port idx s
  | .nopPacket p => execNopPacket p s
  | .write p => execWrite p s
  | .writeSignal p => execWriteSignal p s
  | .waitMem p => execWaitMem p s
  | .waitMemRetest q => execWaitMemRetest q s
  | .waitMemPoll q => execWaitMemPoll q s
  | .pred p => execPred p s
  | .indirect p => execIndirect p s
  | .loop p => execLoop p s
  | .launchGraph p => execLaunchGraph p s
  | .fetchFence p => execFetchFence p s
  | .link p => execLink p s
  | .segmentReturn q seg => execSegmentReturn q seg s
  | .collective p => execCollective p s
  | .event p => execEvent p s
  | .timestamp p => execTimestamp p s
  | .commandLineFetch q level line => execCommandLineFetch q level line s
  | .clearComplete => execClearComplete s

/-- Work of an engine that no row of the table names. -/
inductive Eng where
  /-- a dray job moves on by a granule (R223) -/
  | dray (id : Nat)
  /-- a stage finishes (R263) -/
  | stage (gs n : Nat)
  /-- frames refused busy, and frames without a route, are sent again (R348, R354) -/
  | resend (port : Nat)
  | unsent
  /-- an L1 sector is evicted (R144) -/
  | evict (k : Nat)
  /-- a full core TLB drops an entry (R324) -/
  | tlb (core : Nat)
  /-- a removal goes on, a terminated team releases a guard, a reply leaves (R207, R299, R345) -/
  | sweep (gs : Nat)
  | guard (k : Nat)
  | replies (part : Nat)
  /-- a queue goes on at its next packet where that is no row of its own: errors and packets passed over (R338, R342) -/
  | queue (q : Nat)
deriving DecidableEq, Repr

/-- The row of a packet, by OP (R334). -/
def packetEv (op : Nat) (p : Pkt) : Ev :=
  match op with
  | 0 => .nopPacket p
  | 1 => .write p
  | 2 => .writeSignal p
  | 3 => .waitMem p
  | 4 => .pred p
  | 5 => .indirect p
  | 6 => .loop p
  | 7 => .launchGraph p
  | 8 => .fetchFence p
  | 9 => .link p
  | 10 => .collective p
  | 11 => .event p
  | _ => .timestamp p

/-- A queue at its next packet: fetched, then passed over, stopped or run. -/
def queueGo (q : Nat) (s : State) : Result :=
  let r := nextPacket s q
  match r.2 with
  | .wait => .next r.1
  | .bad e c => .next (wqError r.1 q e c)
  | .pass n => .next (passPacket r.1 q n)
  | .run op p => runEv (packetEv op p) r.1

/-- Entry k of a list is taken out. -/
def dropAt {α : Type} (k : Nat) (l : List α) : List α := l.take k ++ l.drop (k + 1)

/-- L1 sector k leaves its cache, its dirty bytes for their home. -/
def evictSector (s : State) (k : Nat) : State :=
  match s.l1[k]? with
  | none => s
  | some x =>
    let s := if x.dirty = 0 then s else writeBackSector s x
    { s with l1 := s.l1.filter fun y => !(y.core == x.core && y.loc == x.loc) }

/-- A core's TLB drops one of its entries, any of them. -/
def evictTlb (s : State) (core : Nat) : State :=
  let n := s.tlb.length
  let ks := (List.range n).filter fun k => (s.tlb.getD k ⟨0, 0, 0, 0, 0, 0⟩).holder == core
  match ks[Config.freeChoice s.fresh 3 % ks.length]? with
  | none => s
  | some k => { s with tlb := dropAt k s.tlb }

/-- One piece of an engine's work. -/
def runEng (e : Eng) (s : State) : Result :=
  match e with
  | .dray id => .next (jobProgress s id)
  | .stage gs n => .next (finishStage s gs n)
  | .resend port => .next (portResend s port)
  | .unsent => .next (retryUnsent s)
  | .evict k => .next (evictSector s k)
  | .tlb core => .next (evictTlb s core)
  | .sweep gs => .next (sweepGraph gs s)
  | .guard k => .next (dropGuard (teamUnit k) s)
  | .replies part => .next (flushReplies part s)
  | .queue q => queueGo q s

/-- What may move. -/
inductive Act where
  | input
  | ev (e : Ev)
  | eng (e : Eng)
  | team (core part : Nat)
  | coach (key : Nat)
deriving DecidableEq, Repr

/-! ## Candidates -/

def reqEvs (s : State) : List Ev :=
  s.reqs.flatMap fun r => match r.2.kind with
    | .load _ => [.sliceLoad r.1, .loadComplete r.1]
    | .store _ => [.sliceStore r.1, .storeAck r.1]
    | .atomic _ _ _ _ => [.sliceAtomic r.1, .atomicComplete r.1]
    | .reduce _ _ _ _ _ => [.sliceReduce r.1, .storeAck r.1]

def opEvs (s : State) : List Ev :=
  s.ops.flatMap fun o => match o.2.kind with
    | .load _ _ _ _ => []
    | .atomic _ _ _ _ => []
    | .tile _ _ _ _ _ => [.tileLockAcquired o.1, .tileComplete o.1]
    | .enq _ _ _ _ _ _ _ => [.enqAtHome o.1, .queueReply o.1]
    | .deq _ _ _ _ _ _ _ _ => [.deqAtHome o.1, .deqWaitServed o.1, .queueReply o.1]
    | .grab _ _ _ _ _ _ => [.grabAtHome o.1, .queueReply o.1]
    | .guardReq _ _ _ _ _ => [.guardRequestAtHome o.1, .guardGrant o.1]
    | .guardRel _ _ => [.guardReleaseAtHome o.1]
    | .tabld t _ _ _ => [.tableSwap o.2.unit.core t]
    | .attach _ _ _ _ _ => [.paddockFillComplete o.1, .paddockWritebackComplete o.1]
    | .evict _ => [.paddockWritebackComplete o.1]
    | .tlbi => []
    | .retire => []

def unitEvs (s : State) : List Ev :=
  (s.teams.flatMap fun t => (t.2.snd.map fun f => .reinFlitDeliver t.1 f.1) ++
    (match t.2.stop with
    | some r => if r.sent then [] else [.faultRecordEnqueue t.1]
    | none => [])) ++
  (s.coaches.flatMap fun c => match c.2.stop with
    | some r => if r.sent then [] else [.faultRecordEnqueue (2 ^ 20 + c.1)]
    | none => []) ++
  ((s.blocks.filter fun b => canRetire s b.1 b.2).map fun b => .blockRetire b.1)

def coreEvs (s : State) : List Ev :=
  s.cores.flatMap fun c =>
    ((List.range c.2.flits.length).map (.reinFlitDeliver (2 ^ 20 + c.1))) ++
    (if c.2.evalDue then [.distributorEvaluate c.1] else []) ++
    (if c.2.claim.isSome then [.maxbClaimReply c.1] else []) ++
    (if c.2.events.isEmpty then [] else [.completionEventEnqueue c.1]) ++
    (match c.2.phase with
    | .stop => [.drainComplete c.1]
    | .flush => [.drainComplete c.1]
    | .run => []
    | .drain => []
    | .save => []
    | .idle => []
    | .load => [])

def hitchEvs (s : State) : List Ev :=
  s.hitches.flatMap fun h =>
    if h.2.isEmpty then []
    else [.hitchRequest h.1, .hitchResponse h.1] ++
      ((List.range 8).flatMap fun i => [.hitchReserve h.1 (8 * h.1 + i), .hitchCommit h.1 (8 * h.1 + i), .hitchCancel h.1 (8 * h.1 + i)])

/-- The next frame pair, and the oldest sample: with no frame dropped, or with any one of them (R301, R303). -/
def whiffleEvs (s : State) : List Ev :=
  (if s.wstarted then [.whiffletreeSample s.wnext] else []) ++
    (if s.wsample.isEmpty then [] else [.whiffletreeTableWrite [], .whiffletreeTableWrite [Config.freeChoice s.fresh 4 % 384]])

def packageEvs (s : State) : List Ev :=
  (s.jobs.flatMap fun j => [.drayJobStop j.1, .drayJobComplete j.1]) ++
  (s.mops.flatMap fun m => [.arrayDispatch m.1, .matrixOpComplete m.1]) ++
  (s.channels.flatMap fun c => (c.2.queue.map fun k => Ev.sliceLineFill (k / 2 ^ 32) (k % 2 ^ 32)) ++
    (if c.2.queue.isEmpty then [] else [.hbmAgeCapExpiry c.1, .hbmRefresh c.1])) ++
  (s.refills.map fun r => .queueRefillMove r.1) ++ (s.prodMsgs.map fun r => .prodsDecrement r.1) ++
  (s.walks.map fun w => .pageWalkComplete w.1) ++ (s.graphs.map fun g => .launchComplete g.1) ++
  (s.parts.map fun p => .sliceExpiry p.1) ++ (s.switching.map fun p => .partitionSaved p.1) ++
  (s.colls.map fun c => .collectiveComplete c.1) ++
  (if s.phase = .clear then [.clearComplete] else [])

def portEvs (s : State) : List Ev :=
  (s.ports.flatMap fun p =>
    (if p.2.unacked.isEmpty then [] else [Ev.retransmitTimeout p.1]) ++ (if p.2.up then [.sumTimer p.1, .portFrameTime p.1] else []) ++
      (p.2.store.map fun h => .heldRecordsMove p.1 h.pidx)) ++
  ((s.unsent.map Prod.fst).filter (routeless s)).map .routeTimeout

/-- A queue has a packet to begin or go on with. -/
def queueDue (s : State) (q : Nat) (w : WorkQueue) : Bool :=
  wqLive s q &&
    (match w.wait with
    | .remote => !remoteLeft s q
    | .mem => false
    | .none => w.state == 2 || w.step == 9
    | .slot => (freeGraphSlot s w.part).isSome
    | .drain => w.pending == 0
    | .launch _ => w.step == 9
    | .collective _ => w.step == 9)

def queueEvs (s : State) : List Ev :=
  s.wqs.flatMap fun w =>
    (w.2.leaving.head?.toList.map fun seg => Ev.segmentReturn w.1 seg) ++
    (if w.2.wait = .mem then [.waitMemRetest w.1, .waitMemPoll w.1] else []) ++
    (if w.2.state = 2 ∨ w.2.state = 3 ∨ w.2.state = 4 then
      (List.range 6).map fun i => .commandLineFetch w.1 w.2.depth (w.2.here / 64 + i) else [])

/-- Every event that might be due. -/
def candidateEvs (s : State) : List Ev :=
  reqEvs s ++ opEvs s ++ unitEvs s ++ coreEvs s ++ hitchEvs s ++ whiffleEvs s ++ packageEvs s ++ portEvs s ++ queueEvs s

/-- Cores with more entries than their TLB has (R324). -/
def fullTlbs (s : State) : List Nat :=
  ((s.tlb.map TlbEntry.holder).eraseDups).filter fun c => decide (256 < (s.tlb.filter fun e => e.holder == c).length)

def engines (s : State) : List Eng :=
  (s.jobs.map fun j => Eng.dray j.1) ++
  (s.graphs.flatMap fun g => ((List.range g.2.stages.length).filter (stageDone s g.2)).map (Eng.stage g.1)) ++
  (s.ports.flatMap fun p => if p.2.resend.isEmpty then [] else [Eng.resend p.1]) ++
  (if s.unsent.isEmpty then [] else [.unsent]) ++
  ((List.range s.l1.length).map .evict) ++ ((fullTlbs s).map .tlb) ++
  ((s.graphs.filter fun g => sweepDue s g.1).map fun g => .sweep g.1) ++
  ((s.teams.filter fun t => t.2.status == .terminated && !t.2.guards.isEmpty).map fun t => .guard t.1) ++
  (((s.replies.map Reply.part).eraseDups.filter (repliesDue s)).map .replies) ++
  ((s.wqs.filter fun w => queueDue s w.1 w.2).map fun w => .queue w.1)

/-- A run changes the state. -/
def changes (r : Result) (s : State) : Bool :=
  match r with
  | .next s' => decide (s' ≠ s)
  | .fault _ => true
  | .refused _ => true

/-- Partitions of cores with a team that may issue. -/
def issuers (s : State) : List (Nat × Nat) :=
  ((s.teams.filter fun t => teamReady s t.1 t.2).map fun t => (t.1 / 1024, t.2.rfpart)).eraseDups

/-- Who may move: the next arrival from outside, events and engines with something to do, units that may issue. -/
def acts (s : State) : List Act :=
  (if s.inputs.isEmpty then [] else [.input]) ++
  (((candidateEvs s).filter fun e => changes (runEv e s) s).map .ev) ++
  (((engines s).filter fun e => changes (runEng e s) s).map .eng) ++
  ((issuers s).map fun x => .team x.1 x.2) ++
  ((s.coaches.filter fun c => coachReady s c.1 c.2).map fun c => .coach c.1)

/-- The next arrival from outside; one that must wait stays (R154). -/
def takeInput (s : State) : Result :=
  match s.inputs with
  | [] => .next s
  | i :: rest => andThen (exec i s) fun s' => .next (if s'.fate = .stalled then s' else { s' with inputs := rest })

/-- One move. What was blocked is tried again when something other than a waiting unit has moved. -/
def runAct (a : Act) (s : State) : Result :=
  let s := s.withFate .completed
  match a with
  | .input => andThen (takeInput s) fun s' => .next (wakeAll s')
  | .ev e => andThen (runEv e s) fun s' => .next (wakeAll s')
  | .eng e => andThen (runEng e s) fun s' => .next (wakeAll s')
  | .team core part => andThen (issueTeam core part s) fun s' => .next (if s'.fate = .stalled then s' else wakeAll s')
  | .coach key => andThen (coachStep { s with cur := coachUnit key }) fun s' => .next (if s'.fate = .stalled then s' else wakeAll s')

/-- The move that is made: the only one there is, or any. -/
def chooseAct (s : State) (as : List Act) : Option Act :=
  match as with
  | [] => none
  | [a] => some a
  | _ => as[Config.freeChoice s.fresh 0 % as.length]?

/-- Time passes, and the next step sees other free values. -/
def tick (fresh : Nat) (s : State) : State := { s with fresh := fresh + 1, clock := s.clock + 1 + Config.freeTick fresh }

/-- One step of the package. -/
def move (s : State) : Result :=
  match chooseAct s (acts s) with
  | none => .next (tick s.fresh s)
  | some a => andThen (runAct a s) fun s' => .next (tick s.fresh s')

end Sys2Proof.Machine
end

