-- ==== Sys2Proof/Machine/Place.lean ====
section
/-! DEFINITION. A package with one instruction placed where the next step runs it (log 12). -/

namespace Sys2Proof.Machine

/-- The kernel of the placed block: a team image of four packets, or a coachman stream of four, at virtual address 0. -/
def placeKernel (bs : List Byte) (coach : Bool) : Kernel where
  code := 0
  npkt := 4
  mcode := 0
  mpkt := if coach then 4 else 0
  pools := []
  image := mwrite [] 0 bs

/-- The placed block: slot 0 of core 0, one section of 16 lanes, 64 registers, a window of 4 096 bytes. -/
def placeBlock (bs : List Byte) (coach : Bool) : Block := { Block.empty with kern := placeKernel bs coach, winSize := 4096 }

/-- A package in which nothing but the placed unit may move. -/
def quiet (s : State) : State :=
  { s with
    inputs := []
    cores := []
    l1 := []
    curTeam := []
    ops := []
    reqs := []
    jobs := []
    mops := []
    remotes := []
    unsent := []
    walks := []
    misses := []
    channels := []
    hitches := []
    graphs := []
    wsample := []
    wstarted := false
    switching := []
    wqs := []
    ports := []
    colls := []
    refills := []
    prodMsgs := []
    replies := []
    phase := .ready }

/-- The word's bytes stand at physical address 0, mapped at virtual address 0 for core 0; a team, or where only the coachman's decoder
accepts the words a coachman, stands in front of them. -/
def placeWord (s : State) (nbits w : Nat) : State :=
  let bs := bytesOfWord 12 (w % 2 ^ nbits)
  let coach := (decodeTeamWords (tableWords nbits w)).isNone && (decodeCoachWords (tableWords nbits w)).isSome
  let t : Team := Team.init 16 0 0
  { quiet s with
    mem := mwrite s.mem 0 bs
    tlb := [⟨0, 0, 0, 0, 16, 0x1B⟩]
    ctxs := [(0, ⟨0, 0, 0, 0, 0, 0, 0⟩)]
    running := tset s.running 0 0
    blocks := [(0, placeBlock bs coach)]
    teams := [(0, if coach then { t with status := .exited } else t)]
    coaches := if coach then [(0, Coach.init)] else [] }

end Sys2Proof.Machine
end

