-- ==== Sys2Proof/Machine/Step.lean ====
section
/-! DEFINITION. One step, and how a word is placed for the very next step. -/

namespace Sys2Proof.Machine

/-- One step of the package (R178, R371): one of those who may move moves. -/
def step (s : State) : Host.Outcome State Fault Refusal := move s

/-- An instruction placed where the next step runs it: as a resident block's first packet, a team's or, where only the coachman's
decoder accepts its words, a coachman's (log 12). -/
def State.withFetchWord (s : State) (nbits w : Nat) : State := placeWord s nbits w

end Sys2Proof.Machine
end

