-- ==== Sys2Proof/Safety.lean ====
section
/-! DEFINITION. What statements about the machine speak of: what a register holds, what an instruction leaves alone, how an
instruction ends, and the forms that every step keeps. -/

namespace Sys2Proof.Machine

/-! ## What a register holds -/

/-- What scalar p of the register file holds (the banked s56 to s63 of P mode are 64 to 71); none while it is unspecified. -/
def Team.scalarAt (t : Team) (p : Nat) : Option DWord :=
  if (t.unknown 1 p).getLsbD 0 then none else some (wget t.sregs p)

/-- What lane i of logical register r holds; none while it is unspecified. -/
def Team.laneAt (t : Team) (r i : Nat) : Option Word :=
  if (t.unknown 0 r).getLsbD i then none else some (wget t.vregs (r * 1024 + i))

/-- What lane i of predicate p holds; none while it is unspecified. -/
def Team.predAt (t : Team) (p i : Nat) : Option Bool :=
  if (t.unknown 2 p).getLsbD i then none else some ((wget t.pregs p).getLsbD i)

/-- A value written to a register: unspecified where a flagged operation in flight has it as a destination (R70). -/
def landed {α : Type} (inFlight : Bool) (v : α) : Option α := if inFlight then none else some v

/-- What lane k of a register holds after its lanes ls have been written, v in lane k: every other lane holds what it held, and
all lanes of a destination of a flagged operation in flight become unspecified (R70). -/
def landedAt {α : Type} (inFlight : Bool) (ls : List Nat) (k : Nat) (v : α) (old : Option α) : Option α :=
  if inFlight && !ls.isEmpty then none else if ls.contains k then some v else old

/-! ## Frames -/

/-- All of a team but its registers and what is known of their values. -/
def Team.rest (t : Team) : Team :=
  { t with
    sregs := []
    vregs := []
    pregs := []
    unspec := []
    fpnew := 0
    pend := t.pend.map fun p => { p with spoiled := 0 } }

/-- Nothing has changed but the current team: every other team, every memory, every queue and register of the package is as it
was. -/
def OnlyTeam (s t : State) : Prop :=
  { t with teams := s.teams } = s ∧ ∀ k, k ≠ teamKey s.cur → tget t.teams k = tget s.teams k

/-- Scalars, vector registers and predicates hold what they held. -/
def SameScalars (t u : Team) : Prop := ∀ p, u.scalarAt p = t.scalarAt p
def SameLanes (t u : Team) : Prop := ∀ r i, i < 1024 → u.laneAt r i = t.laneAt r i
def SamePreds (t u : Team) : Prop := ∀ p i, i < 1024 → u.predAt p i = t.predAt p i
def SameRegs (t u : Team) : Prop := SameScalars t u ∧ SameLanes t u ∧ SamePreds t u

/-- No memory array of the package and no core's L1 has changed. -/
def SameMemory (s t : State) : Prop :=
  t.mem = s.mem ∧ t.spad = s.spad ∧ t.acc = s.acc ∧ t.wbuf = s.wbuf ∧ t.l1 = s.l1 ∧ t.l2 = s.l2

/-- Of the other teams nothing has changed but what they wait for: a sleeper may have woken (R203). -/
def OthersWake (s t : State) : Prop :=
  ∀ k x, k ≠ teamKey s.cur → tget s.teams k = some x →
    ∃ y, tget t.teams k = some y ∧ { y with waits := x.waits, blocked := x.blocked } = x

/-- No other team has changed. -/
def OtherTeams (s t : State) : Prop := ∀ k, k ≠ teamKey s.cur → tget t.teams k = tget s.teams k

/-- The lanes of a team's registers but V[r] (V[r], V[r + 1] when wide) in lanes ls hold what they held; a register of these two
that a flagged operation in flight has as a destination is excepted whole (R70). -/
def SameLanesBut (t u : Team) (wide : Bool) (r : Nat) (ls : List Nat) : Prop :=
  ∀ q k, k < 1024 → ¬((q = r ∨ wide = true ∧ q = r + 1) ∧ (k ∈ ls ∨ t.inFlight 0 q = true)) → u.laneAt q k = t.laneAt q k

/-- The access goes through: the core's TLB has a leaf that permits it, and it lies at l (R322 to R324). -/
def Reaches (s : State) (va n : Nat) (need : Need) (l : Loc) : Prop :=
  checkMine s va n need = (s, .ok l) ∧ dropMisses s (requester s.cur) = s

/-- The queue at va is reached: mapped, permitted, on a queue page, with a legal descriptor d of an accepted kind, whose line is at
its home slice (R166). -/
def QueueAt (s : State) (va : Nat) (write : Bool) (kinds : List Nat) (q : Loc) (d : Nat) : Prop :=
  ∀ k : Loc → Nat → State → State, withQueue s va write kinds k = k q d s

/-- The line of a location is in way k of its home slice, fetched for owner own, and no reduce-add is held there (R367). -/
def Resident (s : State) (q : Loc) (own k : Nat) (l : Line) : Prop :=
  findWay s (homeSlice s q) (q.addr / 128) = some k ∧ tget s.l2 k = some l ∧ l.own = own ∧ redAt s (homeSlice s q) = []

/-- The line with n bytes from location q on replaced. -/
def Line.with (l : Line) (q : Loc) (bs : List Byte) : Line := l.put (((List.range bs.length).map (q.addr % 128 + ·)).zip bs)

/-! ## How an instruction ends -/

/-- The instruction ends in a next state of which P holds. -/
def Ends (i : Instr) (s : State) (P : State → Prop) : Prop := ∃ t, exec i s = .next t ∧ P t

/-- The instruction writes v to scalar d of the team and nothing else changes, but that a flag of `fpflags` may be set. -/
def WritesScalar (i : Instr) (s : State) (d : Nat) (v : DWord) : Prop :=
  Ends i s fun t =>
    OnlyTeam s t ∧ t.team.rest = s.team.rest ∧ SameLanes s.team t.team ∧ SamePreds s.team t.team ∧
    t.team.scalarAt (physS s.src d) = landed (s.team.inFlight 1 (physS s.src d)) v ∧
    ∀ p, p ≠ physS s.src d → t.team.scalarAt p = s.team.scalarAt p

/-- The instruction writes f i to V[d][i] (the pair V[d], V[d + 1] when wide) for the lanes i of ls and adds `flags` to `fpflags`;
nothing else changes. -/
def WritesLanes (i : Instr) (s : State) (wide : Bool) (d : Nat) (ls : List Nat) (f : Nat → Nat) (flags : Nat) : Prop :=
  Ends i s fun t =>
    OnlyTeam s t ∧ t.team.rest = { s.team.rest with fpflags := s.team.fpflags ||| BitVec.ofNat 32 flags } ∧
    SameScalars s.team t.team ∧ SamePreds s.team t.team ∧
    (∀ k, k < 1024 → t.team.laneAt (logV s d) k =
      landedAt (s.team.inFlight 0 (logV s d)) ls k (BitVec.ofNat 32 (f k)) (s.team.laneAt (logV s d) k)) ∧
    (wide = true → ∀ k, k < 1024 → t.team.laneAt (logV s d + 1) k =
      landedAt (s.team.inFlight 0 (logV s d + 1)) ls k (BitVec.ofNat 32 (f k / 2 ^ 32)) (s.team.laneAt (logV s d + 1) k)) ∧
    ∀ r k, k < 1024 → r ≠ logV s d → ¬(wide = true ∧ r = logV s d + 1) → t.team.laneAt r k = s.team.laneAt r k

/-- The instruction writes f i to P[d][i] for the lanes i of ls and adds `flags` to `fpflags`; nothing else changes. -/
def WritesPred (i : Instr) (s : State) (d : Nat) (ls : List Nat) (f : Nat → Bool) (flags : Nat) : Prop :=
  Ends i s fun t =>
    OnlyTeam s t ∧ t.team.rest = { s.team.rest with fpflags := s.team.fpflags ||| BitVec.ofNat 32 flags } ∧
    SameScalars s.team t.team ∧ SameLanes s.team t.team ∧
    (∀ k, k < 1024 → t.team.predAt d k = landedAt (s.team.inFlight 2 d) ls k (f k) (s.team.predAt d k)) ∧
    ∀ p k, k < 1024 → p ≠ d → t.team.predAt p k = s.team.predAt p k

/-- The instruction changes the current team by f, which leaves the registers alone, and nothing else. -/
def ChangesTeam (i : Instr) (s : State) (f : Team → Team) : Prop :=
  Ends i s fun t => OnlyTeam s t ∧ t.team = f s.team ∧ SameRegs s.team t.team

/-- The instruction writes, in every lane k of ls, the n elements of width w that f k gives (element, then the flags it raises) to
V[d], and adds the flags to `fpflags`, where its operands are in the window and no lane raises an enabled flag (R46, R106). -/
def LaneResultsOn (i : Instr) (s : State) (ls : List Nat) (wide : Bool) (d w n : Nat) (f : Nat → Nat → Nat × Nat) : Prop :=
  operandCause i s = none →
  ∀ r fl : Nat → Nat,
    (∀ k ∈ ls, r k < 2 ^ (w * n) ∧ ∀ e, e < n → elem w (r k) e = (f k e).1 % 2 ^ w) →
    (∀ k ∈ ls, fl k = (List.range n).foldl (fun a e => orNat a (f k e).2) 0) →
    (∀ k ∈ ls, Nat.land (enables s) (fl k) = 0) →
    WritesLanes i s wide d ls r (ls.foldl (fun a k => orNat a (fl k)) 0)

/-- The same in the Active lanes under guard g. -/
def LaneResults (i : Instr) (s : State) (g : Nat) (wide : Bool) (d w n : Nat) (f : Nat → Nat → Nat × Nat) : Prop :=
  LaneResultsOn i s (active s g) wide d w n f

/-- The instruction moves the current team to slot 0 of packet p, and changes nothing else of it (R92). -/
def TransfersTo (i : Instr) (s : State) (p : Nat) : Prop :=
  Ends i s fun t =>
    OnlyTeam s { t with fate := s.fate } ∧ t.fate = .transferred ∧ SameRegs s.team t.team ∧
    t.team = { s.team with pkt := p, slot := 0, ibuf := none, waits := [] }

/-- The instruction does nothing: the next instruction in slot order follows. -/
def FallsThrough (i : Instr) (s : State) : Prop := exec i s = .next s

/-- The instruction cannot finish yet and is tried again; nothing else has changed (R23). -/
def Stalls (i : Instr) (s : State) : Prop := exec i s = .next { s with fate := .stalled }

/-- A team's instruction starts operation k under flag f, with no register as its destination: the operation is in flight, the flag counts it,
or, with no flag named, the instruction waits for it; nothing else changes (R69). -/
def Issues (i : Instr) (s : State) (f : Nat) (k : OpKind) (foot : List Foot) : Prop :=
  s.cur.coach = false → Ends i s fun t =>
    t.nextOp = s.nextOp + 1 ∧
    t.ops = tset s.ops s.nextOp
      ⟨s.cur, s.block.part, s.block.ctx, f, s.team.pkt, s.team.slot, s.nextStamp, 0, k, none, foot⟩ ∧
    { t with ops := s.ops, nextOp := s.nextOp, nextStamp := s.nextStamp, teams := s.teams, fate := s.fate } = s ∧
    (∀ j, j ≠ teamKey s.cur → tget t.teams j = tget s.teams j) ∧ SameRegs s.team t.team ∧
    (f < 12 → t.fate = s.fate ∧ (t.team.flag f).count = (s.team.flag f).count + 1) ∧
    (12 ≤ f → t.fate = .stalled ∧ myWait t = .op s.nextOp)

/-- A team's instruction starts operation k under flag f, whose results come later: no memory changes, and where no flag is named no
register does (R69, R70). -/
def Launches (i : Instr) (s : State) (f : Nat) (k : OpKind) (foot : List Foot) : Prop :=
  s.cur.coach = false → Ends i s fun t =>
    SameMemory s t ∧ OtherTeams s t ∧
    ∃ o, tget t.ops s.nextOp = some o ∧ o.unit = s.cur ∧ o.flag = f ∧ o.kind = k ∧ o.fault = none ∧ o.foot = foot ∧
      (f < 12 → t.fate = s.fate ∧ (t.team.flag f).count = (s.team.flag f).count + 1) ∧
      (12 ≤ f → t.fate = .stalled ∧ myWait t = .op s.nextOp ∧ SameRegs s.team t.team)

/-- The same for an operation before which the core's own copies have left for their homes: no memory array and no register changes (R154). -/
def Starts (i : Instr) (s : State) (f : Nat) (k : OpKind) (foot : List Foot) : Prop :=
  s.cur.coach = false → Ends i s fun t =>
    t.mem = s.mem ∧ t.spad = s.spad ∧ t.acc = s.acc ∧ t.wbuf = s.wbuf ∧ OtherTeams s t ∧ SameRegs s.team t.team ∧
    ∃ id o, s.nextOp ≤ id ∧ tget t.ops id = some o ∧ o.unit = s.cur ∧ o.flag = f ∧ o.kind = k ∧ o.fault = none ∧ o.foot = foot ∧
      (f < 12 → t.fate = s.fate ∧ (t.team.flag f).count = (s.team.flag f).count + 1) ∧
      (12 ≤ f → t.fate = .stalled ∧ myWait t = .op id)

/-- The instruction raises cause c, and what it would have done is not done (R279). -/
def Raises (i : Instr) (s : State) (c : Cause) : Prop := exec i s = .next (raise c s)

/-! ## Frames of the fabric -/

/-- A numbered frame with header h is taken: the package is ready, the port is up, nothing reserved is set, no acknowledgement rides on
it, and it is the next one expected; u is the state with the number counted and the frame acknowledged (R347, R348). -/
def Takes (s : State) (h : FrameHdr) (u : State) : Prop :=
  s.phase = .ready ∧ (s.port h.port).up = true ∧ h.rsv = 0 ∧ h.ackv = false ∧ h.seq = (s.port h.port).expSeq ∧
  u = { s with
    ports := tset s.ports h.port { s.port h.port with expSeq := (h.seq + 1) % 4096 }
    outbox := s.outbox ++ [.ack h.port h.seq] }

/-- The bindings of a port are bs, and their tables, queues and descriptors stand at their homes: reading them changes nothing, whatever
the ports, the logs, what has been sent and what has been answered (R350). -/
def BindingsAre (s : State) (p : Nat) (bs : List (Nat × Nat × Loc × Nat)) : Prop :=
  ∀ ports logs out rem, bindings { s with ports := ports, raslogs := logs, outbox := out, remotes := rem } p =
    ({ s with ports := ports, raslogs := logs, outbox := out, remotes := rem }, bs)

/-- The next state is t. -/
def Gives (i : Instr) (s t : State) : Prop := exec i s = .next t

/-! ## Work queues -/

/-- Range [va, va + n) of a context is one piece at l on a NORMAL page, with the page tables at their homes: checking it changes nothing. -/
def PlainRange (s : State) (part ctx va n : Nat) (need : Need) (l : Loc) : Prop :=
  ctxRange s part ctx va n need = (s, none, [(l, n)]) ∧ l.kind = 0

/-- The bytes [l, l + n) lie in one line, the one that way k of their home slice holds, and no byte of it carries poison. -/
def OneLine (s : State) (l : Loc) (n k : Nat) (line : Line) : Prop :=
  0 < n ∧ l.addr % 128 + n ≤ 128 ∧ Resident s l (s.owner l.part) k line ∧ line.pois = 0

/-- A queue that runs in its stream, at level l, with nothing under way and no event ring. -/
def Streaming (s : State) (q : Nat) (l : Level) : Prop :=
  wqLive s q = true ∧ (s.wq q).wait = .none ∧ (s.wq q).step ≠ 9 ∧ (s.wq q).levels = [l] ∧ (s.wq q).evt = 0 ∧ (s.wq q).stopReq = false ∧ s.remotes = []

/-- Queue q of s changed by f. -/
def withQueueAs (s : State) (q : Nat) (w : WorkQueue) : State := { s with wqs := tset s.wqs q w }

/-- A queue in its stream past a packet of n bytes: idle at its tail, else it runs on (R332). -/
def WorkQueue.past (w : WorkQueue) (l : Level) (n : Nat) : WorkQueue :=
  { w with
    levels := [{ l with pos := l.pos + n }], headp := w.headp + n
    state := if w.headp + n = w.tail then 1 else 2
    stopReq := false, wait := .none, busy := false, step := 0 }

/-- A queue stopped by an error at its packet (R342). -/
def WorkQueue.failed (w : WorkQueue) (l : Level) (err ecode : Nat) : WorkQueue :=
  { w with state := 5, err := err, ecode := ecode, erradr := l.base + l.pos, wait := .none, busy := false, step := 0 }

/-- A management request is answered at once with a result, leaving u (R345). -/
def Answers (i : Instr) (op : Nat) (m : Mgmt) (s u : State) (result q1 : Nat) : Prop :=
  Gives i s { u with outbox := u.outbox ++ [.mgmt m.part op result m.tag q1] }

/-- Management requests of the partition are heard: the package is ready, its connection open, no reply waits (R345, R392). -/
def Hears (s : State) (part : Nat) : Prop :=
  s.phase = .ready ∧ s.ostler = true ∧ (s.hostQp part 256).open_ = true ∧ s.replies = []

end Sys2Proof.Machine
end

