-- ==== Sys2Proof/Certificates/Slice0/Obligations.lean ====
section
/-! DEFINITION. The statements for the provers. Vocabulary: `Ends`, `WritesScalar`, `WritesLanes`, `WritesPred`, `ChangesTeam` and
`Raises` of `Sys2Proof.Safety`, each of which says that `exec` answers a next state and what that state leaves unchanged. -/

open Sys2Proof Sys2Proof.Machine

/-- (1) R86: each scalar ALU instruction writes the table's value of S[A] and S[B] to S[D], modulo 2^64, and nothing else changes.
(2) R87: counts, copies, multiply-add, select, compare and immediates write the table's value to S[D], and nothing else changes. A
count of leading zeros is the n whose bits above 63 − n are 0 and whose bit 63 − n, if there is one, is 1.
(3) R87: SBFX extracts len = l + 1 bits from bit pos = p, SBFI replaces them by the low bits of S[A]; pos + len above 64 raises 3. -/
def Obligations.ScalarInstructionsWriteTheTableValue : Prop :=
  (∀ (s : State) (d a b : Nat),
     let x := readS s a
     let y := readS s b
     WritesScalar (.sadd d a b) s d (x + y) ∧
     WritesScalar (.ssub d a b) s d (x - y) ∧
     WritesScalar (.smul d a b) s d (x * y) ∧
     WritesScalar (.smulh d a b) s d (BitVec.ofInt 64 (x.toInt * y.toInt / 2 ^ 64)) ∧
     WritesScalar (.sand d a b) s d (x &&& y) ∧
     WritesScalar (.sor d a b) s d (x ||| y) ∧
     WritesScalar (.sxor d a b) s d (x ^^^ y) ∧
     WritesScalar (.sandn d a b) s d (x &&& ~~~y) ∧
     WritesScalar (.sshl d a b) s d (x <<< (y.toNat % 64)) ∧
     WritesScalar (.sshr d a b) s d (x >>> (y.toNat % 64)) ∧
     WritesScalar (.ssar d a b) s d (BitVec.ofInt 64 (x.toInt / 2 ^ (y.toNat % 64))) ∧
     WritesScalar (.smin d a b) s d (if x.toInt < y.toInt then x else y) ∧
     WritesScalar (.smax d a b) s d (if x.toInt < y.toInt then y else x) ∧
     WritesScalar (.sminu d a b) s d (if x.toNat < y.toNat then x else y) ∧
     WritesScalar (.smaxu d a b) s d (if x.toNat < y.toNat then y else x)) ∧
  (∀ (s : State) (d a b r i : Nat),
     let x := readS s a
     let y := readS s b
     (∀ n, n ≤ 64 → (∀ j, j < 64 → 64 - n ≤ j → x.getLsbD j = false) → (n < 64 → x.getLsbD (63 - n) = true) →
       WritesScalar (.sclz d a) s d (BitVec.ofNat 64 n)) ∧
     WritesScalar (.spopc d a) s d (BitVec.ofNat 64 ((List.range 64).filter fun j => x.getLsbD j).length) ∧
     WritesScalar (.smov d a) s d x ∧
     WritesScalar (.smad d a b r) s d (x * y + readS s r) ∧
     WritesScalar (.ssel d a b r) s d (if readS s r ≠ 0 then x else y) ∧
     WritesScalar (.scmp d a b 0) s d (if x = y then 1 else 0) ∧
     WritesScalar (.scmp d a b 1) s d (if x ≠ y then 1 else 0) ∧
     WritesScalar (.scmp d a b 2) s d (if x.toInt < y.toInt then 1 else 0) ∧
     WritesScalar (.scmp d a b 3) s d (if y.toInt ≤ x.toInt then 1 else 0) ∧
     WritesScalar (.scmp d a b 4) s d (if x.toNat < y.toNat then 1 else 0) ∧
     WritesScalar (.scmp d a b 5) s d (if y.toNat ≤ x.toNat then 1 else 0) ∧
     WritesScalar (.sldi d i) s d ((BitVec.ofNat 12 i).signExtend 64) ∧
     WritesScalar (.sldiLong d i) s d ((BitVec.ofNat 32 i).signExtend 64) ∧
     WritesScalar (.saddi d a i) s d (x + (BitVec.ofNat 12 i).signExtend 64) ∧
     WritesScalar (.saddiLong d a i) s d (x + (BitVec.ofNat 32 i).signExtend 64)) ∧
  (∀ (s : State) (d a p l : Nat),
     (p + (l + 1) ≤ 64 → ∀ v : DWord, (∀ j, j < 64 → v.getLsbD j = (decide (j ≤ l) && (readS s a).getLsbD (p + j))) →
       WritesScalar (.sbfx d a p l) s d v) ∧
     (p + (l + 1) ≤ 64 → ∀ v : DWord,
       (∀ j, j < 64 → v.getLsbD j = if p ≤ j ∧ j ≤ p + l then (readS s a).getLsbD (j - p) else (readS s d).getLsbD j) →
       WritesScalar (.sbfi d a p l) s d v) ∧
     (64 < p + (l + 1) → Raises (.sbfx d a p l) s (causeOf 3) ∧ Raises (.sbfi d a p l) s (causeOf 3)))

/-- (1) R89, R90: SGET writes the register's value: `laneid` and `secid` per Active lane, every other register to S[D]. The mask reads
as the section-present word, whose bit j is 1 when a lane of section j is in the mask.
(2) R25, R46, R47, R91: SSET mask removes the lanes of the sections whose bit is 0; SSET greedy holds its value between 1 and 1 024, for the
next packet; SSET fpflags writes bits 6:0, beside the flags its own packet has raised; SSET fpmode is held for the next packet; reserved bits
raise 3. -/
def Obligations.SpecialRegistersReadAndWrite : Prop :=
  (∀ (s : State) (d : Nat),
     (d < min s.block.nreg 64 → WritesLanes (.sget d 0) s false d (activeAll s) (fun i => i) 0) ∧
     (d < min s.block.nreg 64 → WritesLanes (.sget d 1) s false d (activeAll s) (fun i => i / s.block.w) 0) ∧
     WritesScalar (.sget d 2) s d (BitVec.ofNat 64 s.cur.team) ∧
     WritesScalar (.sget d 3) s d (BitVec.ofNat 64 (s.cur.bslot + 16 * s.block.hrank + 128 * s.block.hsize)) ∧
     WritesScalar (.sget d 4) s d (BitVec.ofNat 64 s.cur.core) ∧
     WritesScalar (.sget d 5) s d (BitVec.ofNat 64 (s.cur.core / 8)) ∧
     WritesScalar (.sget d 6) s d (BitVec.ofNat 64 (s.cur.core / 24)) ∧
     (∀ n, s.identNow = some n → WritesScalar (.sget d 7) s d (BitVec.ofNat 64 n)) ∧
     (s.identNow = none → WritesScalar (.sget d 7) s d 0x8000000000000000) ∧
     WritesScalar (.sget d 8) s d (BitVec.ofNat 64 s.clock) ∧
     (∀ v : DWord, (∀ j, j < 64 → (v.getLsbD j = true ↔
         j < s.block.lanes / s.block.w ∧ ∃ i, s.src.mask.getLsbD i = true ∧ j * s.block.w ≤ i ∧ i < (j + 1) * s.block.w)) →
       WritesScalar (.sget d 9) s d v) ∧
     WritesScalar (.sget d 10) s d (s.src.fpmode.zeroExtend 64) ∧
     WritesScalar (.sget d 11) s d (s.src.fpflags.zeroExtend 64) ∧
     WritesScalar (.sget d 12) s d (BitVec.ofNat 64 s.src.greedy) ∧
     WritesScalar (.sget d 13) s d (BitVec.ofNat 64 s.src.winbase) ∧
     (∀ k, k < 4 → WritesScalar (.sget d (24 + k)) s d (wget s.src.sndcfg k)) ∧
     (∀ n, 28 ≤ n ∨ (14 ≤ n ∧ n < 24) → Raises (.sget d n) s (causeOf 3))) ∧
  (∀ (s : State) (a : Nat),
     (∀ m : Lanes, (∀ i, i < 1024 →
         m.getLsbD i = (s.src.mask.getLsbD i && decide (i < s.block.lanes) && (readS s a).getLsbD (i / s.block.w))) →
       ChangesTeam (.ssetMask a) s fun t => { t with mask := m }) ∧
     (∀ g, g = (readS s a).toNat % 65536 →
       ∀ v, v = (if g = 0 then 1 else if 1024 < g then 1024 else g) →
       ChangesTeam (.ssetGreedy a) s (fun t => { t with pendw := tset t.pendw 4097 (BitVec.ofNat 64 v) }) ∧
       (s.team.pendw = [] → Ends (.ssetGreedy a) s fun t => t.team.greedy = s.team.greedy ∧ t.team.settle.greedy = v)) ∧
     ((readS s a).toNat < 2 ^ 32 →
       ChangesTeam (.ssetFpflags a) s fun t => { t with fpflags := BitVec.ofNat 32 ((readS s a).toNat % 128) ||| t.fpnew }) ∧
     (2 ^ 32 ≤ (readS s a).toNat → Raises (.ssetFpflags a) s (causeOf 3)) ∧
     ((readS s a).toNat % 8 < 5 → (readS s a).toNat / 8 % 32 = 0 → (readS s a).toNat < 2 ^ 15 →
       ChangesTeam (.ssetFpmode a) s (fun t => { t with pendw := tset t.pendw 4096 (readS s a) }) ∧
       (s.team.pendw = [] → Ends (.ssetFpmode a) s fun t =>
         t.team.fpmode = s.team.fpmode ∧ t.team.settle.fpmode = (readS s a).truncate 32)) ∧
     (5 ≤ (readS s a).toNat % 8 ∨ (readS s a).toNat / 8 % 32 ≠ 0 ∨ 2 ^ 15 ≤ (readS s a).toNat →
       Raises (.ssetFpmode a) s (causeOf 3)))

/-- (1) R92 to R94: BRA, BRC, BRM and JMP move the team to slot 0 of the target packet when they are taken and it lies in the image, and nothing
else changes; a target outside raises 3, as does condition 3 of BRM; one that is not taken does nothing and checks nothing.
(2) R23, R70, R71, R99, R100: NOP does nothing; YIELD marks the team; WAIT stalls while a count it names is not zero; with a fault recorded under
a flag it names, or under none, it delivers the first, in U mode; else it completes, and the destinations of its flags are awaited no longer:
those left as the operations wrote them are readable, the others stay unspecified.
(3) R98, R175, R197, R207: EXIT waits for every count; with a fault recorded it delivers it; with none and no guard held it ends the team,
discards its mask stack and departs it from its barriers and from the rein FIFOs it reads; its registers and everything else stay, but that the
units that waited at a barrier may go on. -/
def Obligations.ControlTransfersWaitsAndExits : Prop :=
  (∀ (s : State) (o : Nat),
     let target : Int := (s.src.pkt : Int) + (BitVec.ofNat 16 o).toInt
     let holds (q r : Nat) : Prop :=
       q = 0 ∧ readS s r = 0 ∨ q = 1 ∧ readS s r ≠ 0 ∨ q = 2 ∧ (readS s r).toInt < 0 ∨ q = 3 ∧ 0 ≤ (readS s r).toInt
     let onMask (q : Nat) : Prop :=
       q = 0 ∧ s.src.mask = 0 ∨ q = 1 ∧ s.src.mask ≠ 0 ∨ q = 2 ∧ s.src.mask = lanesBelow s.block.lanes
     (∀ p : Nat, target = p → p < imagePackets s →
       TransfersTo (.bra o) s p ∧ (∀ r q, holds q r → TransfersTo (.brc r q o) s p) ∧ ∀ q, onMask q → TransfersTo (.brm q o) s p) ∧
     (target < 0 ∨ (imagePackets s : Int) ≤ target →
       Raises (.bra o) s (causeOf 3) ∧ (∀ r q, holds q r → Raises (.brc r q o) s (causeOf 3)) ∧
       ∀ q, onMask q → Raises (.brm q o) s (causeOf 3)) ∧
     (∀ r q, q < 4 → ¬holds q r → FallsThrough (.brc r q o) s) ∧ (∀ q, q < 3 → ¬onMask q → FallsThrough (.brm q o) s) ∧
     Raises (.brm 3 o) s (causeOf 3) ∧
     (∀ a p, (readS s a).toNat = 12 * p → p < imagePackets s → TransfersTo (.jmp a) s p) ∧
     (∀ a, (readS s a).toNat % 12 ≠ 0 ∨ 12 * imagePackets s ≤ (readS s a).toNat → Raises (.jmp a) s (causeOf 3))) ∧
  (∀ (s : State) (m : Nat),
     FallsThrough .nop s ∧
     (ChangesTeam .yield s fun t => { t with yielded := true }) ∧
     ((∃ f, f < 12 ∧ m / 2 ^ f % 2 = 1 ∧ (s.src.flag f).count ≠ 0) → Stalls (.wait m) s) ∧
     ((∀ f, f < 12 → m / 2 ^ f % 2 = 1 → (s.src.flag f).count = 0) →
       (s.team.priv = false → ∀ f r, (s.src.flag f).record = some r →
         (f < 12 ∧ m / 2 ^ f % 2 = 1 ∧ (∀ g, g < f → m / 2 ^ g % 2 = 1 → (s.src.flag g).record = none) ∨
           f = 15 ∧ ∀ g, g < 12 → m / 2 ^ g % 2 = 1 → (s.src.flag g).record = none) →
         exec (.wait m) s = .next (raiseRecord f r (s.modTeam fun t => { t with dlv := some (f, s.src.pkt, s.src.slot) }))) ∧
       (s.team.priv = true ∨ ((∀ f, f < 12 → m / 2 ^ f % 2 = 1 → (s.src.flag f).record = none) ∧ (s.src.flag 15).record = none) →
         Ends (.wait m) s fun t =>
           OnlyTeam s t ∧
           t.team.pend = s.team.pend.filter (fun d => !(decide (d.flag < 12) && m / 2 ^ d.flag % 2 == 1)) ∧
           (∀ u, u ∈ t.team.unspec ↔ u ∈ s.team.unspec ∨
             ∃ d ∈ s.team.pend, d.flag < 12 ∧ m / 2 ^ d.flag % 2 = 1 ∧ d.spoiled ≠ 0 ∧ u = ⟨d.cls, d.reg, d.spoiled⟩) ∧
           { t.team with pend := s.team.pend, unspec := s.team.unspec } = s.team))) ∧
  (∀ (s : State),
     s.cur.coach = false → (∀ id, myWait s ≠ .op id) →
     ((∃ f, f < 12 ∧ (s.team.flag f).count ≠ 0) → Ends .exit s fun t =>
       t.fate = .stalled ∧ t.team.status = s.team.status ∧ { t with teams := s.teams, fate := s.fate } = s) ∧
     ((∀ f, f < 12 → (s.team.flag f).count = 0) →
       (s.team.priv = false → ∀ f r, (s.team.flag f).record = some r →
         (f < 12 ∧ (∀ g, g < f → (s.team.flag g).record = none) ∨ f = 15 ∧ ∀ g, g < 12 → (s.team.flag g).record = none) →
         exec .exit s = .next (raiseRecord f r
           ((setWait s .none).modTeam fun t => { t with dlv := some (f, s.team.pkt, s.team.slot) }))) ∧
       ((s.team.priv = true ∨ ((∀ f, f < 12 → (s.team.flag f).record = none) ∧ (s.team.flag 15).record = none)) →
         s.team.guards = [] →
         Ends .exit s fun t =>
           t.fate = .ended ∧ t.team.status = .exited ∧ t.team.mstack = [] ∧ t.team.sregs = s.team.sregs ∧
           t.team.vregs = s.team.vregs ∧ t.team.pregs = s.team.pregs ∧
           (∀ k b, tget t.barriers k = some b → s.cur ∈ b.members → s.cur ∈ b.leaving) ∧
           (∀ k, (∀ x ∈ s.barriers, x.1 = k → s.cur ∉ x.2.members ∧ ∀ h ∈ x.2.held, s.cur ∉ h.2) → tget t.barriers k = tget s.barriers k) ∧
           (∀ c f, s.cur ∉ (tget (t.core c).readers f).getD []) ∧
           (∀ k x, k ≠ teamKey s.cur → tget s.teams k = some x →
             ∃ y, tget t.teams k = some y ∧ { y with waits := x.waits, blocked := x.blocked } = x) ∧
           { t with teams := s.teams, coaches := s.coaches, cores := s.cores, barriers := s.barriers, fate := s.fate } = s)))

/-- (1) R103, R104: the predicate logic writes its bit in every lane of the mask and no other; the reductions write one scalar over the
lanes of the mask; a PSETI value above 1 raises 11.
(2) R105: the mask instructions push, invert, pop, save and load masks as the table says; MPUSH on a full stack raises 7, MELSE and
MPOP on an empty one raise 3. MSAVE and MLOAD reach every lane of the team. -/
def Obligations.PredicatesAndTheMaskStack : Prop :=
  (∀ (s : State) (d a b : Nat),
     let act := activeAll s
     let p := fun i => (readP s a).getLsbD i
     let q := fun i => (readP s b).getLsbD i
     WritesPred (.pand d a b) s d act (fun i => p i && q i) 0 ∧
     WritesPred (.por d a b) s d act (fun i => p i || q i) 0 ∧
     WritesPred (.pxor d a b) s d act (fun i => p i ^^ q i) 0 ∧
     WritesPred (.pandn d a b) s d act (fun i => p i && !q i) 0 ∧
     WritesPred (.pnot d a) s d act (fun i => !p i) 0 ∧
     WritesPred (.pmov d a) s d act p 0 ∧
     WritesPred (.pseti d 0) s d act (fun _ => false) 0 ∧
     WritesPred (.pseti d 1) s d act (fun _ => true) 0 ∧
     (∀ v, 2 ≤ v → Raises (.pseti d v) s (causeOf 11)) ∧
     WritesScalar (.pany d a) s d (if act.any p then 1 else 0) ∧
     WritesScalar (.pall d a) s d (if act.all p then 1 else 0) ∧
     WritesScalar (.pcnt d a) s d (BitVec.ofNat 64 (act.countP p)) ∧
     (∀ i, i ∈ act → p i = true → (∀ j, j ∈ act → p j = true → i ≤ j) → WritesScalar (.pfirst d a) s d (BitVec.ofNat 64 i)) ∧
     ((∀ i, i ∈ act → p i = false) → WritesScalar (.pfirst d a) s d (-1))) ∧
  (∀ (s : State) (a : Nat),
     let m := s.src.mask
     (s.src.mstack.length < 16 → ChangesTeam (.mpush a) s fun t =>
       { t with mstack := ⟨m, m &&& ~~~readP s a⟩ :: s.src.mstack, mask := m &&& readP s a }) ∧
     (16 ≤ s.src.mstack.length → Raises (.mpush a) s (causeOf 7)) ∧
     (∀ e es, s.src.mstack = e :: es →
       ChangesTeam .melse s (fun t => { t with mask := e.els, mstack := ⟨e.saved, 0⟩ :: es }) ∧
       ChangesTeam .mpop s (fun t => { t with mask := e.saved, mstack := es })) ∧
     (s.src.mstack = [] → Raises .melse s (causeOf 3) ∧ Raises .mpop s (causeOf 3)) ∧
     (s.block.lanes ≤ 1024 →
       WritesPred (.msave a) s a (List.range s.block.lanes) (fun i => m.getLsbD i) 0) ∧
     ChangesTeam (.mload a) s fun t => { t with mask := readP s a &&& lanesBelow s.block.lanes })

/-- (1) R21, R22, R95, R97, R142: CALL and CALLR slide the window up by 8 K, spill the groups that the resident floor passes, link in s63 and
transfer. Word r of lane i of a spilled group lies at byte 32 i + 4 r of the group's image in the spill area. A group that neither leaves nor
takes its place keeps its registers, and where none moves no memory changes. A floor beyond the spill area raises 7, an illegal target 3,
poison where a group is spilled to 124; a group awaited by a flagged operation stalls.
(2) R21, R96, R97, R142: RET slides the window down by 8 K and transfers. A RET below the resident floor reads the groups of its window
back from the team's spill area: word r of lane i of group g lies at byte 32 i + 4 r of the group's image. No memory changes, and where no group
moves no register does. An illegal target or a return below register 0 raises 3, poison in a group to be read 124; a group awaited by a flagged
operation stalls. -/
def Obligations.CallsAndReturnsMoveTheWindow : Prop :=
  (∀ (s : State) (k p : Nat),
     let nb := s.src.winbase + 8 * k
     let width := min s.block.nreg 64
     let fits : Prop := nb + width ≤ s.src.lo + s.block.nreg
     let floor := if nb + width ≤ s.src.lo + s.block.nreg then s.src.lo else (nb + width - s.block.nreg + 7) / 8 * 8
     let spilled (g : Nat) : Prop := s.src.lo / 8 ≤ g ∧ g < floor / 8
     let own := s.owner s.block.part
     let word (g r i : Nat) : Nat :=
       s.block.spillOff + (s.cur.team * s.block.spillGroups + g) * (s.block.lanes * 32) + (i * 32 + r * 4)
     let form (P : Instr → Prop) : Prop :=
       (∀ o, (s.src.pkt : Int) + (BitVec.ofNat 16 o).toInt = p → P (.call k o)) ∧ ∀ a, (readS s a).toNat = 12 * p → P (.callr k a)
     (p < imagePackets s →
       (floor / 8 ≤ s.block.spillGroups → spillPoisoned s (groupsFrom (s.src.lo / 8) (floor / 8)) = false →
         (groupsBusy s (groupsFrom (s.src.lo / 8) (floor / 8)) = false → form fun i => Ends i s fun t =>
           t.fate = .transferred ∧ t.team.pkt = p ∧ t.team.slot = 0 ∧ t.team.winbase = nb ∧ t.team.lo = floor ∧
           t.team.mask = s.team.mask ∧ t.team.mstack = s.team.mstack ∧ t.team.fpflags = s.team.fpflags ∧
           t.team.scalarAt (physS s.src 63) =
             landed (s.team.inFlight 1 (physS s.src 63)) (BitVec.ofNat 64 (12 * (s.src.pkt + 1))) ∧
           (∀ q, q ≠ physS s.src 63 → t.team.scalarAt q = s.team.scalarAt q) ∧ SamePreds s.team t.team ∧
           (∀ g r i, r < 8 → i < 1024 → ¬spilled g → (∀ h, spilled h → g ≠ h + s.block.nreg / 8) →
             t.team.laneAt (8 * g + r) i = s.team.laneAt (8 * g + r) i) ∧
           (s.block.lanes ≤ 1024 → ∀ g r i, spilled g → r < 8 → i < s.block.lanes → (∀ h, spilled h → g ≠ h + s.block.nreg / 8) →
             leNat (readLocal t 0 s.cur.core own (word g r i) 4) = (wget s.team.vregs ((8 * g + r) * 1024 + i)).toNat) ∧
           (∀ j, j ≠ teamKey s.cur → tget t.teams j = tget s.teams j) ∧
           { t with teams := s.teams, spad := s.spad, spadPois := s.spadPois, spadOwn := s.spadOwn, fate := s.fate } = s ∧
           (fits → t.spad = s.spad ∧ t.spadPois = s.spadPois ∧ t.spadOwn = s.spadOwn)) ∧
         (groupsBusy s (groupsFrom (s.src.lo / 8) (floor / 8)) = true → form fun i => Stalls i s)) ∧
       (floor / 8 ≤ s.block.spillGroups → spillPoisoned s (groupsFrom (s.src.lo / 8) (floor / 8)) = true →
         form fun i => Raises i s (causeOf 124)) ∧
       (s.block.spillGroups < floor / 8 → form fun i => Raises i s (causeOf 7))) ∧
     (∀ o, (s.src.pkt : Int) + (BitVec.ofNat 16 o).toInt < 0 ∨ (imagePackets s : Int) ≤ (s.src.pkt : Int) + (BitVec.ofNat 16 o).toInt →
       Raises (.call k o) s (causeOf 3)) ∧
     (∀ a, (readS s a).toNat % 12 ≠ 0 ∨ 12 * imagePackets s ≤ (readS s a).toNat → Raises (.callr k a) s (causeOf 3))) ∧
  (∀ (s : State) (k a p : Nat),
     let nb := s.src.winbase - 8 * k
     let lo := min s.src.lo nb
     let gs := groupsFrom (lo / 8) (s.src.lo / 8)
     let own := s.owner s.block.part
     ((readS s a).toNat % 12 ≠ 0 ∨ 12 * imagePackets s ≤ (readS s a).toNat ∨ s.src.winbase < 8 * k → Raises (.ret k a) s (causeOf 3)) ∧
     ((readS s a).toNat = 12 * p → p < imagePackets s → 8 * k ≤ s.src.winbase →
       (spillPoisoned s gs = true → Raises (.ret k a) s (causeOf 124)) ∧
       (spillPoisoned s gs = false → groupsBusy s (gs ++ gs.map fun g => g + s.block.nreg / 8) = true → Stalls (.ret k a) s) ∧
       (spillPoisoned s gs = false → groupsBusy s (gs ++ gs.map fun g => g + s.block.nreg / 8) = false →
         Ends (.ret k a) s fun t =>
           t.fate = .transferred ∧ t.team.pkt = p ∧ t.team.slot = 0 ∧ t.team.winbase = nb ∧ t.team.lo = lo ∧
           SameScalars s.team t.team ∧ SamePreds s.team t.team ∧
           (∀ j, j ≠ teamKey s.cur → tget t.teams j = tget s.teams j) ∧ { t with teams := s.teams, fate := s.fate } = s ∧
           { t.team with
             vregs := s.team.vregs, unspec := s.team.unspec, winbase := s.team.winbase, lo := s.team.lo, pkt := s.team.pkt,
             slot := s.team.slot, ibuf := s.team.ibuf, waits := s.team.waits } = s.team ∧
           (∀ g r i, r < 8 → i < 1024 → g ∉ gs → g ∉ gs.map (fun h => h + s.block.nreg / 8) →
             t.team.laneAt (8 * g + r) i = s.team.laneAt (8 * g + r) i) ∧
           (s.block.lanes ≤ 1024 → ∀ g r i, g ∈ gs → g ∉ gs.map (fun h => h + s.block.nreg / 8) → r < 8 → i < s.block.lanes →
             (s.team.laneAt (8 * g + r) i).isSome = true →
             t.team.laneAt (8 * g + r) i = some (BitVec.ofNat 32 (leNat
               (readLocal s 0 s.cur.core own
                 (s.block.spillOff + (s.cur.team * s.block.spillGroups + g) * (s.block.lanes * 32) + (i * 32 + r * 4)) 4)))))))

/-- (1) R101, R284: TRAP and BRK take cause 56 or 57 with their immediate and AFTER = 1: the trap registers are saved, `fpflags` and
`fpmode` cleared, the mask narrowed to lane 0, P mode entered at the handler's entry; registers and everything else stay. A write of
a CSR that waits for the next packet is in force first.
(2) R7, R284: a precise cause with a handler installed, in U mode, enters the handler with the cause's code, lane and address; what
the instruction would have written is not written. -/
def Obligations.ExceptionsEnterTheHandler : Prop :=
  (∀ (s : State) (imm : Nat), imm < 4096 → s.cur.coach = false → s.team.priv = false → s.myCtx.tvec / 2 ^ 63 % 2 = 1 →
     let u := s.team.settle
     let enters (code : Nat) (t : State) : Prop :=
         OnlyTeam s { t with fate := s.fate } ∧ t.fate = .trapped ∧ SameRegs u t.team ∧
         t.team.epc.toNat = u.pkt * 12 % 2 ^ 36 + u.slot % 4 * 2 ^ 36 ∧
         t.team.ecause.toNat = code + 15 * 2 ^ 10 + 2 ^ 15 + imm * 2 ^ 32 ∧ t.team.eaddr = 0 ∧
         (∀ ws, s.team.ibuf = some ws → t.team.einfo.toNat = ws.getD s.team.slot 0 % 2 ^ 64) ∧
         t.team.efpf = u.fpflags.zeroExtend 64 ∧ t.team.efpm = u.fpmode.zeroExtend 64 ∧ t.team.fpflags = 0 ∧ t.team.fpmode = 0 ∧
         t.team.smask = u.mask ∧ t.team.smstack = u.mstack ∧ t.team.swin = u.winbase ∧ t.team.mask = 1 ∧ t.team.mstack = [] ∧
         t.team.priv = true ∧ t.team.pkt = s.myCtx.tvec % 2 ^ 32 ∧ t.team.slot = 0 ∧
         t.team.winbase = u.winbase ∧ t.team.greedy = u.greedy ∧ t.team.flags = u.flags ∧ t.team.pend = u.pend ∧
         t.team.status = u.status ∧ t.team.guards = u.guards ∧ t.team.snd = u.snd ∧ t.team.sndcfg = u.sndcfg
     Ends (.trap imm) s (enters 56) ∧ Ends (.brk imm) s (enters 57)) ∧
  (∀ (s : State) (c : Cause) (i : Instr), Raises i s c → s.cur.coach = false → s.team.priv = false →
     s.myCtx.tvec / 2 ^ 63 % 2 = 1 → s.team.pendw = [] → c.code < 512 → c.lane < 1024 →
     Ends i s fun t =>
       OnlyTeam s { t with fate := s.fate } ∧ t.fate = .trapped ∧ SameRegs s.team t.team ∧
       t.team.ecause.toNat % 2 ^ 9 = c.code ∧ t.team.ecause.toNat / 2 ^ 18 % 2 ^ 10 = c.lane ∧
       t.team.eaddr = BitVec.ofNat 64 c.addr ∧ t.team.epc.toNat % 2 ^ 36 = s.team.pkt * 12 % 2 ^ 36 ∧
       t.team.epc.toNat / 2 ^ 36 = s.team.slot % 4 ∧ t.team.efpf = s.team.fpflags.zeroExtend 64 ∧
       t.team.smask = s.team.mask ∧ t.team.mask = 1 ∧ t.team.priv = true ∧ t.team.pkt = s.myCtx.tvec % 2 ^ 32 ∧ t.team.slot = 0)

/-- (1) R287, R295: with no handler, or in P mode, a cause stops the team with a fault record that names it; HALT in P mode stops it with
63. The stop enters the partition's RAS log, and nothing else of the machine changes.
(2) R287: a stopped unit's record enters its context's fault queue, an open queue of QKIND 0 with 64-byte records, and is held no longer
once it has been accepted; with no such queue it stays held.
(3) R287: the same for a stopped coachman. -/
def Obligations.EscalationStopsTheTeamAndQueuesItsRecord : Prop :=
  (∀ (s : State), s.cur.coach = false →
     (∀ c i, Raises i s c → s.team.priv = true ∨ s.myCtx.tvec / 2 ^ 63 % 2 = 0 →
       Ends i s fun t =>
         t.fate = .trapped ∧ t.team.status = .stopped ∧
         (∃ r, t.team.stop = some r ∧ r.words[3]? = some c.word ∧
           r.words[4]? = some (epcWord s.team.pkt s.team.slot) ∧
           r.words[5]? = some (BitVec.ofNat 64 c.addr) ∧ r.words[7]? = some (BitVec.ofNat 64 s.clock) ∧ r.sent = false) ∧
         (∀ k, k ≠ teamKey s.cur → tget t.teams k = tget s.teams k) ∧
         { t with teams := s.teams, raslogs := s.raslogs, fate := s.fate } = s) ∧
     (s.src.priv = true → s.team.priv = true →
       Ends .halt s fun t =>
         t.fate = .trapped ∧ t.team.status = .stopped ∧
         (∃ r, t.team.stop = some r ∧ r.words[3]? = some (BitVec.ofNat 64 (63 + 15 * 2 ^ 10 + 2 ^ 15)) ∧
           r.words[4]? = some (epcWord s.team.pkt s.team.slot) ∧
           ∀ ws, s.team.ibuf = some ws → (r.pkt, r.slot) = behindChain ws s.team.pkt s.team.slot) ∧
         (∀ k, k ≠ teamKey s.cur → tget t.teams k = tget s.teams k) ∧
         { t with teams := s.teams, raslogs := s.raslogs, fate := s.fate } = s)) ∧
  (∀ (s u v : State) (key st : Nat) (t : Team) (r : StopRec) (b : Block) (l : Loc),
     key < 2 ^ 20 → tget s.teams key = some t → t.stop = some r → r.sent = false → tget s.blocks (key / 64) = some b →
     let words := r.words.flatMap fun w => natLe 8 w.toNat
     (faultQueue s b.part b.ctx = (u, some l) → enqueue u l true [words] = (v, 1, st) → v.teams = s.teams →
       Ends (.faultRecordEnqueue key) s fun w => { w with teams := v.teams } = v ∧
         tget w.teams key = some { t with stop := some { r with sent := true } } ∧ ∀ k, k ≠ key → tget w.teams k = tget s.teams k) ∧
     (faultQueue s b.part b.ctx = (u, some l) → enqueue u l true [words] = (v, 0, st) → exec (.faultRecordEnqueue key) s = .next v) ∧
     (faultQueue s b.part b.ctx = (u, none) → exec (.faultRecordEnqueue key) s = .next u)) ∧
  (∀ (s u v : State) (key st : Nat) (c : Coach) (r : StopRec) (b : Block) (l : Loc),
     tget s.coaches key = some c → c.stop = some r → r.sent = false → tget s.blocks key = some b →
     let words := r.words.flatMap fun w => natLe 8 w.toNat
     let i : Instr := .faultRecordEnqueue (2 ^ 20 + key)
     (faultQueue s b.part b.ctx = (u, some l) → enqueue u l true [words] = (v, 1, st) → v.coaches = s.coaches →
       Ends i s fun w => { w with coaches := v.coaches } = v ∧
         tget w.coaches key = some { c with stop := some { r with sent := true } } ∧ ∀ k, k ≠ key → tget w.coaches k = tget s.coaches k) ∧
     (faultQueue s b.part b.ctx = (u, some l) → enqueue u l true [words] = (v, 0, st) → Gives i s v) ∧
     (faultQueue s b.part b.ctx = (u, none) → Gives i s u))

/-- (1) R71, R286, R292: ERET in P mode, with the window where the trap found it and a legal EPC, restores `fpflags`, `fpmode`, the mask and the
mask stack, leaves P mode and resumes at EPC, or after its chain when AFTER is set; a record that a WAIT has delivered is cleared where control
returns to that WAIT. Otherwise it raises 3.
(2) R83, R290: the privileged instructions raise 5 in U mode: ERET, TLBI, SREAD, HALT, and CSRR and CSRW of a number with bit 11
set. -/
def Obligations.EretRestoresAndPrivilegeIsChecked : Prop :=
  (∀ (s : State), s.src.priv = true →
     let off := s.src.epc.toNat % 2 ^ 36
     (s.src.winbase = s.src.swin → s.src.epc.toNat / 2 ^ 36 % 4 ≠ 3 → off % 12 = 0 → off / 12 < s.block.kern.npkt →
       ∀ pk sl, (pk, sl) = (if s.src.ecause.getLsbD 15 then
           behindChain (packetWords (mread s.block.kern.image off 12)) (off / 12) (s.src.epc.toNat / 2 ^ 36 % 4)
         else (off / 12, s.src.epc.toNat / 2 ^ 36 % 4)) →
       Ends .eret s fun t =>
         OnlyTeam s { t with fate := s.fate } ∧ t.fate = .transferred ∧ SameRegs s.team t.team ∧
         t.team.priv = false ∧ t.team.pkt = pk ∧ t.team.slot = sl ∧
         t.team.fpflags = s.team.efpf.truncate 32 ∧ t.team.fpmode = s.team.efpm.truncate 32 ∧
         t.team.mask = s.team.smask ∧ t.team.mstack = s.team.smstack ∧ t.team.winbase = s.team.winbase ∧
         t.team.status = s.team.status ∧ t.team.guards = s.team.guards ∧ t.team.pend = s.team.pend ∧
         (s.team.dlv = none → t.team.flags = s.team.flags) ∧
         (∀ f, s.team.dlv = some (f, pk, sl) → (t.team.flag f).record = s.team.dlvNext)) ∧
     (s.src.winbase ≠ s.src.swin ∨ s.src.epc.toNat / 2 ^ 36 % 4 = 3 ∨ off % 12 ≠ 0 ∨ s.block.kern.npkt ≤ off / 12 →
       Raises .eret s (causeOf 3))) ∧
  (∀ (s : State) (d n : Nat), s.src.priv = false →
     Raises .eret s (causeOf 5) ∧ Raises .halt s (causeOf 5) ∧ Raises (.tlbi d n) s (causeOf 5) ∧ Raises (.sread d) s (causeOf 5) ∧
     Raises (.csrwTinj d) s (causeOf 5) ∧
     (0x800 ≤ n → Raises (.csrr d n) s (causeOf 5) ∧ Raises (.csrw d n) s (causeOf 5)))

/-- (1) R282, R291: CSRR reads the CSR in P mode (ZVER in either); a CSRW that the value's rules allow is held and in force from the next
packet; TSTAT's PRIV is not written; a refused value raises 3.
(2) R285, R288, R293, R294: CSRW of TINJ holds the cause in a running or stopped team of the same context and raises 3 for an absent
one; SREAD of an entry of the own context writes it to the odd register, one of another context raises 5, an odd register or an
absent entry 3; TLBI, after its release, removes the page's translations of the context, or all of them, from every TLB and ends once the
accesses that used them are performed. -/
def Obligations.CsrsInjectionReadbackAndShootdown : Prop :=
  (∀ (s : State) (d : Nat),
     let v := readS s d
     WritesScalar (.csrr d 0) s d 0x100 ∧
     (s.src.priv = true →
       WritesScalar (.csrr d 0x800) s d (BitVec.ofNat 64 (1 + (if s.src.sstep then 2 else 0) + (if s.src.skip then 4 else 0))) ∧
       WritesScalar (.csrr d 0x801) s d (BitVec.ofNat 64 s.myCtx.tvec) ∧
       WritesScalar (.csrr d 0x808) s d s.src.epc ∧ WritesScalar (.csrr d 0x809) s d s.src.ecause ∧
       WritesScalar (.csrr d 0x80A) s d s.src.eaddr ∧ WritesScalar (.csrr d 0x80B) s d s.src.einfo ∧
       WritesScalar (.csrr d 0x80C) s d s.src.efpf ∧ WritesScalar (.csrr d 0x80D) s d s.src.efpm ∧
       (∀ k w, k < 8 → s.src.scalarAt (56 + k) = some w → WritesScalar (.csrr d (0x810 + k)) s d w) ∧
       WritesScalar (.csrr d 0x820) s d (BitVec.ofNat 64 s.block.ctx) ∧
       WritesScalar (.csrr d 0x821) s d (BitVec.ofNat 64 s.myCtx.ptbase) ∧
       (∀ k, k < 4 → WritesScalar (.csrr d (0x830 + k)) s d (wget s.src.bpc k)) ∧
       (∀ k, k < 2 → WritesScalar (.csrr d (0x838 + k)) s d (wget s.src.wpa k)) ∧
       (∀ k, k < 2 → WritesScalar (.csrr d (0x83A + k)) s d (wget s.src.wpc k)) ∧
       (∀ n, csrRefuses n v.toNat (watchLen s.src n) = false →
         ChangesTeam (.csrw d n) s fun t => { t with pendw := tset t.pendw n v }) ∧
       (v.toNat < 8 → s.team.pendw = [] → Ends (.csrw d 0x800) s fun t =>
         t.team.settle.sstep = v.getLsbD 1 ∧ t.team.settle.skip = v.getLsbD 2 ∧ t.team.settle.priv = s.team.priv) ∧
       (8 ≤ v.toNat → Raises (.csrw d 0x800) s (causeOf 3)) ∧
       (v.toNat / 2 ^ 38 = 0 → v.toNat % 2 ^ 36 % 12 = 0 → s.team.pendw = [] →
         Ends (.csrw d 0x808) s fun t => t.team.settle.epc = v) ∧
       (v.toNat / 2 ^ 38 ≠ 0 ∨ v.toNat % 2 ^ 36 % 12 ≠ 0 → Raises (.csrw d 0x808) s (causeOf 3)))) ∧
  (∀ (s : State) (d : Nat), s.src.priv = true →
     let v := (readS s d).toNat
     let key := s.cur.core * 16 + v / 2 ^ 10 % 16
     let tk := s.cur.core * 1024 + v / 2 ^ 10 % 16 * 64 + v / 2 ^ 14 % 64
     (∀ b t, v < 2 ^ 20 → v / 2 ^ 9 % 2 = 0 → v % 2 ^ 9 < 384 → tget s.blocks key = some b → tget s.teams tk = some t →
       b.ctx = s.block.ctx → b.part = s.block.part → t.status = .running ∨ t.status = .stopped →
       Ends (.csrwTinj d) s fun u =>
         tget u.teams tk = some { t with tinj := some (v % 2 ^ 9), blocked := false } ∧
         (∀ k, k ≠ tk → tget u.teams k = tget s.teams k) ∧ { u with teams := s.teams } = s) ∧
     (tget s.teams tk = none → Raises (.csrwTinj d) s (causeOf 3)) ∧
     (∀ w, mapRead s v = some (s.block.part, some s.block.ctx, w) → WritesScalar (.sread d) s (d + 1) w) ∧
     (mapRead s v = none → Raises (.sread d) s (causeOf 3)) ∧
     (d < 64 → d % 2 = 1 → ∃ e, decodeAt 0 (mkWord false ⟨0x7E, d, 0, 0, 4⟩) [] = .error e ∧ e.code false = 3) ∧
     (∀ p c w, mapRead s v = some (p, c, w) → ¬(p = s.block.part ∧ c = some s.block.ctx) → Raises (.sread d) s (causeOf 5)) ∧
     (∀ id o, myWait s = .op id → tget s.ops id = some o →
       (olderAccess s s.block.part s.block.ctx o.stamp id = false →
         ∀ k, Ends (.tlbi d k) s fun u => myWait u = .none ∧ u.ops = tdel s.ops id ∧ u.fate = s.fate ∧ u.tlb = s.tlb) ∧
       (olderAccess s s.block.part s.block.ctx o.stamp id = true → ∀ k, Stalls (.tlbi d k) s)) ∧
     ((∀ id, myWait s ≠ .op id) → s.cur.coach = false → ∀ k,
       let gone (e : TlbEntry) : Prop :=
         e.part = s.block.part ∧ e.ctx = s.block.ctx ∧ (k = 1 ∨ v / 2 ^ e.pbits = e.base / 2 ^ e.pbits)
       ((releaseStep s 4 0).2 = true →
         Ends (.tlbi d k) s fun u => u.fate = .stalled ∧ (∃ id, myWait u = .op id) ∧
           (∀ e, e ∈ u.tlb ↔ e ∈ s.tlb ∧ ¬gone e) ∧ (∀ e, e ∈ u.ctlb ↔ e ∈ s.ctlb ∧ ¬gone e)) ∧
       ((releaseStep s 4 0).2 = false → Ends (.tlbi d k) s fun u => u.fate = .stalled ∧ u.tlb = s.tlb ∧ u.ctlb = s.ctlb)))

/-- (1) R106, R109: each two-source integer instruction writes its element function of the elements of V[A] and V[B] in the Active lanes.
An element of width w is a w-bit pattern; signed ones are read in two's complement.
(2) R111, R112: absolute value, negation, counts, copies, lane numbers, broadcasts, bit fields, selects and immediates write the
element's value in the Active lanes (immediates in every lane of the mask); a bit field beyond the register raises 11.
(3) R109, R110: VADDS and VSUBS clamp to the element's range and raise IOF when they clamp; VMAD keeps the low bits of a × b + c; VDOT4
adds the exact signed products of a lane's elements to the I32 C, and IOF is raised when the sum leaves I32.
(4) R80, R112: VCMP writes P[D][k] in the Active lanes by its condition; conditions 10 to 15 raise 11. -/
def Obligations.VectorIntegerElements : Prop :=
  (∀ (s : State) (o : V3),
     let w := intWidth o.t
     let wide := o.t == 3
     let each (i : Instr) (f : BitVec w → BitVec w → BitVec w) : Prop :=
       LaneResults i s o.g wide o.d w (elemCount o.t w) fun k e =>
         ((f (BitVec.ofNat w (elem w (readN s wide o.a k) e)) (BitVec.ofNat w (elem w (readN s wide o.b k) e))).toNat, 0)
     each (.vadd o) (· + ·) ∧ each (.vsub o) (· - ·) ∧ each (.vmul o) (· * ·) ∧
     each (.vmulh o) (fun a b => BitVec.ofInt w (a.toInt * b.toInt / 2 ^ w)) ∧
     each (.vand o) (· &&& ·) ∧ each (.vor o) (· ||| ·) ∧ each (.vxor o) (· ^^^ ·) ∧
     each (.vshl o) (fun a b => a <<< (b.toNat % w)) ∧ each (.vshr o) (fun a b => a >>> (b.toNat % w)) ∧
     each (.vsar o) (fun a b => BitVec.ofInt w (a.toInt / 2 ^ (b.toNat % w))) ∧
     each (.vmin o) (fun a b => if a.toInt < b.toInt then a else b) ∧ each (.vmax o) (fun a b => if a.toInt < b.toInt then b else a) ∧
     each (.vminu o) (fun a b => if a.toNat < b.toNat then a else b) ∧ each (.vmaxu o) (fun a b => if a.toNat < b.toNat then b else a)) ∧
  (∀ (s : State) (o : V2) (v : V3) (p l r imm : Nat),
     let w := intWidth o.t
     let wide := o.t == 3
     let size := if o.t = 3 then 64 else 32
     let x := fun k e => BitVec.ofNat w (elem w (readN s wide o.a k) e)
     let each (i : Instr) (f : BitVec w → Nat) : Prop :=
       LaneResults i s o.g wide o.d w (elemCount o.t w) fun k e => (f (x k e), 0)
     each (.vabs o) (fun a => if a.toInt < 0 then (-a).toNat else a.toNat) ∧ each (.vneg o) (fun a => (-a).toNat) ∧
     each (.vpopc o) (fun a => ((List.range w).filter fun j => a.getLsbD j).length) ∧
     (∀ c : Nat → Nat → Nat, (∀ k e, c k e ≤ w ∧ (∀ j, j < w → w - c k e ≤ j → (x k e).getLsbD j = false) ∧
         (c k e < w → (x k e).getLsbD (w - 1 - c k e) = true)) →
       LaneResults (.vclz o) s o.g wide o.d w (elemCount o.t w) fun k e => (c k e, 0)) ∧
     each (.vmov o) (fun a => a.toNat) ∧
     LaneResults (.vlane o.d o.g) s o.g false o.d 32 1 (fun k _ => (k % s.block.w, 0)) ∧
     (o.t < 4 → LaneResults (.vbcs o) s o.g wide o.d w (elemCount o.t w) fun _ _ => ((readS s o.a).toNat, 0)) ∧
     (p + (l + 1) ≤ size → LaneResults (.vbfx o p l) s o.g wide o.d size 1 fun k _ =>
       (readN s wide o.a k / 2 ^ p % 2 ^ (l + 1), 0)) ∧
     (p + (l + 1) ≤ size → ∀ q : Nat → Nat,
       (∀ k j, (q k).testBit j = if p ≤ j ∧ j ≤ p + l then (readN s wide o.a k).testBit (j - p) else (readN s wide o.d k).testBit j) →
       LaneResults (.vbfi o p l) s o.g wide o.d size 1 fun k _ => (q k, 0)) ∧
     (size < p + (l + 1) → Raises (.vbfx o p l) s (causeOf 11) ∧ Raises (.vbfi o p l) s (causeOf 11)) ∧
     LaneResults (.vsel v r) s v.g (v.t == 3) v.d (if v.t = 3 then 64 else 32) 1 (fun k _ =>
       (if (readP s r).getLsbD k then readN s (v.t == 3) v.a k else readN s (v.t == 3) v.b k, 0)) ∧
     LaneResults (.vldi o.d imm) s 15 false o.d 32 1 (fun _ _ => (((BitVec.ofNat 12 imm).signExtend 32).toNat, 0)) ∧
     LaneResults (.vldiLong o.d imm) s 15 false o.d 32 1 (fun _ _ => (imm % 2 ^ 32, 0))) ∧
  (∀ (s : State) (o : V3) (r : Nat),
     let w := intWidth o.t
     let n := elemCount o.t w
     let wide := o.t == 3
     let x := fun k e => BitVec.ofNat w (elem w (readN s wide o.a k) e)
     let y := fun k e => BitVec.ofNat w (elem w (readN s wide o.b k) e)
     let clamp := fun (v : Int) =>
       if v < -(2 : Int) ^ (w - 1) then (2 ^ (w - 1), 64) else if (2 : Int) ^ (w - 1) - 1 < v then (2 ^ (w - 1) - 1, 64)
       else ((BitVec.ofInt w v).toNat, 0)
     let sum := fun k => ((List.range (32 / w)).map fun e =>
         (BitVec.ofNat w (elem w (readV s o.a k).toNat e)).toInt * (BitVec.ofNat w (elem w (readV s o.b k).toNat e)).toInt).sum
       + (readV s r k).toInt
     LaneResults (.vadds o) s o.g wide o.d w n (fun k e => clamp ((x k e).toInt + (y k e).toInt)) ∧
     LaneResults (.vsubs o) s o.g wide o.d w n (fun k e => clamp ((x k e).toInt - (y k e).toInt)) ∧
     LaneResults (.vmad o r) s o.g wide o.d w n
       (fun k e => ((x k e * y k e + BitVec.ofNat w (elem w (readN s wide r k) e)).toNat, 0)) ∧
     (∀ sat, LaneResults (.vdot4 o r sat) s o.g false o.d 32 1 fun k _ =>
       if sum k < -2147483648 then (if sat then 0x80000000 else (BitVec.ofInt 32 (sum k)).toNat, 64)
       else if 2147483647 < sum k then (if sat then 0x7FFFFFFF else (BitVec.ofInt 32 (sum k)).toNat, 64)
       else ((BitVec.ofInt 32 (sum k)).toNat, 0))) ∧
  (∀ (s : State) (o : V3) (q : Nat),
     let w := intWidth o.t
     let x := fun k => BitVec.ofNat w (readN s (o.t == 3) o.a k)
     let y := fun k => BitVec.ofNat w (readN s (o.t == 3) o.b k)
     (10 ≤ q → Raises (.vcmp o q) s (causeOf 11)) ∧
     ((o.t = 0 ∨ o.t = 3) → operandCause (.vcmp o q) s = none →
       let each (f : Nat → Bool) : Prop := WritesPred (.vcmp o q) s o.d (active s o.g) f 0
       (q = 0 → each fun k => x k == y k) ∧ (q = 1 → each fun k => x k != y k) ∧
       (q = 2 → each fun k => decide ((x k).toInt < (y k).toInt)) ∧ (q = 3 → each fun k => decide ((x k).toInt ≤ (y k).toInt)) ∧
       (q = 4 → each fun k => decide ((y k).toInt < (x k).toInt)) ∧ (q = 5 → each fun k => decide ((y k).toInt ≤ (x k).toInt)) ∧
       (q = 6 → each fun k => decide ((x k).toNat < (y k).toNat)) ∧ (q = 7 → each fun k => decide ((x k).toNat ≤ (y k).toNat)) ∧
       (q = 8 → each fun k => decide ((y k).toNat < (x k).toNat)) ∧ (q = 9 → each fun k => decide ((y k).toNat ≤ (x k).toNat))))

/-- R113, R114: each float arithmetic instruction writes its operation on the elements of its sources, with one rounding in the mode
of `fpmode` or of the override, and adds the flags its elements raise; the special functions write the function's value. -/
def Obligations.VectorFloatArithmeticElements : Prop :=
  ∀ (s : State) (o : V3) (u : V2) (r rm : Nat),
    let mode := fun m => if m = 7 then s.src.fpmode.toNat % 8 else m
    let x := fun k e => elem (floatWidth o.t) (readN s (o.t == 3) o.a k) e
    let y := fun k e => elem (floatWidth o.t) (readN s (o.t == 3) o.b k) e
    let z := fun k e => elem (floatWidth o.t) (readN s (o.t == 3) r k) e
    let each (i : Instr) (f : Nat → Nat → Nat × Nat) : Prop :=
      LaneResults i s o.g (o.t == 3) o.d (floatWidth o.t) (elemCount o.t (floatWidth o.t)) f
    let one (i : Instr) (f : FF → Nat → Nat × Nat) : Prop :=
      LaneResults i s u.g (u.t == 3) u.d (floatWidth u.t) (elemCount u.t (floatWidth u.t)) fun k e =>
        f (ffOf u.t) (elem (floatWidth u.t) (readN s (u.t == 3) u.a k) e)
    let F := ffOf o.t
    each (.fadd o) (fun k e => F.add (mode 7) (x k e) (y k e)) ∧ each (.faddLong o rm) (fun k e => F.add (mode rm) (x k e) (y k e)) ∧
    each (.fsub o) (fun k e => F.sub (mode 7) (x k e) (y k e)) ∧ each (.fsubLong o rm) (fun k e => F.sub (mode rm) (x k e) (y k e)) ∧
    each (.fmul o) (fun k e => F.mul (mode 7) (x k e) (y k e)) ∧ each (.fmulLong o rm) (fun k e => F.mul (mode rm) (x k e) (y k e)) ∧
    each (.fdiv o) (fun k e => F.div (mode 7) (x k e) (y k e)) ∧ each (.fdivLong o rm) (fun k e => F.div (mode rm) (x k e) (y k e)) ∧
    each (.ffma o r rm) (fun k e => F.fma (mode rm) (x k e) (y k e) (z k e)) ∧
    one (.fsqrt u) (fun f a => f.sqrt (mode 7) a) ∧ one (.fsqrtLong u rm) (fun f a => f.sqrt (mode rm) a) ∧
    one (.frnd u) (fun f a => f.roundIntegral (mode 7) a) ∧ one (.frndLong u rm) (fun f a => f.roundIntegral (mode rm) a) ∧
    -- FSCL: the count of a wide element is the 32-bit V[B], of a packed element the signed half
    (let count := fun k e => sclCount (if o.t = 0 ∨ o.t = 3 then 32 else 16)
        (elem (if o.t = 0 ∨ o.t = 3 then 32 else 16) (readV s o.b k).toNat e)
     each (.fscl o) (fun k e => F.scaleBy (mode 7) (x k e) (count k e)) ∧
      each (.fsclLong o rm) (fun k e => F.scaleBy (mode rm) (x k e) (count k e))) ∧
    one (.frcp u) (fun f a => f.special 0 a) ∧ one (.frsq u) (fun f a => f.special 1 a) ∧
    one (.fexp2 u) (fun f a => f.special 2 a) ∧ one (.flog2 u) (fun f a => f.special 3 a) ∧
    one (.fsin u) (fun f a => f.special 4 a) ∧ one (.fcos u) (fun f a => f.special 5 a) ∧
    one (.ftanh u) (fun f a => f.special 6 a) ∧ one (.fsigm u) (fun f a => f.special 7 a)

/-- (1) R116 to R119: minimum and maximum, sign operations, classification and compares write their value in the Active lanes; a compare
condition 8 to 15 raises 11.
(2) R120 to R123: conversions between formats and to and from integers, and the packed dot product, write their value in the Active
lanes. -/
def Obligations.VectorFloatSelectionConversionAndDot : Prop :=
  (∀ (s : State) (o : V3) (u : V2) (q : Nat),
     let F := ffOf o.t
     let each (i : Instr) (f : Nat → Nat → Nat × Nat) : Prop :=
       LaneResults i s o.g (o.t == 3) o.d (floatWidth o.t) (elemCount o.t (floatWidth o.t)) fun k e =>
         f (elem (floatWidth o.t) (readN s (o.t == 3) o.a k) e) (elem (floatWidth o.t) (readN s (o.t == 3) o.b k) e)
     let one (i : Instr) (f : BitVec (floatWidth u.t) → BitVec (floatWidth u.t)) : Prop :=
       LaneResults i s u.g (u.t == 3) u.d (floatWidth u.t) (elemCount u.t (floatWidth u.t)) fun k e =>
         ((f (BitVec.ofNat _ (elem (floatWidth u.t) (readN s (u.t == 3) u.a k) e))).toNat, 0)
     let top := BitVec.twoPow (floatWidth u.t) (floatWidth u.t - 1)
     -- a number wins over a NaN; −0 lies below +0; two NaNs give the first, quieted
     let choose (b : Bool) (x y : Nat) : Nat × Nat :=
       (if F.isNaN x then (if F.isNaN y then F.quiet x else y) else if F.isNaN y then x else F.pick b x y,
         if F.isSig x || F.isSig y then 1 else 0)
     -- a NaN wins over a number
     let prefer (b : Bool) (x y : Nat) : Nat × Nat :=
       (if F.isNaN x then F.quiet x else if F.isNaN y then F.quiet y else F.pick b x y, if F.isSig x || F.isSig y then 1 else 0)
     each (.fmin o) (choose false) ∧ each (.fmax o) (choose true) ∧ each (.fminp o) (prefer false) ∧ each (.fmaxp o) (prefer true) ∧
     one (.fabs u) (fun a => a &&& ~~~top) ∧ one (.fneg u) (fun a => a ^^^ top) ∧
     each (.fcps o) (fun x y => (x % 2 ^ (floatWidth o.t - 1) + y / 2 ^ (floatWidth o.t - 1) * 2 ^ (floatWidth o.t - 1), 0)) ∧
     LaneResults (.fcls u) s u.g false u.d (if u.t = 0 ∨ u.t = 3 then 32 else 16) (if u.t = 0 ∨ u.t = 3 then 1 else 2) (fun k e =>
       ((ffOf u.t).cls (elem (floatWidth u.t) (readN s (u.t == 3) u.a k) e), 0)) ∧
     (8 ≤ q → Raises (.fcmp o q) s (causeOf 11)) ∧
     (q < 8 → operandCause (.fcmp o q) s = none →
       let v := fun k => F.cmp q (readN s (o.t == 3) o.a k) (readN s (o.t == 3) o.b k)
       (∀ k ∈ active s o.g, Nat.land (enables s) (v k).2 = 0) →
       WritesPred (.fcmp o q) s o.d (active s o.g) (fun k => (v k).1) ((active s o.g).foldl (fun a k => orNat a (v k).2) 0))) ∧
  (∀ (s : State) (o : V3) (u : V2) (sf df ity r rm : Nat) (sat : Bool),
     let mode := if rm = 7 then s.src.fpmode.toNat % 8 else rm
     let w := floatWidth u.t
     let wide := ity == 2 || ity == 3
     LaneResults (.fcvt u sf df rm sat) s u.g (df == 3) u.d (if df = 3 then 64 else 32) 1 (fun k _ =>
       (ffCode sf).convert (ffCode df) mode sat (readN s (sf == 3) u.a k % 2 ^ (ffCode sf).width)) ∧
     LaneResults (.fcvi u ity rm sat) s u.g (u.t == 3) u.d w (elemCount u.t w) (fun k e =>
       (ffOf u.t).ofInt mode sat (ityVal ity (if u.t = 0 ∨ u.t = 3 then readN s wide u.a k else elem w (readN s wide u.a k) e))) ∧
     LaneResults (.fciv u ity rm) s u.g wide u.d (if u.t = 1 ∨ u.t = 2 then 16 else if wide then 64 else 32)
       (if u.t = 1 ∨ u.t = 2 then 2 else 1) (fun k e =>
         let v := (ffOf u.t).toInt ity mode (if u.t = 0 ∨ u.t = 3 then readN s (u.t == 3) u.a k else elem w (readN s false u.a k) e)
         ((v.1 % 2 ^ (if u.t = 1 ∨ u.t = 2 then 16 else if wide then 64 else 32)).toNat, v.2)) ∧
     LaneResults (.fdot2 o r rm) s o.g false o.d 32 1 (fun k _ =>
       (ffOf o.t).dot2 mode (readV s o.a k).toNat (readV s o.b k).toNat (readV s r k).toNat))

/-- R43, R45: in every format a rounding that does not overflow gives a finite code with no other finite value between it and the exact
value; RNE and RNA give the nearest, a tie going to the even code or away from zero, RTZ never gives more in magnitude, RUP never
less, RDN never more; inexact is raised exactly when the value differs from the exact one. -/
def Obligations.RoundingGivesTheRepresentableNeighbour : Prop :=
  ∀ f ∈ [ffF32, ffF16, ffBF16, ffF64, ffE5M2, ffE4M3], ∀ (rm : Nat) (sat z : Bool) (d : Dy), rm < 5 → d.m ≠ 0 →
    let x := (f.round rm sat z d).1
    let fl := (f.round rm sat z d).2
    let v := f.val x
    let le (a b : Dy) : Prop := Dy.lt b a = false
    let finite (y : Nat) : Prop := y < 2 ^ f.width ∧ f.isNaN y = false ∧ f.isInf y = false
    fl.testBit 2 = false →
      finite x ∧ (fl.testBit 4 = false ↔ le v d ∧ le d v) ∧
      (∀ y, finite y → ¬(Dy.lt v (f.val y) = true ∧ Dy.lt (f.val y) d = true) ∧ ¬(Dy.lt d (f.val y) = true ∧ Dy.lt (f.val y) v = true)) ∧
      (rm = 1 → le v.abs d.abs) ∧ (rm = 2 → le d v) ∧ (rm = 3 → le v d) ∧
      ((rm = 0 ∨ rm = 4) → ∀ y, finite y → le (v.sub d).abs ((f.val y).sub d).abs) ∧
      (rm = 0 → ∀ y, finite y → le ((f.val y).sub d).abs (v.sub d).abs → Dy.lt (f.val y) v = true ∨ Dy.lt v (f.val y) = true → x % 2 = 0) ∧
      (rm = 4 → ∀ y, finite y → le ((f.val y).sub d).abs (v.sub d).abs → le (f.val y).abs v.abs)

/-- (1) R43, R114: a finite value of a format is its own rounding, raises nothing, and is unchanged by adding a zero of its sign, by
multiplying by one and by dividing by one.
(2) R46, R48: an enabled flag that a lane raises ends an elementwise instruction in the arithmetic cause of the first enabled flag in
the order of R48, for the lowest lane that raised it; nothing is written. -/
def Obligations.RoundingKeepsValuesAndFlagsTrap : Prop :=
  (∀ f ∈ [ffF32, ffF16, ffBF16, ffF64], ∀ (rm : Nat) (sat : Bool) (x : Nat), rm < 5 → x < 2 ^ f.width → f.isNaN x = false → f.isInf x = false →
     let one := f.bias * 2 ^ f.mb
     f.round rm sat (f.neg x) (f.val x) = (x, 0) ∧ f.add rm x (f.withSign (f.neg x) 0) = (x, 0) ∧
     f.mul rm x one = (x, 0) ∧ f.div rm x one = (x, 0)) ∧
  (∀ (s : State) (o : V3) (f kind k : Nat),
     let v := fun k => ffF32.add (s.src.fpmode.toNat % 8) (readV s o.a k).toNat (readV s o.b k).toNat
     o.t = 0 → operandCause (.fadd o) s = none →
     (f, kind) ∈ [(1, 0), (2, 1), (4, 2), (8, 3), (16, 4)] →
     k ∈ active s o.g → Nat.land (v k).2 f ≠ 0 → Nat.land (enables s) f ≠ 0 →
     (∀ j ∈ active s o.g, Nat.land (Nat.land (v j).2 (f - 1)) (enables s) = 0 ∧ (j < k → Nat.land (v j).2 f = 0)) →
     Raises (.fadd o) s { causeOf (128 + 8 * 3 + kind) with lane := k })

/-- (1) R130, R133: shuffles and broadcasts take the source position's value within the lane's section, Active or not; BALL, VMTC and VCPT
form a section's mask of positions or move its Active values to its lowest lanes.
(2) R56, R131, R132: a reduction gives every lane the mask has in a section the value over the section's Active lanes, a scan gives
each Active lane the value over the Active lanes up to itself; integer values start from the operation's identity, a float sum is
exact with one rounding, and float minima and maxima skip NaNs unless all are. -/
def Obligations.ShufflesReductionsAndScans : Prop :=
  (∀ (s : State) (o : V3) (u : V2) (d a g n : Nat), 0 < s.block.w →
     let W := s.block.w
     let size := fun t => if t = 3 then 64 else 32
     let from_ (i : Instr) (g : Nat) (wide : Bool) (d w a : Nat) (pos : Nat → Nat) : Prop :=
       LaneResults i s g wide d w 1 fun k _ => (readN s wide a (k / W * W + pos k), 0)
     from_ (.shfl o) o.g (o.t == 3) o.d (size o.t) o.a (fun k => (readV s o.b k).toNat % W) ∧
     from_ (.shfu d a n) 15 false d 32 a (fun k => if k % W + n < W then k % W + n else k % W) ∧
     from_ (.shfd d a n) 15 false d 32 a (fun k => if n ≤ k % W then k % W - n else k % W) ∧
     from_ (.shfx d a n) 15 false d 32 a (fun k => k % W ^^^ n) ∧
     from_ (.vbcl d a n) 15 false d 32 a (fun _ => n) ∧
     (∀ m : Nat → Nat, (∀ k j, (m k).testBit j =
         (decide (j < W ∧ k / W * W + j < s.block.lanes) && (guarded s g &&& readP s a).getLsbD (k / W * W + j))) →
       LaneResultsOn (.ball d a g) s (activeAll s) (W == 64) d (if W = 64 then 64 else 32) 1 fun k _ => (m k, 0)) ∧
     (∀ m : Nat → Nat, (∀ k j, (m k).testBit j =
         (decide (j < W ∧ k / W * W + j < s.block.lanes) && (guarded s u.g).getLsbD (k / W * W + j) &&
           readN s (u.t == 3) u.a (k / W * W + j) == readN s (u.t == 3) u.a k)) →
       LaneResults (.vmtc u) s u.g (W == 64) u.d (if W = 64 then 64 else 32) 1 fun k _ => (m k, 0)) ∧
     (∀ (v : Nat → Nat) (ls : List Nat),
       let pairs := (List.range (sections s)).flatMap fun j =>
         (sectionLanes s s.src.mask j).zip (sectionLanes s (guarded s u.g) j)
       ls = pairs.map Prod.fst → (∀ p ∈ pairs, v p.1 = readN s (u.t == 3) u.a p.2) → operandCause (.vcpt u) s = none →
       WritesLanes (.vcpt u) s (u.t == 3) u.d ls v 0)) ∧
  (∀ (s : State) (u : V2) (q : Nat), 0 < s.block.w →
     let w := intWidth u.t
     let wide := u.t == 3
     let F := ffOf u.t
     let mode := s.src.fpmode.toNat % 8
     let int (xs : List Nat) : Nat × Nat :=
       let xs := xs.map (BitVec.ofNat w)
       ((if q = 0 then xs.foldl (· + ·) 0
         else if q = 1 then xs.foldl (fun a b => if b.toInt < a.toInt then b else a) (BitVec.intMax w)
         else if q = 2 then xs.foldl (fun a b => if a.toInt < b.toInt then b else a) (BitVec.intMin w)
         else if q = 3 then xs.foldl (fun a b => if b.toNat < a.toNat then b else a) (BitVec.allOnes w)
         else if q = 4 then xs.foldl (fun a b => if a.toNat < b.toNat then b else a) 0
         else if q = 5 then xs.foldl (· &&& ·) (BitVec.allOnes w)
         else if q = 6 then xs.foldl (· ||| ·) 0
         else xs.foldl (· ^^^ ·) 0).toNat, 0)
     let flt (xs : List Nat) : Nat × Nat :=
       if q = 0 then
         if xs = [] then (0, 0)
         else match xs.find? F.isNaN with
           | some x => (F.quiet x, if xs.any F.isSig then 1 else 0)
           | none => F.sumTerms mode xs
       else match xs.filter fun x => !F.isNaN x with
         | y :: ys => (ys.foldl (F.pick (q == 2)) y, if xs.any F.isSig then 1 else 0)
         | [] => match xs with
           | [] => (F.inf (q == 2), 0)
           | x :: _ => (F.quiet x, if xs.any F.isSig then 1 else 0)
     let whole := fun k => sectionLanes s (guarded s u.g) (k / s.block.w)
     let upTo := fun k => (whole k).filter fun i => decide (i ≤ k)
     let val (f : List Nat → Nat × Nat) (w : Nat) (con : Nat → List Nat) (k e : Nat) : Nat × Nat :=
       f ((con k).map fun i => elem w (readN s wide u.a i) e)
     let inSections := fun k => decide (k / s.block.w < sections s)
     q < 8 →
     LaneResultsOn (.vred u q) s ((activeAll s).filter inSections) wide u.d w (elemCount u.t w) (val int w whole) ∧
     LaneResultsOn (.vscn u q) s ((active s u.g).filter inSections) wide u.d w (elemCount u.t w) (val int w upTo) ∧
     (q < 3 →
       LaneResultsOn (.fred u q) s ((activeAll s).filter inSections) wide u.d (floatWidth u.t) (elemCount u.t (floatWidth u.t))
         (val flt (floatWidth u.t) whole) ∧
       LaneResultsOn (.fscn u q) s ((active s u.g).filter inSections) wide u.d (floatWidth u.t) (elemCount u.t (floatWidth u.t))
         (val flt (floatWidth u.t) upTo)))

/-- (1) R53 to R55, R134 to R138: VHQ writes the words of each quantised block in its Active lanes, VQ8 and VDQ convert under the lane's
scale byte, VBSD adds the exact scaled sum of its group of eight lanes to C with one rounding.
(2) R54, R55: the inverse keyed Hadamard transform gives back every value that the forward transform was given, exactly, under the same
key and block number. -/
def Obligations.QuantisingAndTheKeyedTransform : Prop :=
  (∀ (s : State) (u : V2) (o : V3) (r q rm : Nat) (sat : Bool),
     let mode := if rm = 7 then s.src.fpmode.toNat % 8 else rm
     LaneResults (.vq8 u r q rm sat) s u.g false u.d 32 1
       (fun k _ => quant8 (ffXf q) mode sat (readV s u.a k).toNat ((readV s r k).toNat % 256)) ∧
     LaneResults (.vdq u r q) s u.g false u.d 32 1
       (fun k _ => dequant8 (ffXf q) ((readV s u.a k).toNat % 256) ((readV s r k).toNat % 256)) ∧
     -- VBSD, where the lanes of its groups are those the team has
     (s.block.lanes % 8 = 0 →
       let lanes := fun gr => ((List.range 8).map fun m => 8 * gr + m).filter fun i => (guarded s o.g).getLsbD i
       let scaleLane := fun gr => gr / (s.block.w / 8) * s.block.w + (q % 64 + gr % (s.block.w / 8))
       let sum := fun gr => vbsdSum (if o.t = 0 then ffE4M3 else ffE5M2)
         (byteOf (readV s (o.a + 1) (scaleLane gr)).toNat (q / 64 % 4)) (byteOf (readV s (o.b + 1) (scaleLane gr)).toNat (q / 64 % 4))
         ((lanes gr).flatMap fun i => (List.range 4).map fun k =>
           (byteOf (readV s o.a i).toNat k, byteOf (readV s o.b i).toNat k))
       LaneResults (.vbsd o r q rm) s o.g false o.d 32 1 fun k _ =>
         let c := (readV s r k).toNat
         let inv := if (sum (k / 8)).2 then 1 else 0
         if ffF32.isNaN c then (ffF32.quiet c, orNat inv (if ffF32.isSig c then 1 else 0))
         else
           let x := ffF32.accumulate mode c (sum (k / 8)).1
           (x.1, orNat inv x.2)) ∧
     -- VHQ: blocks of 32 lanes; a lane that is not Active counts as zero; the mask's lanes raise the block's flags
     (s.block.lanes % 32 = 0 → operandCause (.vhq o r q) s = none →
       let block := fun m => vhqBlock q (readS s r) (readV s o.b (32 * m)) ((List.range 32).map fun k =>
         if (guarded s o.g).getLsbD (32 * m + k) then (readV s o.a (32 * m + k)).toNat else 0)
       (∀ k ∈ activeAll s, Nat.land (enables s) (block (k / 32)).2.2.2 = 0) →
       WritesLanes (.vhq o r q) s false o.d (active s o.g)
         (fun k => q4Word (block (k / 32)).1 (block (k / 32)).2.1 (block (k / 32)).2.2.1 (k % 32))
         ((activeAll s).foldl (fun a k => orNat a (block (k / 32)).2.2.2) 0))) ∧
  (∀ (lo hi b : Word) (xs : List Dy) (k : Nat), xs.length = 32 → k < 32 →
     (((hadamardInv lo hi b (hadamard lo hi b xs)).getD k Dy.zero).sub (xs.getD k Dy.zero)).isZero = true ∧
     (((hadamard lo hi b (hadamardInv lo hi b xs)).getD k Dy.zero).sub (xs.getD k Dy.zero)).isZero = true)

/-- R127 to R129: FTAB interpolates in the table's current bank and raises 19 on an empty one; TABLD checks the header and starts a
load, which TABLE_SWAP completes: the loaded bank becomes current at once and the flag is released, or poison leaves the current bank
as it was. -/
def Obligations.TablesLoadSwapAndLookUp : Prop :=
  ∀ (s : State) (d a n g b f core id : Nat) (bank : Bank),
    (tableNow s s.cur.core n = some bank →
      LaneResults (.ftab d a n g) s g false d 32 1 fun k _ => tableAt bank (s.src.fpmode.toNat % 8) (readV s a k).toNat) ∧
    (tableNow s s.cur.core n = none → operandCause (.ftab d a n g) s = none → Raises (.ftab d a n g) s (causeOf 19)) ∧
    (let off := (readS s b).toNat
     let header := readWin s off 16
     let len := 16 + 4 * fld (leNat header) 48 16
     myWait s = .none → flagRoom s f = true →
     (off % 16 ≠ 0 ∨ inWindow s.block off 16 = false → Raises (.tabld n b f) s { causeOf 19 with addr := off }) ∧
     (off % 16 = 0 → inWindow s.block off 16 = true → windowBusy s (winFoot s.block off 16 false) = false →
      winPoisoned s off 16 = false →
      (headerOk (leNat header) = false ∨ inWindow s.block off len = false →
        Raises (.tabld n b f) s { causeOf 19 with addr := off }) ∧
      (headerOk (leNat header) = true → inWindow s.block off len = true → 
        (tableBusy s s.cur.core n = true → Stalls (.tabld n b f) s) ∧
        (tableBusy s s.cur.core n = false → windowBusy s (winFoot s.block off len false) = false →
          Issues (.tabld n b f) s f (.tabld n off (fld (leNat header) 48 16) header) (winFoot s.block off len false))))) ∧
    (∀ (o : Op) (off cnt : Nat) (header : List Byte),
      s.ops.find? (fun x => x.2.unit.core == core && (match x.2.kind with | .tabld m _ _ _ => m == n | _ => false)) = some (id, o) →
      tget s.ops id = some o → (∀ m, (tget s.tabCur (tableKey core m)).getD 0 ≤ 1) → o.kind = .tabld n off cnt header →
      let bytes := ((footOffsets o.foot).drop 16)
      Ends (.tableSwap core n) s fun t =>
        tget t.ops id = none ∧ (∀ j, j ≠ id → tget t.ops j = tget s.ops j) ∧ t.spad = s.spad ∧ t.mem = s.mem ∧
        (bytes.any (fun w => poisoned s 0 core w 1) = true → ∀ m, tableNow t core m = tableNow s core m) ∧
        (bytes.any (fun w => poisoned s 0 core w 1) = false →
          (tableNow t core n).map (fun x => (x.n, x.shift, x.x0, x.entries)) =
            some (cnt, fld (leNat header) 32 16, fld (leNat header) 0 32,
              (List.range cnt).map fun j =>
                BitVec.ofNat 32 (leNat (((bytes.map fun w => readLocal1 s 0 core (s.owner o.part) w).drop (4 * j)).take 4))) ∧
          ∀ m, m ≠ n → m < 4 → n < 4 → tableNow t core m = tableNow s core m))

/-- R139, R141, R319, R322: with a valid leaf for the page in the core's TLB, an aligned canonical access that the leaf's R and W bits
permit goes through to the leaf's page and offset on a NORMAL page; a missing permission or a queue page raises 65, a misaligned
address 66; a non-canonical address raises 64 whatever the TLB holds. -/
def Obligations.TranslationChecksAnAccess : Prop :=
  ∀ (s : State) (va n : Nat) (need : Need) (e : TlbEntry),
    let chk := checkMine s va n need
    (canonical va = false → chk = (s, .bad 64)) ∧
    (canonical va = true → s.tlb.find? (fun x => x.covers s.cur.core s.block.part s.block.ctx va) = some e → fld e.leaf 1 2 = 1 →
      (va % n ≠ 0 → chk = (s, .bad 66)) ∧
      (va % n = 0 →
        (e.leaf.testBit 5 = true ∨ need.r = true ∧ e.leaf.testBit 3 = false ∨ need.w = true ∧ e.leaf.testBit 4 = false →
          chk = (s, .bad 65)) ∧
        (e.leaf.testBit 5 = false → (need.r = true → e.leaf.testBit 3 = true) → (need.w = true → e.leaf.testBit 4 = true) →
          chk = (s, .ok ⟨0, 0, fld e.leaf 16 23 * 65536 + va % 2 ^ e.pbits, leafHome e.leaf, leafHomeid e.leaf, s.block.part, s.block.ctx⟩))))

/-- (1) R70, R140, R143, R144: a global load takes what L1 holds of its lanes, and completes at once when that is all of them: with no flag
V[D] holds the zero-extended bytes, with a flag once the flag has been awaited; otherwise it asks for the sectors of every line it lacks. On
NORMAL pages, where no stash line lies over them, no memory changes, and no register but V[D] in the Active lanes.
(2) R143, R144: a global store puts its lanes' bytes into the core's L1 as dirty bytes, a higher lane's over a lower one's; no register changes,
and while L1 has room for the lines no memory does and every other byte of every L1 keeps what it held.
THE MODEL'S CHOICE, not the spec's: that L1 sectors move at free moments (log 25). -/
def Obligations.GlobalLoadsAndStores : Prop :=
  (∀ (s : State) (o : MOp) (off : Nat) (loc : Nat → Loc) (i : Instr) (n : Nat) (wide : Bool) (x : Int),
     (i, n, wide, x) ∈ ([(.ldg8 o, 1, false, 0), (.ldg8Long o off, 1, false, sgn 24 off), (.ldg16 o, 2, false, 0),
       (.ldg16Long o off, 2, false, sgn 24 off), (.ldg32 o, 4, false, 0), (.ldg32Long o off, 4, false, sgn 24 off),
       (.ldg64 o, 8, true, 0), (.ldg64Long o off, 8, true, sgn 24 off)] : List (Instr × Nat × Bool × Int)) →
     let ea := eaOf s o.s o.a x
     let l1 := fun k => l1Read s s.cur.core (s.owner s.block.part) (loc k) n
     s.cur.coach = false → operandCause i s = none → myWait s = .none → flagRoom s o.f = true →
     (∀ k ∈ active s o.g, stashLines s.block (loc k) = [] ∧ (l1 k).2.2 = false) →
     (∀ k ∈ active s o.g, Reaches s (ea k) n ⟨true, false, false⟩ (loc k) ∧ (loc k).kind = 0 ∧ watchHit s true false (ea k) n = false) →
     Ends i s fun t =>
       SameMemory s t ∧ OtherTeams s t ∧ SameScalars s.team t.team ∧ SamePreds s.team t.team ∧
       SameLanesBut s.team t.team wide (logV s o.d) (active s o.g) ∧
       -- all of it in L1
       ((∀ k ∈ active s o.g, (l1 k).1 = 2 ^ n - 1) →
         (12 ≤ o.f → t.fate = .completed ∧ ∀ k ∈ active s o.g,
           t.team.laneAt (logV s o.d) k = landed (s.team.inFlight 0 (logV s o.d)) (BitVec.ofNat 32 (l1 k).2.1) ∧
           (wide = true → t.team.laneAt (logV s o.d + 1) k =
             landed (s.team.inFlight 0 (logV s o.d + 1)) (BitVec.ofNat 32 ((l1 k).2.1 / 2 ^ 32)))) ∧
         (o.f < 12 → t.fate = s.fate ∧ (t.team.flag o.f).count = (s.team.flag o.f).count ∧ ∀ k ∈ active s o.g,
           (s.team.inFlight 0 (logV s o.d) = false →
             (t.team.waited o.f).laneAt (logV s o.d) k = some (BitVec.ofNat 32 (l1 k).2.1)) ∧
           (wide = true → s.team.inFlight 0 (logV s o.d + 1) = false →
             (t.team.waited o.f).laneAt (logV s o.d + 1) k = some (BitVec.ofNat 32 ((l1 k).2.1 / 2 ^ 32))))) ∧
       -- some of it missing: a request for each missing sector
       (∀ k ∈ active s o.g, (l1 k).1 ≠ 2 ^ n - 1 →
         (tget t.ops s.nextOp).isSome = true ∧ (12 ≤ o.f → t.fate = .stalled ∧ myWait t = .op s.nextOp) ∧
         (o.f < 12 → t.fate = s.fate ∧ (t.team.flag o.f).count = (s.team.flag o.f).count + 1) ∧
         ∃ j r m, tget t.reqs j = some r ∧ r.op = s.nextOp ∧ r.loc = lineLoc (loc k) ∧ r.kind = .load m ∧
           m.testBit ((loc k).addr % 128 / 32) = true)) ∧
  (∀ (s : State) (o : MSt) (off : Nat) (loc : Nat → Loc) (i : Instr) (n : Nat) (wide : Bool) (x : Int),
     (i, n, wide, x) ∈ ([(.stg8 o, 1, false, 0), (.stg8Long o off, 1, false, sgn 24 off), (.stg16 o, 2, false, 0),
       (.stg16Long o off, 2, false, sgn 24 off), (.stg32 o, 4, false, 0), (.stg32Long o off, 4, false, sgn 24 off),
       (.stg64 o, 8, true, 0), (.stg64Long o off, 8, true, sgn 24 off)] : List (Instr × Nat × Bool × Int)) →
     let ea := eaOf s o.s o.a x
     let own := s.owner s.block.part
     let at_ := fun k j => ({ loc k with addr := (loc k).addr + j } : Loc)
     operandCause i s = none →
     (∀ k ∈ active s o.g, Reaches s (ea k) n ⟨false, true, false⟩ (loc k) ∧ (loc k).addr % n = 0 ∧
       stashLines s.block (loc k) = [] ∧ watchHit s false true (ea k) n = false ∧
       ∀ y, l1Get s s.cur.core (loc k) = some y → y.owner = own) →
     Ends i s fun t =>
       t.spad = s.spad ∧ t.acc = s.acc ∧ t.wbuf = s.wbuf ∧ t.teams = s.teams ∧ t.fate = s.fate ∧
       ((l1Lines s s.cur.core ++ (active s o.g).map fun k => lineLoc (loc k)).eraseDups.length ≤ 1024 →
         t.mem = s.mem ∧ t.l2 = s.l2 ∧ t.reqs = s.reqs ∧
         (∀ k ∈ active s o.g, ∀ j, j < n → (∀ k' ∈ active s o.g, k < k' → ∀ j', j' < n → at_ k' j' ≠ at_ k j) →
           l1Read t s.cur.core own (at_ k j) 1 = (1, readN s wide o.d k / 256 ^ j % 256, false)) ∧
         (∀ c l, ¬(c = s.cur.core ∧ ∃ k ∈ active s o.g, ∃ j, j < n ∧ l = at_ k j) → l1Read t c own l 1 = l1Read s c own l 1)))

/-- (1) R142, R143, R190: a scratchpad load writes V[D] with the window's bytes at each lane's offset; a flagged one leaves V[D] unreadable
until its WAIT; an offset outside the window raises 94, a misaligned one 90, a poisoned byte 92 with no flag; nothing else changes.
(2) R142, R143, R191: a scratchpad store writes its lanes' bytes at their offsets in the window, a higher lane's over a lower one's; every
other byte of the core's scratchpad reads as before, and no register and no other memory changes. An offset outside the window raises 94, a
misaligned one 90, and one that an operation in flight holds waits. -/
def Obligations.ScratchpadLoadsAndStores : Prop :=
  (∀ (s : State) (o : MOp) (off : Nat) (i : Instr) (n : Nat) (wide : Bool) (x : Int),
     (i, n, wide, x) ∈ ([(.ldl32 o, 4, false, 0), (.ldl32Long o off, 4, false, sgn 24 off), (.ldl64 o, 8, true, 0),
       (.ldl64Long o off, 8, true, sgn 24 off)] : List (Instr × Nat × Bool × Int)) →
     let ea := eaOf s o.s o.a x
     operandCause i s = none →
     (∀ k ∈ active s o.g, (∀ j ∈ active s o.g, j < k → winOk s.block (ea j) n = true ∧ ea j % n = 0) →
       (winOk s.block (ea k) n = false → Raises i s { causeOf 94 with lane := k, addr := ea k }) ∧
       (winOk s.block (ea k) n = true → ea k % n ≠ 0 → Raises i s { causeOf 90 with lane := k, addr := ea k })) ∧
     ((∀ k ∈ active s o.g, winOk s.block (ea k) n = true ∧ ea k % n = 0) →
       (windowBusy s ((active s o.g).flatMap fun k => winFoot s.block (ea k) n false) = true → Stalls i s) ∧
       (windowBusy s ((active s o.g).flatMap fun k => winFoot s.block (ea k) n false) = false →
         (12 ≤ o.f → (∀ k ∈ active s o.g, winPoisoned s (ea k) n = false) →
           WritesLanes i s wide o.d (active s o.g) (fun k => leNat (readWin s (ea k) n)) 0) ∧
         (12 ≤ o.f → ∀ k ∈ active s o.g, winPoisoned s (ea k) n = true → (∀ j ∈ active s o.g, j < k → winPoisoned s (ea j) n = false) →
           Raises i s { causeOf 92 with lane := k, addr := ea k }) ∧
         (o.f < 12 → flagRoom s o.f = true → Ends i s fun t =>
           SameMemory s t ∧ OtherTeams s t ∧ SameScalars s.team t.team ∧ SamePreds s.team t.team ∧
           SameLanesBut s.team t.team wide (logV s o.d) (active s o.g) ∧ t.fate = s.fate ∧
           ∀ k ∈ active s o.g, t.team.laneAt (logV s o.d) k = none ∧
             (winPoisoned s (ea k) n = false →
               (s.team.inFlight 0 (logV s o.d) = false →
                 (t.team.waited o.f).laneAt (logV s o.d) k = some (BitVec.ofNat 32 (leNat (readWin s (ea k) n)))) ∧
               (wide = true → s.team.inFlight 0 (logV s o.d + 1) = false →
                 (t.team.waited o.f).laneAt (logV s o.d + 1) k = some (BitVec.ofNat 32 (leNat (readWin s (ea k) n) / 2 ^ 32)))))))) ∧
  (∀ (s : State) (o : MSt) (off : Nat) (i : Instr) (n : Nat) (wide : Bool) (x : Int),
     (i, n, wide, x) ∈ ([(.stl32 o, 4, false, 0), (.stl32Long o off, 4, false, sgn 24 off), (.stl64 o, 8, true, 0),
       (.stl64Long o off, 8, true, sgn 24 off)] : List (Instr × Nat × Bool × Int)) →
     let ea := eaOf s o.s o.a x
     let byte := fun (t : State) p => readLocal1 t 0 s.cur.core (s.owner s.block.part) p
     let foot := (active s o.g).flatMap fun k => winFoot s.block (ea k) n true
     operandCause i s = none →
     (∀ k ∈ active s o.g, (∀ j ∈ active s o.g, j < k → winOk s.block (ea j) n = true ∧ ea j % n = 0) →
       (winOk s.block (ea k) n = false → Raises i s { causeOf 94 with lane := k, addr := ea k }) ∧
       (winOk s.block (ea k) n = true → ea k % n ≠ 0 → Raises i s { causeOf 90 with lane := k, addr := ea k })) ∧
     ((∀ k ∈ active s o.g, winOk s.block (ea k) n = true ∧ ea k % n = 0) →
       (windowBusy s foot = true → Stalls i s) ∧
       (windowBusy s foot = false → Ends i s fun t =>
         t.mem = s.mem ∧ t.acc = s.acc ∧ t.wbuf = s.wbuf ∧ t.l1 = s.l1 ∧ t.l2 = s.l2 ∧ t.teams = s.teams ∧ t.fate = s.fate ∧
         (∀ k ∈ active s o.g, ∀ j, j < n → ∀ p, winByte s.block (ea k + j) = some p →
           (∀ k' ∈ active s o.g, k < k' → ∀ j', j' < n → winByte s.block (ea k' + j') ≠ some p) →
           (∀ j', j < j' → j' < n → winByte s.block (ea k + j') ≠ some p) →
           byte t p = BitVec.ofNat 8 (readN s wide o.d k / 256 ^ j)) ∧
         (∀ p, (∀ k ∈ active s o.g, ∀ j, j < n → winByte s.block (ea k + j) ≠ some p) → byte t p = byte s p))))

/-- (1) R88, R146: LDK writes S[D] with the launch's parameter bytes at S[S4] + offset, 110 past the block, 106 when misaligned; SLDL
writes S[D] with eight bytes of the kernel's own image at S[A] + imm, 3 when misaligned or past the image.
(2) R147 to R151: XMAP enters a slot with nothing filled; XWB sends the slot's dirty bytes home and keeps its filled lines, XUNMAP
empties the slot besides, XINV forgets both, and a slot above 7 raises 27; STX writes the window and marks its bytes dirty; LDX of filled lines
writes V[D], and of a line that is not filled asks for it; a lane outside every slot raises 96, a misaligned one 98; PFG changes no register and
no memory, and drops the lanes that fail a check. -/
def Obligations.ScalarLoadsStashAndPrefetch : Prop :=
  (∀ (s : State) (d b off : Nat),
     let params := match tget s.graphs s.block.gslot with | some g => g.params | none => []
     (∀ i n, ∀ x : Int, (i, n, x) ∈ ([(.ldk32 d b, 4, 0), (.ldk32Long d b off, 4, sgn 24 off), (.ldk64 d b, 8, 0),
         (.ldk64Long d b off, 8, sgn 24 off)] : List (Instr × Nat × Int)) →
       let a := (((readS s b).toNat + x) % (2 : Int) ^ 64).toNat
       (params.length < a + n → Raises i s { causeOf 110 with addr := a }) ∧
       (a + n ≤ params.length → a % n ≠ 0 → Raises i s { causeOf 106 with addr := a }) ∧
       (a + n ≤ params.length → a % n = 0 →
         WritesScalar i s d (BitVec.ofNat 64 (leNat ((params.drop a).take n))))) ∧
     (∀ i, ∀ x : Int, (i, x) ∈ ([(.sldl d b off, sgn 12 off), (.sldlLong d b off, sgn 32 off)] : List (Instr × Int)) →
       let a := (((readS s b).toNat + x) % (2 : Int) ^ 64).toNat
       (a % 8 ≠ 0 ∨ imagePackets s * 12 < a + 8 → Raises i s (causeOf 3)) ∧
       (a % 8 = 0 → a + 8 ≤ imagePackets s * 12 → s.src.priv = false →
         WritesScalar i s d (BitVec.ofNat 64 (leNat (mread s.block.kern.image a 8)))) ∧
       (∀ l, a % 8 = 0 → a + 8 ≤ imagePackets s * 12 → s.src.priv = true → Reaches s (imageBase s + a) 8 ⟨true, false, true⟩ l →
         let r := homeNat s l (s.owner s.block.part) 8
         exec i s = .next (writeS r.1 d (BitVec.ofNat 64 r.2.1))))) ∧
  (∀ (s : State) (b off a g : Nat) (ld : MOp) (st : MSt) (loc : Nat → Loc),
     let own := s.owner s.block.part
     let core := blockKey s.cur / 16
     (∀ i, ∀ x : Int, (i, x) ∈ ([(.xmap b, 0), (.xmapLong b off, sgn 24 off)] : List (Instr × Int)) →
       let base := (((readS s b).toNat + x) % (2 : Int) ^ 64).toNat
       let w := (readS s (b + 1)).toNat
       let len := fld w 32 21
       let legal := fld w 59 5 = 0 ∧ fld w 53 3 = 0 ∧ fld w 20 12 = 0 ∧ fld w 0 20 % 128 = 0 ∧ len % 128 = 0 ∧ 128 ≤ len ∧ len ≤ 1048576 ∧
         base % 128 = 0 ∧ tget s.block.stash (fld w 56 3) = none ∧
         ∀ e ∈ s.block.stash, overlaps e.2.off e.2.len (fld w 0 20) len = false ∧ overlaps e.2.base e.2.len base len = false
       (¬legal → Raises i s (causeOf 27)) ∧
       (legal → inWindow s.block (fld w 0 20) len = false → Raises i s { causeOf 94 with addr := fld w 0 20 }) ∧
       (legal → inWindow s.block (fld w 0 20) len = true → (tget s.blocks (blockKey s.cur)).isSome = true →
         (∀ v ∈ pageStarts base len, Reaches s v 1 ⟨false, true, false⟩ (loc v)) →
         Ends i s fun t => t.teams = s.teams ∧ SameMemory s t ∧ t.fate = s.fate ∧
           ∃ e, tget t.block.stash (fld w 56 3) = some e ∧ e.base = base ∧
           e.len = len ∧ e.off = fld w 0 20 ∧ e.filled = [] ∧ e.dirty = [] ∧ e.pois = [] ∧
           e.pages.map Prod.fst = (pageStarts base len).map (· / 65536))) ∧
     (∀ i ∈ ([.xunmap b, .xwb b, .xinv b] : List Instr), 8 ≤ (readS s b).toNat → Raises i s (causeOf 27)) ∧
     (∀ e, (readS s b).toNat < 8 → tget s.block.stash (readS s b).toNat = some e → (tget s.blocks (blockKey s.cur)).isSome = true →
       let home (t : State) : Prop := ∀ o l w, o ∈ e.dirty → stashLoc e (128 * (o / 128)) = some l → l.kind = 0 →
         winByte s.block (e.off + o) = some w →
         ∃ j r bs, tget t.reqs j = some r ∧ r.kind = .store bs ∧ r.loc = lineLoc l ∧ (o % 128, readLocal1 s 0 core own w) ∈ bs
       (Ends (.xinv b) s fun t => t.teams = s.teams ∧ SameMemory s t ∧ t.reqs = s.reqs ∧ t.fate = s.fate ∧
         tget t.block.stash (readS s b).toNat = some { e with filled := [], dirty := [], pois := [] }) ∧
       (Ends (.xwb b) s fun t => t.teams = s.teams ∧ t.spad = s.spad ∧ t.fate = s.fate ∧ home t ∧
         ∃ e', tget t.block.stash (readS s b).toNat = some e' ∧ e'.dirty = [] ∧ e'.filled = e.filled) ∧
       (Ends (.xunmap b) s fun t => t.teams = s.teams ∧ t.spad = s.spad ∧ t.fate = s.fate ∧ home t ∧
         tget t.block.stash (readS s b).toNat = none)) ∧
     (∀ i, ∀ x : Int, (i, x) ∈ ([(.pfg a b g, 0), (.pfgLong a b g off, sgn 24 off)] : List (Instr × Int)) →
       operandCause i s = none →
       (∀ k ∈ active s g, Reaches s (eaOf s b a x k) 1 ⟨true, false, false⟩ (loc k) ∧ (loc k).kind = 0 ∨
         ∃ c, checkMine s (eaOf s b a x k) 1 ⟨true, false, false⟩ = (s, .bad c)) →
       Ends i s fun t => t.teams = s.teams ∧ SameMemory s t ∧ t.fate = s.fate ∧ t.ops = s.ops) ∧
     (∀ (slot p : Nat → Nat) (e : Nat → StashSlot), (tget s.blocks (blockKey s.cur)).isSome = true →
       -- the lanes' places: slot, entry, offset
       let placed (g : Nat) (ea : Nat → Nat) (n : Need) (rd wr : Bool) : Prop := ∀ k ∈ active s g,
         stashFind s.block (ea k) = some (slot k, e k, p k) ∧ tget s.block.stash (slot k) = some (e k) ∧ ea k % 4 = 0 ∧
         Reaches s (ea k) 1 n (loc k) ∧ (loc k).kind = 0 ∧ watchHit s rd wr (ea k) 4 = false
       (∀ i, ∀ x : Int, (i, x) ∈ ([(.stx st, 0), (.stxLong st off, sgn 24 off)] : List (Instr × Int)) →
         let byte := fun k j => winByte s.block ((e k).off + p k + j)
         operandCause i s = none → placed st.g (eaOf s st.s st.a x) ⟨false, true, false⟩ false true →
         windowBusy s ((active s st.g).flatMap fun k => winFoot s.block ((e k).off + p k) 4 true) = false →
         Ends i s fun t => t.teams = s.teams ∧ t.mem = s.mem ∧ t.acc = s.acc ∧ t.wbuf = s.wbuf ∧ t.l2 = s.l2 ∧ t.fate = s.fate ∧
           (∀ k ∈ active s st.g, ∃ e', tget t.block.stash (slot k) = some e' ∧ e'.filled = (e k).filled ∧
             (∀ j, j < 4 → p k + j ∈ e'.dirty) ∧ ∀ q ∈ (e k).dirty, q ∈ e'.dirty) ∧
           (∀ k ∈ active s st.g, ∀ j w, j < 4 → byte k j = some w →
             (∀ k' j', k' ∈ active s st.g → j' < 4 → k < k' ∨ k = k' ∧ j < j' → byte k' j' ≠ some w) →
             readLocal1 t 0 s.cur.core own w = BitVec.ofNat 8 ((readV s st.d k).toNat / 256 ^ j)) ∧
           ∀ w, (∀ k ∈ active s st.g, ∀ j, j < 4 → byte k j ≠ some w) →
             readLocal1 t 0 s.cur.core own w = readLocal1 s 0 s.cur.core own w) ∧
       (∀ i, ∀ x : Int, (i, x) ∈ ([(.ldx ld, 0), (.ldxLong ld off, sgn 24 off)] : List (Instr × Int)) →
         let held := fun k => leNat (readWin s ((e k).off + p k) 4)
         s.cur.coach = false → operandCause i s = none → myWait s = .none → flagRoom s ld.f = true →
         placed ld.g (eaOf s ld.s ld.a x) ⟨true, false, false⟩ true false →
         windowBusy s (((active s ld.g).flatMap fun k => winFoot s.block ((e k).off + p k) 4 false) ++
           stashFills s.block ((active s ld.g).map fun k => (k, eaOf s ld.s ld.a x k))) = false →
         ((∀ k ∈ active s ld.g, p k / 128 ∈ (e k).filled ∧ p k / 32 ∉ (e k).pois) →
           Ends i s fun t => SameMemory s t ∧ OtherTeams s t ∧ SameScalars s.team t.team ∧ SamePreds s.team t.team ∧
             SameLanesBut s.team t.team false (logV s ld.d) (active s ld.g) ∧
             (12 ≤ ld.f → t.fate = .completed ∧ ∀ k ∈ active s ld.g,
               t.team.laneAt (logV s ld.d) k = landed (s.team.inFlight 0 (logV s ld.d)) (BitVec.ofNat 32 (held k))) ∧
             (ld.f < 12 → t.fate = s.fate ∧ (t.team.flag ld.f).count = (s.team.flag ld.f).count ∧ ∀ k ∈ active s ld.g,
               s.team.inFlight 0 (logV s ld.d) = false →
               (t.team.waited ld.f).laneAt (logV s ld.d) k = some (BitVec.ofNat 32 (held k)))) ∧
         ((∃ k ∈ active s ld.g, p k / 128 ∉ (e k).filled) →
           Ends i s fun t => t.mem = s.mem ∧ t.spad = s.spad ∧ t.l2 = s.l2 ∧ OtherTeams s t ∧ SameScalars s.team t.team ∧
             ∃ id, (tget t.ops id).isSome = true ∧ (ld.f < 12 → t.fate = s.fate) ∧
               (12 ≤ ld.f → t.fate = .stalled ∧ myWait t = .op id) ∧
               ∀ k ∈ active s ld.g, p k / 128 ∉ (e k).filled → ∃ j r, tget t.reqs j = some r ∧ r.op = id ∧ r.kind = .load 15 ∧
                 r.loc = lineLoc (loc k)))) ∧
     (∀ i (c : MSt) (x : Int) (n : Need), (i, c, x, n) ∈ ([(.stx st, st, 0, ⟨false, true, false⟩),
         (.stxLong st off, st, sgn 24 off, ⟨false, true, false⟩), (.ldx ld, ⟨ld.d, ld.a, ld.s, ld.g⟩, 0, ⟨true, false, false⟩),
         (.ldxLong ld off, ⟨ld.d, ld.a, ld.s, ld.g⟩, sgn 24 off, ⟨true, false, false⟩)] : List (Instr × MSt × Int × Need)) →
       let ea := eaOf s c.s c.a x
       operandCause i s = none → myWait s = .none → flagRoom s ld.f = true → dropMisses s (requester s.cur) = s →
       ∀ k ∈ active s c.g, (∀ j ∈ active s c.g, j < k → (stashFind s.block (ea j)).isSome = true ∧ ea j % 4 = 0 ∧
         Reaches s (ea j) 1 n (loc j)) →
         (stashFind s.block (ea k) = none → Raises i s { causeOf 96 with lane := k, addr := ea k }) ∧
         ((stashFind s.block (ea k)).isSome = true → ea k % 4 ≠ 0 → Raises i s { causeOf 98 with lane := k, addr := ea k })))

/-- (1) R152 to R154: TLD and TST whose shape, window and pages pass the checks are in flight with the rows' pieces at their home, TST with
the window's bytes; a malformed shape raises 27, a misaligned offset 90, one outside the window 94.
(2) R154, R324: a tile that may lock holds its lines and has copied its rows, a TLD's into the window, a TST's to their home; it completes by
unlocking them and releasing its flag; a page walk that finds a leaf enters it into the TLBs, one that finds none tells those who wait. -/
def Obligations.TilesMoveRowsWhole : Prop :=
  (∀ (s : State) (b f off : Nat) (i : Instr) (store : Bool) (x : Int) (loc : Nat → Loc),
     (i, store, x) ∈ ([(.tld b f, false, 0), (.tldLong b f off, false, sgn 24 off), (.tst b f, true, 0),
       (.tstLong b f off, true, sgn 24 off)] : List (Instr × Bool × Int)) →
     let w := (readS s (b + 1)).toNat
     let rb := (fld w 26 5 + 1) * 16
     let count := fld w 20 6 + 1
     let stride := fld w 32 24 * 16
     let loff := fld w 0 20
     let base := (((readS s b).toNat + x) % (2 : Int) ^ 64).toNat
     let shape := fld w 59 5 = 0 ∧ w.testBit 31 = false ∧ count * rb ≤ 16384 ∧ fld w 56 3 < 6 ∧ (store = true → count = 1 ∨ rb ≤ stride)
     s.cur.coach = false → myWait s = .none → flagRoom s f = true →
     (¬shape → Raises i s (causeOf 27)) ∧
     (shape → loff % 16 ≠ 0 → Raises i s { causeOf 90 with addr := loff }) ∧
     (shape → loff % 16 = 0 → winOk s.block loff (count * rb) = false → Raises i s { causeOf 94 with addr := loff }) ∧
     -- rows in one NORMAL page
     (shape → loff % 16 = 0 → winOk s.block loff (count * rb) = true → fld w 56 3 ≠ 5 → base % 16 = 0 →
       base / 65536 = (base + (count - 1) * stride + rb - 1) / 65536 → base < 2 ^ 56 →
       Reaches s base 1 ⟨!store, store, true⟩ (loc base) → (loc base).kind = 0 → (loc base).addr % 65536 = base % 65536 →
       (∀ r, r < count → watchHit s (!store) store (base + r * stride) rb = false) →
       windowBusy s (winFoot s.block loff (count * rb) (!store)) = false → (store = true → winPoisoned s loff (count * rb) = false) →
       Starts i s f (.tile store
           ((List.range count).map fun r =>
             ({ loc base with addr := (loc base).addr + r * stride }, rb, base + r * stride))
           (if store then readWin s loff (count * rb) else []) (fld w 56 3) false)
         (if store then [] else winFoot s.block loff (count * rb) true))) ∧
  (∀ (s : State) (id : Nat) (o : Op) (w : Walk),
     (∀ store ps data scope, tget s.ops id = some o → o.kind = .tile store ps data scope false → tileReady s o ps = true →
       let own := s.owner o.part
       Ends (.tileLockAcquired id) s fun t => t.teams = s.teams ∧
         (∃ o', tget t.ops id = some o' ∧ o'.kind = .tile store ps [] scope true ∧ o'.unit = o.unit) ∧
         (∀ j, j ≠ id → tget t.ops j = tget s.ops j) ∧
         (∀ rows : Loc → List Byte, store = false → (footOffsets o.foot).Nodup →
           (∀ p ∈ ps, ∃ marks, homeMarked s p.1 own p.2.1 = (s, rows p.1, marks)) →
           ∀ (i w : Nat) (b : Byte), (footOffsets o.foot)[i]? = some w → (ps.flatMap fun p => rows p.1)[i]? = some b →
             readLocal1 t 0 o.unit.core own w = b) ∧
         (∀ l n va k line, store = true → ps = [(l, n, va)] → data.length = n → 0 < n → l.addr % 128 + n ≤ 128 →
           Resident s l own k line → tget t.l2 k = some { line.with l data with lock := true })) ∧
     (∀ store ps data scope tm, tget s.ops id = some o → o.kind = .tile store ps data scope true →
       o.unit.coach = false → tget s.teams (teamKey o.unit) = some tm → o.fault = none →
       Ends (.tileComplete id) s fun t => tget t.ops id = none ∧ t.mem = s.mem ∧ t.spad = s.spad ∧
         (∀ l k x, l ∈ tileLines ps → l.kind = 0 → findWay s (homeSlice s l) (l.addr / 128) = some k → tget t.l2 k = some x →
           x.lock = false) ∧
         ∃ tm', tget t.teams (teamKey o.unit) = some tm' ∧
           (o.flag < 12 → (tm'.flag o.flag).count = (tm.flag o.flag).count - 1) ∧
           (12 ≤ o.flag → ∀ k, tget tm.waits k = some (.op id) → tget tm'.waits k = some (.done none))) ∧
     (tget s.walks id = some w → Ends (.pageWalkComplete id) s fun t => tget t.walks id = none ∧ t.teams = s.teams ∧
       ∀ r, clusterWalk { s with walks := tdel s.walks id } w.cluster w.part w.ctx w.va = r →
         (∀ e b, r.2 = some (e, b) → (∃ x ∈ t.ctlb, x = ⟨w.cluster, w.part, w.ctx, w.va, b, e⟩) ∧
           ∀ q ∈ w.reqs, ∃ x ∈ t.tlb, x = ⟨q.2, w.part, w.ctx, w.va, b, e⟩) ∧
         (r.2 = none → t.tlb = r.1.tlb ∧ ∀ q ∈ w.reqs, ∃ m ∈ t.misses, m = ⟨q.1, w.part, w.ctx, w.va⟩)))

/-- R160, R161: the new value of a location under each atomic operation; a packed kind updates its two halves apart. -/
def Obligations.AtomicOperationsGiveTheTableValue : Prop :=
  ∀ (kind old c e : Nat), kind < 2 →
    let w := 8 * kindSize kind
    let f := if kind = 0 then ffF32 else ffF64
    let new := fun op => atomNew op kind 0 old c e
    let x := BitVec.ofNat w old
    let y := BitVec.ofNat w c
    old < 2 ^ w → c < 2 ^ w → e < 2 ^ w →
    new 0 = (x + y).toNat ∧ new 1 = (x - y).toNat ∧
    new 2 = (if x.toInt < y.toInt then old else c) ∧ new 3 = (if x.toInt < y.toInt then c else old) ∧
    new 4 = min old c ∧ new 5 = max old c ∧
    new 6 = (x &&& y).toNat ∧ new 7 = (x ||| y).toNat ∧ new 8 = (x ^^^ y).toNat ∧ new 9 = c ∧
    new 10 = (if old = e then c else old) ∧ new 11 = (if old < c then old + 1 else old) ∧
    new 12 = (if c < old then old - 1 else old) ∧ new 13 = (f.add 0 old c).1 ∧
    new 14 = (f.minmax false old c).1 ∧ new 15 = (f.minmax true old c).1 ∧
    (∀ k g, (k, g) ∈ [(2, ffBF16), (3, ffF16)] → ∀ lo hi lo' hi' : Nat, lo < 65536 → hi < 65536 → lo' < 65536 → hi' < 65536 →
      atomNew 13 k 0 (lo + 65536 * hi) (lo' + 65536 * hi') e = (g.add 0 lo lo').1 + 65536 * (g.add 0 hi hi').1 ∧
      atomNew 13 k 1 (lo + 65536 * hi) (lo' + 65536 * hi') e = (g.add 0 lo lo').1 + 65536 * hi ∧
      atomNew 13 k 2 (lo + 65536 * hi) (lo' + 65536 * hi') e = lo + 65536 * (g.add 0 hi hi').1)

/-- (1) R157 to R164, R182: a global atomic sends one request for each line its lanes name (two for a packed one), after its release, if it has
one, is done and the core's own copies of the sectors have left; until then it waits. ATG is in flight with its destination and counted by its
flag, or waited for; REDG is posted and waited for by nothing. An ATG that was waited for ends when its operation has, an acquire with its
steps, and reports a poisoned lane after its effect.
(2) R159, R160, R162, R182, R203: a scratchpad atomic, its release done, applies its lanes one after the other in ascending order, each to
what the lanes before it left; ATL gives each lane the value it found, and both leave every byte that no lane names as it was. Sleepers on the
bytes may wake. An acquire waits for the team's reads, a release for its steps, and both for operations in flight on the bytes. -/
def Obligations.AtomicsApplyAtHomeAndInScratchpad : Prop :=
  (∀ (s : State) (o : AtOp) (r : RedOp) (loc : Nat → Loc),
     let reach (base v kind g : Nat) : Prop := ∀ k ∈ active s g,
       Reaches s (eaOf s base v 0 k) (kindSize kind) ⟨true, true, true⟩ (loc k) ∧ (loc k).kind = 0 ∧
         watchHit s true true (eaOf s base v 0 k) (kindSize kind) = false
     s.cur.coach = false → s.misses = [] →
     (operandCause (.atg o) s = none →
       (myWait s = .none → flagRoom s o.f = true → reach o.s o.v o.kind o.g →
         (2 ≤ o.mode → (releaseStep s o.scope 0).2 = false → Ends (.atg o) s fun t => t.fate = .stalled ∧ t.teams = s.teams) ∧
         ((2 ≤ o.mode → (releaseStep s o.scope 0).2 = true) → active s o.g ≠ [] →
           Ends (.atg o) s fun t =>
             t.spad = s.spad ∧ (o.mode < 2 → t.mem = s.mem ∧ t.l2 = s.l2) ∧ OtherTeams s t ∧
             SameScalars s.team t.team ∧ SamePreds s.team t.team ∧
             SameLanesBut s.team t.team (o.kind == 1) (logV s o.d) (active s o.g) ∧
             ∃ id x, s.nextOp ≤ id ∧ tget t.ops id = some x ∧ x.unit = s.cur ∧ x.flag = o.f ∧
               (o.f < 12 → (t.team.flag o.f).count = (s.team.flag o.f).count + 1) ∧
               (o.f < 12 → o.mode % 2 = 0 → t.fate = s.fate) ∧
               (12 ≤ o.f ∨ o.mode % 2 = 1 → t.fate = .stalled ∧ myWait t = .op id) ∧
               ∀ k ∈ active s o.g, ∃ j q as half, tget t.reqs j = some q ∧ q.op = id ∧ q.loc = lineLoc (loc k) ∧
                 q.kind = .atomic o.op o.kind half as ∧
                 ∃ a ∈ as, a.lane = k ∧ a.loc = loc k ∧ a.src = readN s (o.kind == 1) o.cr k ∧ a.exp = readN s (o.kind == 1) o.d k)) ∧
       (∀ e, myWait s = .done e → (o.mode % 2 = 1 → readsLeft s = false) →
         let u := setWait (if o.mode % 2 = 1 then acquireStep s o.scope else s) .none
         (e = none → Gives (.atg o) s (u.withFate .completed)) ∧
         (∀ f, e = some f → Gives (.atg o) s
           (raise { causeOf f.code with lane := f.lane, addr := f.addr, after := true, ovf := f.ovf } u)))) ∧
     (operandCause (.redg r) s = none → reach r.s r.v r.kind r.g →
       (2 ≤ r.mode → (releaseStep s r.scope 0).2 = false → Ends (.redg r) s fun t => t.fate = .stalled ∧ t.teams = s.teams) ∧
       ((2 ≤ r.mode → (releaseStep s r.scope 0).2 = true) →
         Ends (.redg r) s fun t =>
           t.spad = s.spad ∧ (r.mode < 2 → t.mem = s.mem ∧ t.l2 = s.l2) ∧ t.teams = s.teams ∧ t.ops = s.ops ∧ t.fate = s.fate ∧
           ∀ k ∈ active s r.g, ∃ j q as half, tget t.reqs j = some q ∧ q.op = 0 ∧ q.loc = lineLoc (loc k) ∧
             q.kind = .reduce r.op r.kind half as (s.myCtx.redmode % 2 == 1) ∧
             ∃ a ∈ as, a.lane = k ∧ a.loc = loc k ∧ a.src = readN s (r.kind == 1) r.cr k))) ∧
  (∀ (s : State) (o : AtOp) (r : RedOp),
     let byte := fun (t : State) p => readLocal1 t 0 s.cur.core (s.owner s.block.part) p
     let window := fun (m : Nat → Byte) a n => leNat ((List.range n).map fun j =>
       match winByte s.block (a + j) with | some p => m p | none => 0)
     -- one update of n bytes at a: the new value v, bytes above it in the window winning
     let put (m m' : Nat → Byte) (a n v : Nat) : Prop :=
       (∀ j p, j < n → winByte s.block (a + j) = some p → (∀ i, j < i → i < n → winByte s.block (a + i) ≠ some p) →
         m' p = BitVec.ofNat 8 (v / 256 ^ j)) ∧
       ∀ p, (∀ j, j < n → winByte s.block (a + j) ≠ some p) → m' p = m p
     let ready (ea : Nat → Nat) (n g : Nat) : Prop :=
       ∀ k ∈ active s g, winOk s.block (ea k) n = true ∧ ea k % n = 0 ∧ winPoisoned s (ea k) n = false
     let free (ea : Nat → Nat) (n g : Nat) : Prop :=
       windowBusy s ((active s g).flatMap fun k => winFoot s.block (ea k) n true) = false
     (operandCause (.atl o) s = none →
       let n := kindSize o.kind
       let ea := eaOf s o.s o.v 0
       let new := fun old k => atomNew o.op o.kind 0 old (readN s (o.kind == 1) o.cr k) (readN s (o.kind == 1) o.d k)
       ready ea n o.g →
       (¬free ea n o.g → Stalls (.atl o) s) ∧
       (free ea n o.g → o.mode % 2 = 1 → readsLeft s = true → Stalls (.atl o) s) ∧
       (free ea n o.g → flagRoom s o.f = true → (o.mode % 2 = 1 → readsLeft s = false) →
         (2 ≤ o.mode → (releaseStep s o.scope 0).2 = true) →
         Ends (.atl o) s fun t =>
           (o.mode < 2 → t.mem = s.mem ∧ t.l1 = s.l1 ∧ t.l2 = s.l2) ∧ OthersWake s t ∧ t.fate = s.fate ∧
           SameScalars s.team t.team ∧ SamePreds s.team t.team ∧
           SameLanesBut s.team t.team (o.kind == 1) (logV s o.d) (active s o.g) ∧
           ∃ m : Nat → Nat → Byte, (∀ p, m 0 p = byte s p) ∧ (∀ p, byte t p = m (active s o.g).length p) ∧
             ∀ j k, (active s o.g)[j]? = some k →
               let old := window (m j) (ea k) n
               put (m j) (m (j + 1)) (ea k) n (new old k) ∧
               (12 ≤ o.f → t.team.laneAt (logV s o.d) k = landed (s.team.inFlight 0 (logV s o.d)) (BitVec.ofNat 32 old) ∧
                 (o.kind = 1 → t.team.laneAt (logV s o.d + 1) k =
                   landed (s.team.inFlight 0 (logV s o.d + 1)) (BitVec.ofNat 32 (old / 2 ^ 32)))) ∧
               (o.f < 12 → s.team.inFlight 0 (logV s o.d) = false →
                 (t.team.waited o.f).laneAt (logV s o.d) k = some (BitVec.ofNat 32 old)))) ∧
     (operandCause (.redl r) s = none →
       let n := kindSize r.kind
       let ea := eaOf s r.s r.v 0
       ready ea n r.g →
       (¬free ea n r.g → Stalls (.redl r) s) ∧
       (free ea n r.g → (2 ≤ r.mode → (releaseStep s r.scope 0).2 = true) →
         Ends (.redl r) s fun t =>
           (r.mode < 2 → t.mem = s.mem ∧ t.l1 = s.l1 ∧ t.l2 = s.l2) ∧ OthersWake s t ∧ SameRegs s.team t.team ∧
           t.ops = s.ops ∧ t.fate = s.fate ∧
           ∃ m : Nat → Nat → Byte, (∀ p, m 0 p = byte s p) ∧ (∀ p, byte t p = m (active s r.g).length p) ∧
             ∀ j k, (active s r.g)[j]? = some k →
               put (m j) (m (j + 1)) (ea k) n
                 (atomNew r.op r.kind 0 (window (m j) (ea k) n) (readN s (r.kind == 1) r.cr k) (readN s (r.kind == 1) r.cr k)))))

/-- (1) R162, R177, R361, R365, R367, R371: a request that has reached its home slice, and whose turn has come, is performed in its resident line:
a load takes the line's bytes, a store changes its bytes of the line and nothing else, an atomic or a reduce-add applies its next lane and is
performed with its last, a reduce-add in deterministic mode is held; for a line that is not there the request waits at its channel.
(2) R155, R367, R372: when a line arrives, its channel asks for it no longer, the line is there, and a load or store that waits for it and
follows nothing is performed.
(3) R69, R143, R144, R163, R164: the last reply of a load or an atomic writes its words and completes it, and a load's reply enters the sectors
it asked for into L1; an acknowledged store or reduce-add leaves the counters, and one that failed records its fault for the next WAIT.
(4) R69, R71, R184, R283: an instruction that waits for its own operation is tried again until that is over, then ends, or raises what the
operation met; an atomic that acquires waits besides for the team's earlier reads.
THE MODEL'S CHOICE, not the spec's: which line of a set of a slice gives way to another, and the places of lines (log 8). -/
def Obligations.HomesServeRequestsAndReply : Prop :=
  (∀ (s : State) (id k : Nat) (r : Req) (l : Line),
     let there := modReq { s with nextStamp := s.nextStamp + 1 } id fun r => { r with stage := .filling, arrive := s.nextStamp }
     let turn : Prop := r.atSlice = true ∧ reqReady s id r = true ∨
       r.stage = .sent ∧ arrivesNext s id r = true ∧ reqReady there id { r with stage := .filling, arrive := s.nextStamp } = true
     let now (t : State) (P : Req → Prop) : Prop := ∃ r', tget t.reqs id = some r' ∧ r'.loc = r.loc ∧ P r'
     let only (t : State) : Prop := t.mem = s.mem ∧ t.teams = s.teams ∧ t.spad = s.spad ∧ t.ops = s.ops ∧
       ∀ j, j ≠ id → tget t.reqs j = tget s.reqs j
     let stage (r' : Req) (n count : Nat) : Prop := r'.stage = if n + 1 < count then .applying (n + 1) else .performed
     tget s.reqs id = some r →
     (turn → Resident s r.loc r.owner k l →
       (∀ m, r.kind = .load m → Ends (.sliceLoad id) s fun t => only t ∧ t.l2 = s.l2 ∧
         now t fun r' => r'.stage = .performed ∧ r'.data = l.data ∧ r'.pois = l.pois &&& BitVec.ofNat 4 m) ∧
       (∀ bs, r.kind = .store bs → Ends (.sliceStore id) s fun t => only t ∧ t.l2 = tset s.l2 k (l.put bs) ∧
         now t fun r' => r'.stage = .performed) ∧
       (∀ op kind half as n a, r.kind = .atomic op kind half as → r.applied = n → as[n]? = some a →
         Ends (.sliceAtomic id) s fun t => only t ∧ t.l2 = tset s.l2 k (l.atom op kind half a).1 ∧
           now t fun r' => r'.kind = .atomic op kind half (as.set n (l.atom op kind half a).2) ∧ stage r' n as.length) ∧
       (∀ op kind half as n a, r.kind = .reduce op kind half as false → r.applied = n → as[n]? = some a →
         Ends (.sliceReduce id) s fun t => only t ∧ t.l2 = tset s.l2 k (l.atom op kind half a).1 ∧ now t fun r' => stage r' n as.length) ∧
       (∀ op kind half as, r.kind = .reduce op kind half as true → heldWays s (homeSlice s r.loc) (r.loc.addr / 128) < 12 →
         Ends (.sliceReduce id) s fun t => only t ∧ (now t fun r' => r'.stage = .performed) ∧
           t.l2 = tset s.l2 k { l with rdp := true } ∧
           redAt t (homeSlice s r.loc) = [⟨r.loc, op, kind, half, as, sourceId s r.unit, r.stamp, r.owner, r.core, 0⟩])) ∧
     (r.atSlice = true ∨ r.stage = .sent ∧ arrivesNext s id r = true → findWay s (homeSlice s r.loc) (r.loc.addr / 128) = none →
       ∀ i ∈ (match r.kind with
         | .load _ => [.sliceLoad id] | .store _ => [.sliceStore id] | .atomic _ _ _ _ => [.sliceAtomic id]
         | .reduce _ _ _ _ _ => [.sliceReduce id] : List Instr),
         Ends i s fun t => only t ∧ t.l2 = s.l2 ∧ (now t fun r' => r'.atSlice = true) ∧
           ∃ c, tget t.channels (channelOf r.loc.addr) = some c ∧ fillKey (homeSlice s r.loc) (r.loc.addr / 128) ∈ c.queue)) ∧
  (∀ (s : State) (id slice line : Nat) (ids : List Nat) (r : Req) (c : Channel),
     tget s.channels (channelOf (line * 128)) = some c → fillKey slice line ∈ c.queue → fillWaiters s slice line = id :: ids →
     tget s.reqs id = some r → homeSlice s r.loc = slice → r.loc.addr / 128 = line →
     (∀ j q, j ∈ ids → tget s.reqs j = some q → q.owner = r.owner) →
     cappedOut s slice line = false → redAt s slice = [] → findWay s slice line = none →
     Ends (.sliceLineFill slice line) s fun t => t.teams = s.teams ∧ t.ops = s.ops ∧ t.spad = s.spad ∧
       (r.isAtomic = false → behindTile s r = false →
         (∀ q ∈ s.reqs, q.1 ≠ id → sameLine q.2.loc r.loc = true → q.2.arrive < r.arrive → mustFollow s r q.2 = false) →
         ∃ r', tget t.reqs id = some r' ∧ r'.stage = .performed) ∧
       (∀ c, tget t.channels (channelOf (line * 128)) = some c → fillKey slice line ∉ c.queue) ∧
       ∃ k l, tget t.l2 k = some l ∧ l.line = line ∧ l.own = r.owner) ∧
  (∀ (s : State) (id : Nat) (r : Req) (o : Op) (tm : Team),
     tget s.reqs id = some r → id < s.nextOp → tget s.teams (teamKey r.unit) = some tm → r.unit.coach = false →
     let after (t : State) (P : Team → Prop) : Prop := ∃ tm', tget t.teams (teamKey r.unit) = some tm' ∧ P tm'
     -- what the operation leaves: its flag falls, or the instruction that waits for it may go on
     let ended (tm' : Team) : Prop :=
       (o.flag < 12 → (tm'.flag o.flag).count = (tm.flag o.flag).count - 1) ∧
       (12 ≤ o.flag → ∀ k, tget tm.waits k = some (.op r.op) → tget tm'.waits k = some (.done none))
     -- lane x of register dst holds v: at once with no flag, for its WAIT with one
     let holds (tm' : Team) (dst x : Nat) (v : Word) : Prop :=
       (12 ≤ o.flag → tm'.laneAt dst x = landed (tm.inFlight 0 dst) v) ∧ (o.flag < 12 → wget tm'.vregs (dst * 1024 + x) = v)
     (tget s.ops r.op = some o → o.unit = r.unit → r.loc.kind = 0 → r.stage = .performed → replyInOrder s r = true → o.fault = none → r.op ≠ 0 →
       (∀ j q, (j, q) ∈ s.reqs → q.op = r.op → j = id) →
       (∀ m dst wide (xs : List LaneLoad), r.kind = .load m → o.kind = .load dst wide xs 0 → (xs.map LaneLoad.lane).Nodup →
         (∀ x ∈ xs, x.lane < 1024 ∧ x.bad = false ∧
           (x.have_ = 2 ^ x.n - 1 ∨ x.have_ = 0 ∧ x.n ≤ 8 ∧ lineLoc x.loc = lineLoc r.loc ∧ x.loc.addr % 128 + x.n ≤ 128)) →
         (∀ j, j < 4 → r.pois.getLsbD j = false) →
         Ends (.loadComplete id) s fun t => tget t.ops r.op = none ∧ tget t.reqs id = none ∧ t.spad = s.spad ∧
           (r.nofill = true → SameMemory s t) ∧
           ((l1Lines s r.core ++ [lineLoc r.loc]).eraseDups.length ≤ 1024 → t.mem = s.mem ∧ t.l2 = s.l2) ∧
           (r.nofill = false → r.loc = lineLoc r.loc → ∀ j, j < 4 → m.testBit j = true →
             (l1Read t r.core r.owner { r.loc with addr := r.loc.addr + 32 * j } 32).1 = 2 ^ 32 - 1) ∧
           after t fun tm' => ended tm' ∧ ∀ x ∈ xs,
             let v := if x.have_ = 2 ^ x.n - 1 then x.val
               else x.val + leNat ((List.range x.n).map fun j => lineByte r.data (x.loc.addr % 128 + j))
             holds tm' dst x.lane (BitVec.ofNat 32 v) ∧ (wide = true → holds tm' (dst + 1) x.lane (BitVec.ofNat 32 (v / 2 ^ 32)))) ∧
       (∀ op kind half new dst wide acq lanes, r.kind = .atomic op kind half new → o.kind = .atomic dst wide lanes acq →
         (lanes.map LaneAtom.lane).Nodup → (∀ x ∈ lanes, x.lane < 1024 ∧ (takeOld half new x).pois = false) →
         Ends (.atomicComplete id) s fun t => tget t.ops r.op = none ∧ tget t.reqs id = none ∧ SameMemory s t ∧
           after t fun tm' => ended tm' ∧ ∀ x ∈ lanes, holds tm' dst x.lane (BitVec.ofNat 32 (takeOld half new x).old) ∧
             (wide = true → holds tm' (dst + 1) x.lane (BitVec.ofNat 32 ((takeOld half new x).old / 2 ^ 32))))) ∧
     (replied r = true →
       ((∃ bs, r.kind = .store bs) ∨ (∃ op kind half as det, r.kind = .reduce op kind half as det) → replyCode s r = none →
         Ends (.storeAck id) s fun t => tget t.reqs id = none ∧ t.teams = s.teams ∧ SameMemory s t) ∧
       (∀ bs c, r.kind = .store bs → replyCode s r = some c → (tm.flag 15).record = none → tm.dlv = none →
         Ends (.storeAck id) s fun t => tget t.reqs id = none ∧ SameMemory s t ∧
           after t fun tm' => (tm'.flag 15).record = some ⟨c, r.va, r.org, 0, false⟩))) ∧
  (∀ (s : State) (b f n v m x y p off : Nat) (o : MOp) (a : AtOp),
     (∀ i ∈ ([.ldg8 o, .ldg8Long o off, .ldg16 o, .ldg16Long o off, .ldg32 o, .ldg32Long o off, .ldg64 o, .ldg64Long o off,
         .ldx o, .ldxLong o off, .tld b f, .tldLong b f off, .tst b f, .tstLong b f off, .tabld n b f, .enq b v f m, .deq b v f m, .grab b v,
         .rel b p, .teth b v p, .unte b v p, .pdatt x y f, .pdevi x y] : List Instr), operandCause i s = none →
       (∀ id, myWait s = .op id → Stalls i s) ∧
       (myWait s = .done none → Gives i s (setWait s .none)) ∧
       (∀ r, myWait s = .done (some r) → Gives i s (raiseFault r (setWait s .none)))) ∧
     (operandCause (.atg a) s = none →
       (∀ id, myWait s = .op id → Stalls (.atg a) s) ∧
       (∀ r, myWait s = .done r → a.mode % 2 = 1 → readsLeft s = true → Stalls (.atg a) s)))

/-- (1) R173 to R175: a channel is configured when its buffer is empty; a flit enters the buffer of an enabled channel; delivery moves
it to the tail of the destination FIFO when that has room, on a core that is saved to the FIFO it has saved, and leaves a full FIFO as it is;
SGET of a receive register takes the oldest flit for the reader first in order. A full buffer, an empty FIFO or a reader before it stalls the
team, which then stands in the order; a disabled channel raises 248, a reserved bit or a core outside the partition 3.
(2) R165 to R172: ENQ sends its lanes' records from the window and DEQ and GRAB ask for records or indices, each as one operation of the
queue, and none of them does anything with no lane present; QLEN writes the backlog and the closed bit; QCLS sets CLOSED, and for a manger NEXT := TOTAL; a queue address off a queue page
raises 224, a malformed descriptor 226, a kind that is not accepted 225.
THE MODEL'S CHOICE, not the spec's: that an EXTX or EXTY of 0 counts as 1 (log 75). -/
def Obligations.ReinsAndQueuesTakeTheirInstructions : Prop :=
  (∀ (s : State) (a n : Nat),
     let v := (readS s a).toNat
     (v / 2 ^ 16 = 0 → v / 2 ^ 10 % 32 = 0 → v % 256 < 192 → coreInPart s s.block.part (v % 256) = true →
       (tget s.team.snd n = none → ChangesTeam (.ssetSndcfg a n) s fun t => { t with sndcfg := tset t.sndcfg n (readS s a) }) ∧
       (∀ f, tget s.team.snd n = some f → Stalls (.ssetSndcfg a n) s)) ∧
     (v / 2 ^ 16 ≠ 0 ∨ v / 2 ^ 10 % 32 ≠ 0 ∨ 192 ≤ v % 256 ∨ coreInPart s s.block.part (v % 256) = false →
       Raises (.ssetSndcfg a n) s (causeOf 3)) ∧
     ((wget s.src.sndcfg n).getLsbD 15 = true →
       (tget s.team.snd n = none →
         ChangesTeam (.ssetSnd a n) s fun t => { t with snd := tset t.snd n (readS s (a + 1) ++ readS s a) }) ∧
       (∀ f, tget s.team.snd n = some f → Stalls (.ssetSnd a n) s)) ∧
     ((wget s.src.sndcfg n).getLsbD 15 = false → Raises (.ssetSnd a n) s (causeOf 248)) ∧
     (∀ k t f c, k < 2 ^ 20 → tget s.teams k = some t → tget t.snd n = some f → (wget t.sndcfg n).toNat % 256 = c →
       let m := (wget t.sndcfg n).toNat / 256 % 4
       (∀ q, (s.core c).phase ≠ .idle → (tget (s.core c).rcv m).getD [] = q →
         (q.length < 16 →
           Ends (.reinFlitDeliver k n) s fun u =>
             tget (u.core c).rcv m = some (q ++ [f]) ∧ tget u.teams k = some { t with snd := tdel t.snd n, blocked := false } ∧
             (∀ j, j ≠ k → tget u.teams j = tget s.teams j) ∧ (∀ j, j ≠ c → u.core j = s.core j) ∧
             { u with teams := s.teams, cores := s.cores } = s) ∧
         (16 ≤ q.length → Gives (.reinFlitDeliver k n) s s)) ∧
       (∀ p x v q, (s.core c).phase = .idle → partOfCore s c = some p → tget s.running p = some x →
         tget s.saved (c * 512 + p * 64 + x) = some v → (tget v.rcv m).getD [] = q → q.length < 16 →
         Ends (.reinFlitDeliver k n) s fun u =>
           tget u.saved (c * 512 + p * 64 + x) = some { v with rcv := tset v.rcv m (q ++ [f]) } ∧
           tget u.teams k = some { t with snd := tdel t.snd n, blocked := false } ∧
           { u with teams := s.teams, saved := s.saved } = s)) ∧
     (∀ c f q ya m, (s.core c).flits[n]? = some (ya, m, f) → ya ≠ c → (s.core ya).phase ≠ .idle →
       (tget (s.core ya).rcv m).getD [] = q → q.length < 16 →
       Ends (.reinFlitDeliver (2 ^ 20 + c) n) s fun u =>
         tget (u.core ya).rcv m = some (q ++ [f]) ∧ (u.core c).flits = (s.core c).flits.eraseIdx n ∧ { u with cores := s.cores } = s) ∧
     (∀ d rs, (tget (s.core s.cur.core).readers n).getD [] = rs →
       (∀ f q, (tget (s.core s.cur.core).rcv n).getD [] = f :: q → (rs = [] ∨ rs.head? = some s.cur) →
         Ends (.sgetRcv d n) s fun u =>
           u.team.scalarAt (physS s.src (d + 1)) = landed (s.team.inFlight 1 (physS s.src (d + 1))) ((f >>> 64).truncate 64) ∧
           (physS s.src d ≠ physS s.src (d + 1) →
             u.team.scalarAt (physS s.src d) = landed (s.team.inFlight 1 (physS s.src d)) (f.truncate 64)) ∧
           (∀ p, p ≠ physS s.src d → p ≠ physS s.src (d + 1) → u.team.scalarAt p = s.team.scalarAt p) ∧
           SameLanes s.team u.team ∧ SamePreds s.team u.team ∧ u.team.rest = s.team.rest ∧
           (∀ j, j ≠ teamKey s.cur → tget u.teams j = tget s.teams j) ∧
           tget (u.core s.cur.core).rcv n = some q ∧ tget (u.core s.cur.core).readers n = some (rs.drop 1) ∧
           { u with teams := s.teams, cores := s.cores } = s) ∧
       ((tget (s.core s.cur.core).rcv n).getD [] = [] ∨ (∃ u us, rs = u :: us ∧ u ≠ s.cur) →
         Ends (.sgetRcv d n) s fun u => u.fate = .stalled ∧
           (tget (u.core s.cur.core).readers n).getD [] = (if s.cur ∈ rs then rs else rs ++ [s.cur]) ∧
           { u with cores := s.cores, fate := s.fate } = s))) ∧
  (∀ (s : State) (b v f m : Nat) (q : Loc) (d : Nat),
     let va := (readS s b).toNat
     let base := (readS s (b + 1)).toNat
     let size := qRec d
     let lanes := activeAll s
     (lanes = [] → myWait s = .none →
       (base % 16 = 0 → QueueAt s va true [0, 2] q d → FallsThrough (.enq b v f m) s) ∧
       (base % 16 = 0 → QueueAt s va true [0, 3] q d → FallsThrough (.deq b v f m) s) ∧
       (operandCause (.grab b v) s = none → QueueAt s va true [1] q d → FallsThrough (.grab b v) s)) ∧
     (lanes ≠ [] → myWait s = .none → flagRoom s f = true → base % 16 = 0 → (∀ k ∈ lanes, winOk s.block (base + k * size) size = true) →
       (QueueAt s va true [0, 2] q d →
         windowBusy s (lanes.flatMap fun k => winFoot s.block (base + k * size) size false) = false →
         (∀ k ∈ lanes, winPoisoned s (base + k * size) size = false) →
         Launches (.enq b v f m) s f
           (.enq q (m == 1) v (physS s.src (b + 2)) (lanes.map fun k => (k, readWin s (base + k * size) size)) s.src.mask none)
           (lanes.flatMap fun k => winFoot s.block (base + k * size) size false)) ∧
       (QueueAt s va true [0, 3] q d →
         windowBusy s (lanes.flatMap fun k => winFoot s.block (base + k * size) size true) = false →
         Launches (.deq b v f m) s f (.deq q (m == 1) v (physS s.src (b + 2)) size s.src.mask (isInput s va) none)
           (lanes.flatMap fun k => winFoot s.block (base + k * size) size true))) ∧
     (lanes ≠ [] → myWait s = .none → operandCause (.grab b v) s = none → QueueAt s va true [1] q d →
       Launches (.grab b v) s 15 (.grab q (physS s.src (b + 2)) (logV s v) s.src.mask (isInput s va) none) []) ∧
     (QueueAt s va false [0, 1, 2, 3] q d → queueBehind s q = false →
       WritesScalar (.qlen b v) s v
         (BitVec.ofNat 64 ((if fld d 200 4 = 1 then fld d 440 40 - fld d 400 40 else fld d 248 17 + fld d 304 32) +
           if d.testBit 204 then 2 ^ 63 else 0))) ∧
     (QueueAt s va true [0, 1, 2, 3] q d → queueBehind s q = false →
       (d.testBit 204 = true → FallsThrough (.qcls b) s) ∧
       (∀ k l, d.testBit 204 = false → Resident s q (s.owner q.part) k l → readDesc s q = (s, d) → d < 2 ^ 512 → q.addr % 64 = 0 →
         Ends (.qcls b) s fun t => t.mem = s.mem ∧ t.teams = s.teams ∧ t.ops = s.ops ∧
           let d' := d + 2 ^ 204
           t.l2 = tset s.l2 k (l.with q (natLe 64 (if fld d 200 4 = 1 then setFld d' 400 40 (fld d 440 40) else d'))))) ∧
     -- the checks of the address and the descriptor
     (∀ i ∈ ([.qlen b v, .qcls b] : List Instr),
       (canonical va = false → Raises i s { causeOf 64 with addr := va }) ∧
       (∀ e, canonical va = true → s.misses = [] → s.tlb.find? (fun x => x.covers s.cur.core s.block.part s.block.ctx va) = some e →
         e.leaf.testBit 3 = true → e.leaf.testBit 4 = true → fld e.leaf 1 2 = 1 →
         (va % 64 ≠ 0 ∨ e.leaf.testBit 5 = false → Raises i s { causeOf 224 with addr := va }) ∧
         (∀ x, va % 64 = 0 → e.leaf.testBit 5 = true → readDesc s (leafLoc s.block.part s.block.ctx e.leaf e.pbits va) = (s, x) →
           3 < fld x 200 4 ∨ fld x 480 32 ≠ 0 → Raises i s { causeOf 226 with addr := va }))))

/-- (1) R167, R169, R172: the home slice answers a whole ENQ, DEQ or GRAB at once from the descriptor d it has: the records accepted, as many as
there is room for, and the status; the records of the ring's head, as many as there are lanes (and, from the input queue, as the block's
budget leaves), or the operation is held while it waits for one; consecutive indices of a manger. An extent of 0 acts as 1 (the model's
choice, log 75).
(2) R169 to R172: the answer's count, status, predicate and coordinates reach the unit's registers, each lane its own, and the operation
completes; the oldest held DEQ is answered when a record is there.
(3) R168, R263: a refill ends once nothing is spilled or the ring is full, else the oldest spilled record goes to the ring tail; a
finished producer lowers PRODS by one and closes the queue at 0. -/
def Obligations.QueuesAnswerRefillAndFinish : Prop :=
  (∀ (s : State) (id : Nat) (o : Op) (q : Loc) (d : Nat),
     tget s.ops id = some o → queueReady s id o q = true → (readDesc s q).2 = d →
     let reply (t : State) (P : Op → Prop) : Prop := ∃ o', tget t.ops id = some o' ∧ o'.unit = o.unit ∧ o'.flag = o.flag ∧ P o'
     let others (t : State) : Prop := (∀ j, j ≠ id → tget t.ops j = tget s.ops j) ∧ t.teams = s.teams ∧ t.spad = s.spad
     (∀ all pa x recs act, o.kind = .enq q all pa x recs act none →
       let room := if qScnt d = 0 then qCap d - qRcnt d + (qSpcap d - qScnt d) else qSpcap d - qScnt d
       let answer (n st : Nat) : Prop := Ends (.enqAtHome id) s fun t => others t ∧
         reply t fun o' => o'.kind = .enq q all pa x [] act (some (n, st))
       (qClosed d = true → answer 0 3) ∧
       (qClosed d = false → all = true → room < recs.length → answer 0 4) ∧
       (qClosed d = false → all = false ∨ recs.length ≤ room → answer (min recs.length room) (if room < recs.length then 4 else 0))) ∧
     (∀ wait pa x rec act inq, o.kind = .deq q wait pa x rec act inq none →
       (∀ y ∈ s.ops, heldDeq q y.2 = false) ∨ queueStirs s q = false →
       let b := budgetCut s o (laneCount act) inq
       let k := min b.1 (qRcnt d)
       let st := if b.2 then 2 else if qClosed d && decide (qRcnt d + qScnt d = k) then 1 else 0
       qKind d ≠ 1 →
       (0 < k ∨ wait = false ∨ st ≠ 0 → Ends (.deqAtHome id) s fun t => others t ∧
         reply t fun o' => o'.kind = .deq q wait pa x rec act inq (some ((takeRecords q (readDesc s q).1 d k).2.2, st)) ∧
           (takeRecords q (readDesc s q).1 d k).2.2.length = k) ∧
       (k = 0 → st = 0 → wait = true → Ends (.deqAtHome id) s fun t => others t ∧ reply t fun o' => o'.kind = o.kind ∧ o'.arrive ≠ 0)) ∧
     (∀ x dst act inq, o.kind = .grab q x dst act inq none →
       let b := budgetCut s o (laneCount act) inq
       let k := min b.1 (qTotal d - qNext d)
       Ends (.grabAtHome id) s fun t => others t ∧ reply t fun o' =>
         o'.kind = .grab q x dst act inq (some ((List.range k).map fun j =>
           let m := qNext d + j
           (m % max (qExtx d) 1, m / max (qExtx d) 1 % max (qExty d) 1, m / (max (qExtx d) 1 * max (qExty d) 1)),
           if b.2 then 2 else if qNext d + k = qTotal d then 1 else 0)))) ∧
  (∀ (s : State) (id : Nat) (o : Op) (tm : Team),
     tget s.ops id = some o → o.unit.coach = false → tget s.teams (teamKey o.unit) = some tm → o.fault = none →
     let after (t : State) (P : Team → Prop) : Prop := ∃ tm', tget t.teams (teamKey o.unit) = some tm' ∧ P tm'
     let told (tm' : Team) (x pa n st : Nat) (act : Lanes) : Prop :=
       wget tm'.sregs x = BitVec.ofNat 64 n ∧ wget tm'.sregs (x + 1) = BitVec.ofNat 64 st ∧
       (∀ k, k < 1024 → (wget tm'.pregs pa).getLsbD k = if act.getLsbD k then (firstLanes act n).getLsbD k else (wget tm.pregs pa).getLsbD k) ∧
       (o.flag < 12 → (tm'.flag o.flag).count = (tm.flag o.flag).count - 1)
     (∀ q all pa x recs act n st, o.kind = .enq q all pa x recs act (some (n, st)) →
       Ends (.queueReply id) s fun t => tget t.ops id = none ∧ SameMemory s t ∧ after t fun tm' => told tm' x pa n st act) ∧
     (∀ q wait pa x rec act inq rs st, o.kind = .deq q wait pa x rec act inq (some (rs, st)) →
       Ends (.queueReply id) s fun t => tget t.ops id = none ∧ t.mem = s.mem ∧ t.l2 = s.l2 ∧ after t fun tm' => told tm' x pa rs.length st act) ∧
     (∀ q x dst act inq cs st, o.kind = .grab q x dst act inq (some (cs, st)) → o.flag = 15 →
       let ls := lanesOf act 1024
       let got (f : Nat × Nat × Nat → Nat) (k : Nat) : Word :=
         match cs[ls.idxOf k]? with
         | some c => BitVec.ofNat 32 (f c)
         | none => -1
       let wrote (tm' : Team) (r : Nat) (f : Nat × Nat × Nat → Nat) : Prop :=
         ∀ k, k < 1024 → tm'.laneAt r k = landedAt (tm.inFlight 0 r) ls k (got f k) (tm.laneAt r k)
       Ends (.queueReply id) s fun t => tget t.ops id = none ∧ SameMemory s t ∧ after t fun tm' =>
         wrote tm' dst (fun c => c.1) ∧ wrote tm' (dst + 1) (fun c => c.2.1) ∧ wrote tm' (dst + 2) (fun c => c.2.2) ∧
         wget tm'.sregs x = BitVec.ofNat 64 cs.length ∧ wget tm'.sregs (x + 1) = BitVec.ofNat 64 st) ∧
     (∀ q wait pa x rec act inq, o.kind = .deq q wait pa x rec act inq none → o.arrive ≠ 0 →
       (∀ y ∈ s.ops, heldDeq q y.2 = true → o.arrive ≤ y.2.arrive) →
       let n := (budgetCut s o (laneCount act) inq).1
       0 < min n (qRcnt (readDesc s q).2) →
       Ends (.deqWaitServed id) s fun t => ∃ o' st, tget t.ops id = some o' ∧
         o'.kind = .deq q wait pa x rec act inq (some ((takeRecords q (readDesc s q).1 (readDesc s q).2 (min n (qRcnt (readDesc s q).2))).2.2, st)))) ∧
  (∀ (s : State) (j k : Nat) (q : Loc) (l : Line) (d : Nat),
     (tget s.refills j = some q → readDesc s q = (s, d) →
       (qScnt d = 0 ∨ qCap d ≤ qRcnt d →
         Ends (.queueRefillMove j) s fun t => tget t.refills j = none ∧ SameMemory s t ∧ t.teams = s.teams ∧ t.ops = s.ops) ∧
       (qScnt d ≠ 0 → qRcnt d < qCap d →
         let x := readCtx s q.part q.ctx (spillAddr d (qShead d)) (qRec d)
         let d' := setFld (setFld (setFld d 248 17 (qRcnt d + 1)) 272 32 ((qShead d + 1) % qSpcap d)) 304 32 (qScnt d - 1)
         let moved := writeDesc (writeRing x.1 q d (qRhead d + qRcnt d) x.2) q d'
         Ends (.queueRefillMove j) s fun t => t.mem = moved.mem ∧ t.l2 = moved.l2 ∧ t.teams = s.teams ∧ t.ops = s.ops)) ∧
     (tget s.prodMsgs j = some q → readDesc { s with prodMsgs := tdel s.prodMsgs j } q = ({ s with prodMsgs := tdel s.prodMsgs j }, d) →
       Resident s q (s.owner q.part) k l → q.addr % 64 = 0 → fld d 200 4 ≠ 1 → 0 < fld d 207 9 →
       Ends (.prodsDecrement j) s fun t => tget t.prodMsgs j = none ∧ t.mem = s.mem ∧ t.teams = s.teams ∧
         t.l2 = tset s.l2 k (l.with q (natLe 64 (setFld (setFld d 207 9 (fld d 207 9 - 1)) 204 1
           (if fld d 207 9 = 1 then 1 else if d.testBit 204 then 1 else 0))))))

/-- (1) R182: at TEAM scope a fence does nothing; a release waits for the team's earlier accesses, at BLOCK scope also for its reduce-adds, and at
CLUSTER or wider sends every dirty byte of the core's L1 home and completes once the core's earlier writes are performed; an acquire waits
for the team's earlier reads and, at CLUSTER or wider, drops the core's clean copies.
(2) R196 to R199: an arrival is a release, which it may wait for, and counts the unit in the barrier's generation; the last one completes it:
GEN rises, arrivals start anew, held changes of the members take effect and those that sleep on it wake; a second arrival waits for the
generation's end; BWAT sleeps on the current generation, passes the one before and raises 193 on any other, and goes on with an acquire
once woken; BMSK sets the block's members, at once or held while a generation is in progress; a block without the barrier raises 192.
(3) R200 to R203: AINI writes a new phase, AARV takes one pending arrival (none with .BYTES) and adds its bytes, the last completing the phase,
and returns the generation; with no arrival pending it waits; AWAT waits for the generation to pass, WADR for the word to meet its
condition, and both end in an acquire; an inconsistent object raises 200, a count out of range 201, a place outside the window 94, a
misaligned one 90. -/
def Obligations.FencesBarriersAndArrivalObjects : Prop :=
  (∀ (s : State) (p m : Nat),
     let clean (t : State) : Prop := ∀ x ∈ t.l1, x.core = s.cur.core → x.valid = false ∧ x.dirty ≠ 0
     FallsThrough (.fence 0 m) s ∧
     (2 ≤ m → accessLeft s 0 = true → Stalls (.fence 1 m) s) ∧
     (2 ≤ m → accessLeft s 0 = false → (∀ r ∈ s.reqs, r.2.unit = s.cur → writeKind r.2.kind = true → unperformed r.2 = false) →
       FallsThrough (.fence 1 m) s) ∧
     (readsLeft s = true → 1 ≤ p → Stalls (.fence p 1) s) ∧
     (readsLeft s = false → FallsThrough (.fence 1 1) s) ∧
     (2 ≤ p →
       let r := releaseStep s p 0
       ((∀ x ∈ s.l1, x.loc = sectorLoc x.loc) → Ends (.fence p 2) s fun t => t.teams = s.teams ∧ t.spad = s.spad ∧
         (∀ x ∈ t.l1, x.core = s.cur.core → x.dirty = 0) ∧
         (r.2 = false → t.fate = .stalled) ∧
         (r.2 = true → t.fate = s.fate ∧
           ∀ r ∈ t.reqs, r.2.core = s.cur.core → writeKind r.2.kind = true → r.2.loc.kind = 0 → unperformed r.2 = false)) ∧
       (readsLeft s = false → Ends (.fence p 1) s fun t => t.teams = s.teams ∧ t.fate = s.fate ∧ t.spad = s.spad ∧ clean t) ∧
       (r.2 = false → Gives (.fence p 3) s (stall r.1)) ∧
       (r.2 = true → Ends (.fence p 3) s fun t => t.teams = s.teams ∧ t.fate = s.fate ∧ t.spad = s.spad ∧ clean t))) ∧
  (∀ (s : State) (d v p m key : Nat),
     let b := barrierAt s key
     let last := ∀ u ∈ b.members, u = s.cur ∨ u ∈ b.arrived ∨ u ∈ b.leaving
     let r := releaseStep s p 0
     let counted (t : State) : Prop :=
       (¬last → (barrierAt t key).gen = b.gen ∧ (barrierAt t key).arrived = b.arrived ++ [s.cur] ∧ (barrierAt t key).members = b.members) ∧
       (last → (barrierAt t key).gen = (b.gen + 1) % 16 ∧ (barrierAt t key).arrived = [] ∧ (barrierAt t key).held = [] ∧
         (barrierAt t key).members = b.held.foldl (fun ms h => (ms.filter fun u => !ofBlock h.1 u) ++ h.2)
           (b.members.filter fun u => !hasUnit u b.leaving)) ∧
       ∀ k, k ≠ key → (barrierAt t k) = barrierAt s k
     let acquired (i : Instr) : Prop :=
       (readsLeft s = true → Ends i s fun t => SameMemory s t ∧ t.fate = .stalled ∧ myWait t = .done none) ∧
       (readsLeft s = false → (p ≤ 1 → FallsThrough i s) ∧
         (2 ≤ p → Ends i s fun t => t.teams = s.teams ∧ t.fate = s.fate ∧ t.spad = s.spad ∧
           ∀ x ∈ t.l1, x.core = s.cur.core → x.valid = false ∧ x.dirty ≠ 0))
     s.cur.coach = false → s.snap = none → (tget s.teams (teamKey s.cur)).isSome = true →
     (barrierKey s.block (blockKey s.cur) p v = none →
       Raises (.barv d v p) s (causeOf 192) ∧ Raises (.bmsk d v p m) s (causeOf 192) ∧
       (myWait s = .none → Raises (.bwat d v p) s (causeOf 192) ∧ Raises (.bsyn v p) s (causeOf 192))) ∧
     (barrierKey s.block (blockKey s.cur) p v = some key →
       -- arrivals
       (s.cur ∈ b.members → s.cur ∉ b.arrived → r.2 = true →
         (Ends (.barv d v p) s fun t => counted t ∧ SameMemory r.1 t ∧ t.fate = s.fate ∧
           t.team.scalarAt (physS s.team d) = landed (s.team.inFlight 1 (physS s.team d)) (BitVec.ofNat 64 b.gen) ∧
           (last → ∀ k tm, tget s.teams k = some tm → k ≠ teamKey s.cur → tm.wait = .barrier key b.gen →
             ∃ tm', tget t.teams k = some tm' ∧ tm'.wait = .done none ∧ tm'.blocked = false)) ∧
         (myWait s = .none → Ends (.bsyn v p) s fun t => counted t ∧
           (¬last → SameMemory r.1 t ∧ t.fate = .stalled ∧ myWait t = .barrier key b.gen) ∧
           (last → b.gen < 16 → t.spad = s.spad ∧ t.fate = s.fate ∧ myWait t = .none))) ∧
       (s.cur ∈ b.members → s.cur ∉ b.arrived → r.2 = false → Gives (.barv d v p) s (stall r.1) ∧
         (myWait s = .none → Gives (.bsyn v p) s (stall r.1))) ∧
       (s.cur ∈ b.members → s.cur ∈ b.arrived → Stalls (.barv d v p) s ∧ (myWait s = .none → Stalls (.bsyn v p) s)) ∧
       (s.cur ∉ b.members → b.members ≠ [] → Raises (.barv d v p) s (causeOf 192) ∧
         (myWait s = .none → Raises (.bsyn v p) s (causeOf 192))) ∧
       -- waits
       (b.members ≠ [] → myWait s = .none → b.gen < 16 →
         let n := (readS s d).toNat % 16
         (n = b.gen → Ends (.bwat d v p) s fun t => SameMemory s t ∧ t.fate = .stalled ∧ myWait t = .barrier key n ∧
           SameRegs s.team t.team ∧ t.barriers = s.barriers) ∧
         (n = (b.gen + 15) % 16 → acquired (.bwat d v p)) ∧
         (n ≠ b.gen → n ≠ (b.gen + 15) % 16 → Raises (.bwat d v p) s (causeOf 193))) ∧
       -- members
       (Ends (.bmsk d v p m) s fun t => SameMemory s t ∧ t.teams = s.teams ∧ t.fate = s.fate ∧ (∀ k, k ≠ key → barrierAt t k = barrierAt s k) ∧
         let mine (w : UnitId) : Prop := w.core = s.cur.core ∧ w.bslot = s.cur.bslot ∧
           (w.coach = false ∧ w.team < s.block.nteams ∧ (readS s d).toNat.testBit w.team = true ∨
             w.coach = true ∧ w.team = 0 ∧ p = 1 ∧ m = 1)
         (b.members = [] ∨ b.arrived = [] ∧ b.leaving = [] →
           (∀ w, w ∈ (barrierAt t key).members ↔ mine w ∨ w ∈ b.members ∧ blockKey w ≠ blockKey s.cur) ∧ (barrierAt t key).held = b.held) ∧
         (b.members ≠ [] → b.arrived ≠ [] ∨ b.leaving ≠ [] →
           (barrierAt t key).members = b.members ∧ (barrierAt t key).arrived = b.arrived ∧
           ∃ ms, (barrierAt t key).held = (b.held.filter fun h => h.1 != blockKey s.cur) ++ [(blockKey s.cur, ms)] ∧ ∀ w, w ∈ ms ↔ mine w))) ∧
     -- a sleeper that has woken
     (∀ i ∈ ([.bwat d v p, .bsyn v p] : List Instr), myWait s = .done none ∨ (∃ k c, myWait s = .barrier k c ∧ (barrierAt s k).gen ≠ c) →
       readsLeft s = false → Ends i s fun t => t.barriers = s.barriers ∧ t.fate = s.fate ∧ t.spad = s.spad ∧ myWait t = .none ∧
         SameRegs s.team t.team ∧ OtherTeams s t)) ∧
  (∀ (s : State) (a v p m : Nat),
     let off := (readS s a).toNat
     let n := (readS s v).toNat
     let x := leNat (readWin s off 16)
     let byte := fun (t : State) j => readLocal1 t 0 s.cur.core (s.owner s.block.part) j
     let others (u t : State) : Prop := t.mem = u.mem ∧ t.l1 = u.l1 ∧ t.l2 = u.l2 ∧ t.fate = s.fate ∧ OtherTeams s t ∧
       ∀ j, (∀ i, i < 16 → winByte s.block (off + i) ≠ some j) → byte t j = byte s j
     let acquired (i : Instr) : Prop :=
       (readsLeft s = true → Ends i s fun t => SameMemory s t ∧ t.fate = .stalled ∧ myWait t = .done none) ∧
       (readsLeft s = false → (p ≤ 1 → FallsThrough i s) ∧
         (2 ≤ p → Ends i s fun t => t.teams = s.teams ∧ t.fate = s.fate ∧ t.spad = s.spad ∧
           ∀ x ∈ t.l1, x.core = s.cur.core → x.valid = false ∧ x.dirty ≠ 0))
     let asleep (i : Instr) (w : Wait) : Prop :=
       Ends i s fun t => SameMemory s t ∧ OtherTeams s t ∧ SameRegs s.team t.team ∧ t.fate = .stalled ∧ myWait t = w
     -- the bytes of the object lie apart
     let apart := ∀ i j, i < 16 → j < 16 → winByte s.block (off + i) = winByte s.block (off + j) → i = j
     s.cur.coach = false → (tget s.teams (teamKey s.cur)).isSome = true →
     (myWait s = .none →
     (winOk s.block off 16 = false → ∀ i ∈ ([.aini a v, .aarv a v p m, .awat a v p] : List Instr), Raises i s { causeOf 94 with addr := off }) ∧
     (winOk s.block off 16 = true → off % 16 ≠ 0 → ∀ i ∈ ([.aini a v, .aarv a v p m, .awat a v p] : List Instr),
       Raises i s { causeOf 90 with addr := off }) ∧
     (winOk s.block off 4 = false → Raises (.wadr a v p m) s { causeOf 94 with addr := off }) ∧
     (winOk s.block off 4 = true → off % 4 ≠ 0 → Raises (.wadr a v p m) s { causeOf 90 with addr := off }) ∧
     (winOk s.block off 16 = true → off % 16 = 0 → windowBusy s (winFoot s.block off 16 true) = false →
       (n = 0 ∨ 2 ^ 20 ≤ n → Raises (.aini a v) s (causeOf 201)) ∧
       (0 < n → n < 2 ^ 20 → apart → Ends (.aini a v) s fun t => others s t ∧ t.teams = s.teams ∧
         leNat (readWin t off 16) = n * 2 ^ 4 + n * 2 ^ 24) ∧
       (winPoisoned s off 16 = false →
         let inb : Int := sgn 40 (fld x 44 40) + (n % 2 ^ 40 : Nat)
         let pend := fld x 4 20
         let pend' := if m = 0 then pend - 1 else pend
         let r := releaseStep s p 0
         (fld x 124 4 ≠ 0 → Raises (.aarv a v p m) s (causeOf 200)) ∧
         (fld x 124 4 = 0 → 2 ^ 39 ≤ inb → Raises (.aarv a v p m) s (causeOf 201)) ∧
         (fld x 124 4 = 0 → inb < 2 ^ 39 →
           (m = 0 → pend = 0 → Stalls (.aarv a v p m) s) ∧
           (m ≠ 0 ∨ 0 < pend → r.2 = false → Gives (.aarv a v p m) s (stall r.1)) ∧
           (m ≠ 0 ∨ 0 < pend → r.2 = true → s.snap = none → apart → Ends (.aarv a v p m) s fun t => others r.1 t ∧
             t.team.scalarAt (physS s.team v) = landed (s.team.inFlight 1 (physS s.team v)) (BitVec.ofNat 64 (fld x 0 4)) ∧
             leNat (readWin t off 16) =
               if pend' = 0 ∧ inb = 0 ∧ fld x 84 40 = 0 then (fld x 0 4 + 1) % 16 + fld x 24 20 * 2 ^ 4 + fld x 24 20 * 2 ^ 24
               else fld x 0 4 + pend' * 2 ^ 4 + fld x 24 20 * 2 ^ 24 + (inb % (2 : Int) ^ 40).toNat * 2 ^ 44 + fld x 84 40 * 2 ^ 84)))) ∧
     (winOk s.block off 16 = true → off % 16 = 0 → windowBusy s (winFoot s.block off 16 false) = false → winPoisoned s off 16 = false →
       (fld x 124 4 ≠ 0 → Raises (.awat a v p) s (causeOf 200)) ∧
       (fld x 124 4 = 0 → fld x 0 4 = n % 16 → asleep (.awat a v p) (.object off (n % 16))) ∧
       (fld x 124 4 = 0 → fld x 0 4 ≠ n % 16 → acquired (.awat a v p))) ∧
     (winOk s.block off 4 = true → off % 4 = 0 → windowBusy s (winFoot s.block off 4 false) = false → winPoisoned s off 4 = false →
       let word := leNat (readWin s off 4)
       let c := n % 2 ^ 32
       let meets := m = 0 ∧ word = c ∨ m = 1 ∧ word ≠ c ∨ m = 2 ∧ c ≤ word ∨ m = 3 ∧ word < c
       m < 4 →
       (¬meets → asleep (.wadr a v p m) (.word off m c)) ∧ (meets → acquired (.wadr a v p m)))) ∧
     -- a sleeper that has woken
     (∀ i ∈ ([.awat a v p, .wadr a v p m] : List Instr), myWait s = .done none → readsLeft s = false →
       Ends i s fun t => t.fate = s.fate ∧ t.spad = s.spad ∧ myWait t = .none ∧ SameRegs s.team t.team ∧ OtherTeams s t))

/-- (1) R204 to R208: ACQ and REL of a guard at home are operations the instruction waits for, ACQ after the team's earlier reads, REL after its
earlier accesses and the writes within the tethered regions; the grant enters the team's guard table; REL takes the guard out of it; TETH
and UNTE change the tethers and their count in the header; a team that holds no such guard raises 210, or 212 for a tether or a shared
hold, a second ACQ or a ninth guard 211, an inconsistent header 209, a region out of range, one too many or one that is not there 213.
(2) R185, R206, R207: at its home slice a free guard is granted to the request that arrives, with the header's tethers, and marked held by
one or by one more; a request that finds it held waits for its turn; a slice with 1 024 waiting requests takes no more; a release takes the
mark away and completes. -/
def Obligations.GuardsAreAskedGrantedAndFreed : Prop :=
  (∀ (s : State) (g v p m k : Nat) (loc : Loc) (line : Line) (h : Nat),
     let va := (readS s g).toNat
     let home := s.owner loc.part
     s.cur.coach = false →
     (va % 128 ≠ 0 → myWait s = .none → Raises (.acq g p m) s { causeOf 208 with addr := va } ∧
       Raises (.rel g p) s { causeOf 208 with addr := va } ∧ Raises (.teth g v p) s { causeOf 208 with addr := va } ∧
       Raises (.unte g v p) s { causeOf 208 with addr := va }) ∧
     (va % 128 = 0 → myWait s = .none → Reaches s va 1 ⟨true, true, true⟩ loc →
       (loc.kind = 1 → p < 5 → Raises (.acq g p m) s (causeOf 35)) ∧
       (loc.kind ≠ 1 ∨ 5 ≤ p → (heldGuard s va ≠ none ∨ 8 ≤ s.team.guards.length) → Raises (.acq g p m) s { causeOf 211 with addr := va }) ∧
       (heldGuard s va = none → Raises (.rel g p) s { causeOf 210 with addr := va } ∧
         Raises (.teth g v p) s { causeOf 212 with addr := va } ∧ Raises (.unte g v p) s { causeOf 212 with addr := va }) ∧
       (∀ e, heldGuard s va = some e → e.mode ≠ 0 →
         Raises (.teth g v p) s { causeOf 212 with addr := va } ∧ Raises (.unte g v p) s { causeOf 212 with addr := va })) ∧
     (va % 128 = 0 → myWait s = .none → Reaches s va 1 ⟨true, true, true⟩ loc → loc.kind = 0 → loc.addr % 128 = 0 → readHead s loc = (s, h) →
       (heldGuard s va = none → s.team.guards.length < 8 →
         (gBad h = true → Raises (.acq g p m) s { causeOf 209 with addr := va }) ∧
         (gBad h = false → readsLeft s = true → Stalls (.acq g p m) s) ∧
         (gBad h = false → readsLeft s = false → Launches (.acq g p m) s 15 (.guardReq va loc m p none) [])) ∧
       (∀ e, heldGuard s va = some e →
         let q := guardRelease (tethers s loc h).1 (tethers s loc h).2
         (gBad h = true → Raises (.rel g p) s { causeOf 209 with addr := va }) ∧
         (gBad h = false → accessLeft q.1 0 = true ∨ q.2 = false → Gives (.rel g p) s (stall q.1)) ∧
         (gBad h = false → accessLeft q.1 0 = false → q.2 = true →
           Ends (.rel g p) s fun t => SameMemory q.1 t ∧ OtherTeams s t ∧ SameRegs s.team t.team ∧
             t.team.guards = s.team.guards.filter (fun x => x.addr != va) ∧ t.fate = .stalled ∧
             ∃ o, tget t.ops q.1.nextOp = some o ∧ o.kind = .guardRel loc e.mode ∧ o.unit = s.cur ∧ myWait t = .op q.1.nextOp) ∧
         (gNteth h = 0 → accessLeft s 0 = false → (∀ o ∈ s.ops, o.2.unit.core = s.cur.core → opWritesIn [] o.2 = false) → q = (s, true))) ∧
       (∀ sc, heldGuard s va = some ⟨va, 0, sc⟩ →
         let base := (readS s v).toNat
         let len := (readS s (v + 1)).toNat
         let ok := 1 ≤ len ∧ len < 2 ^ 32 ∧ base + len ≤ 2 ^ 64 ∧ canonical base = true ∧ canonical (base + len - 1) = true
         let bytes := natLe 8 base ++ natLe 4 len
         (¬ok → Raises (.teth g v p) s { causeOf 213 with addr := va } ∧ Raises (.unte g v p) s { causeOf 213 with addr := va }) ∧
         (ok → gBad h = true → Raises (.teth g v p) s { causeOf 209 with addr := va } ∧ Raises (.unte g v p) s { causeOf 209 with addr := va }) ∧
         (ok → gBad h = false →
           (gNteth h < 8 → Resident s loc home k line →
             Ends (.teth g v p) s fun t => t.mem = s.mem ∧ t.teams = s.teams ∧ t.ops = s.ops ∧
               tget t.l2 k = some ((line.with { loc with addr := loc.addr + 32 + 12 * gNteth h } bytes).with loc
                 (natLe 32 (setFld h 17 7 (gNteth h + 1))))) ∧
           (gNteth h = 8 → gXptr h = 0 → Raises (.teth g v p) s { causeOf 209 with addr := va }) ∧
           (8 ≤ gNteth h → gNteth h < 64 → gXptr h ≠ 0 →
             Gives (.teth g v p) s (writeHead (writeCtx s loc.part loc.ctx (gXptr h + 12 * (gNteth h - 8)) bytes) loc (setFld h 17 7 (gNteth h + 1)))) ∧
           (gNteth h = 64 → Raises (.teth g v p) s { causeOf 213 with addr := va }) ∧
           (∀ ts, tethers s loc h = (s, ts) →
             ((base, len) ∉ ts → Raises (.unte g v p) s { causeOf 213 with addr := va }) ∧
             ∀ j, j < gNteth h → ts[j]? = some (base, len) → (∀ i, i < j → ts[i]? ≠ some (base, len)) →
               Gives (.unte g v p) s (writeHead (writeTether s loc h j (ts.getD (gNteth h - 1) (0, 0))) loc (setFld h 17 7 (gNteth h - 1))))))) ∧
     -- the grant has come
     (∀ id o va' l sc md rs, myWait s = .op id → tget s.ops id = some o → o.kind = .guardReq va' l md sc (some rs) →
       Ends (.acq g p m) s fun t => t.team.guards = s.team.guards ++ [⟨va', md, sc⟩] ∧ t.fate = .completed ∧ tget t.ops id = none ∧
         t.spad = s.spad ∧ SameRegs s.team t.team ∧ OtherTeams s t ∧ (rs = [] → t.mem = s.mem ∧ t.l1 = s.l1 ∧ t.l2 = s.l2))) ∧
  (∀ (s : State) (id k : Nat) (o : Op) (va sc h : Nat) (l : Loc) (line : Line),
     tget s.ops id = some o → l.kind = 0 → l.addr % 128 = 0 → Resident s l (s.owner l.part) k line → readHead s l = (s, h) →
     let granted (t : State) (m : Nat) : Prop :=
       (∃ o', tget t.ops id = some o' ∧ o'.unit = o.unit ∧ o'.kind = .guardReq va l m sc (some ((List.range (gNteth h)).map fun j =>
         (line.get (32 + 12 * j) 8, line.get (40 + 12 * j) 4)))) ∧ t.mem = s.mem ∧ t.teams = s.teams ∧
       tget t.l2 k = some (line.with l (natLe 32 (if m = 0 then setFld h 16 1 1 else setFld h 0 16 (gHold h + 1))))
     ((∀ r ∈ s.remotes, ¬(r.2.owner = 5 ∧ r.2.id = id)) → ∀ m,
       (o.kind = .guardReq va l m sc none → o.arrive = 0 → 0 < s.nextStamp → guardWaiters s (homeSlice s l) < 1024 →
         (∀ y ∈ s.ops, ∀ q m', guardReqOf y.2 = some (q, m', false) → y.2.arrive = 0 ∨ q ≠ l) →
         (gExcl h = false → (m = 0 → gHold h = 0) → gNteth h ≤ 8 → Ends (.guardRequestAtHome id) s fun t => granted t m) ∧
         (gExcl h = true ∨ m = 0 ∧ gHold h ≠ 0 → Ends (.guardRequestAtHome id) s fun t => SameMemory s t ∧ t.teams = s.teams ∧
           ∃ o', tget t.ops id = some o' ∧ o'.kind = o.kind ∧ o'.arrive = s.nextStamp)) ∧
       (o.kind = .guardReq va l m sc none → o.arrive ≠ 0 → gNteth h ≤ 8 → guardFree s l m o.arrive h = true →
         Ends (.guardGrant id) s fun t => granted t m)) ∧
     (∀ m, o.kind = .guardReq va l m sc none → 1024 ≤ guardWaiters s (homeSlice s l) → FallsThrough (.guardRequestAtHome id) s) ∧
     (∀ m tm, o.kind = .guardRel l m → o.flag = 15 → o.fault = none → o.unit.coach = false → tget s.teams (teamKey o.unit) = some tm →
       tm.wait = .op id →
       Ends (.guardReleaseAtHome id) s fun t => tget t.ops id = none ∧ t.mem = s.mem ∧
         tget t.l2 k = some (line.with l (natLe 32 (if m = 0 then setFld h 16 1 0 else setFld h 0 16 (gHold h - 1)))) ∧
         ∃ tm', tget t.teams (teamKey o.unit) = some tm' ∧ tm'.wait = .done none))

/-- (1) R216 to R222: a dray command with no lane of its guard clears the ticket; one whose command block, records and box pass every check
enters flight as a job of the dray with the fewest: the next ticket in S[X + 2] with status 1, its flag counted, the footprint of its local
bytes and of its arrival object held, no memory touched but the OUT count of that object; a malformed operand word raises 256 or 258, an
arrival object or a block outside the window 258.
(2) R223 to R225, R231: a job that meets a bad index, or poison whose portion it has written, stops there with its cause; a job that is over
leaves its status in the ticket, the completion word in the window, and releases its flag with the fault it met; DSTS reads a ticket's status
and DFNC waits for earlier jobs. -/
def Obligations.DrayCommandsFlyStopAndComplete : Prop :=
  (∀ (s : State) (o : DrOp) (off : Nat) (i : Instr) (cmd : Nat) (aoff : Option Nat) (lead src dst d : Nat) (rest mems : List Nat),
     (i, cmd, aoff) ∈ ([(.dcpy o, 0, none), (.dcpyLong o off, 0, some off), (.dgth o, 1, none), (.dgthLong o off, 1, some off),
       (.dsct o, 2, none), (.dsctLong o off, 2, some off), (.dmcs o, 3, none), (.dmcsLong o off, 3, some off), (.dcmt o, 4, none),
       (.dcmtLong o off, 4, some off), (.dfil o, 5, none), (.dfilLong o off, 5, some off), (.dcol o, 6, none),
       (.dcolLong o off, 6, some off)] : List (Instr × Nat × Option Nat)) →
     let comp := readS s (o.x + 1)
     let arg := readS s (o.x + 3)
     let cb := (readS s o.x).toNat
     let c := leNat (readWin s cb 32)
     let box := (List.range 5).map fun k => fld c (128 + 16 * k) 16
     let rank := max (recRank src) (recRank dst)
     let v := (List.range 5).map fun k => if k < rank then (readV s (o.y + k) lead).toNat else 0
     let lo := v.map (· % 65536)
     let hi := v.map (· / 65536)
     let pos := fun (l : List Nat) => (List.range 5).map fun k => if cmd = 4 ∧ k = 1 then lo.getD 1 0 else l.getD k 0
     let count := if cmd = 1 ∨ cmd = 2 then box.getD 1 0 else 0
     let old := if cmd = 3 ∧ arg.getLsbD 36 = true then leNat (readWin s (fld arg.toNat 16 20 + 64) 64) else 2 ^ 512 - 1
     let targets := (List.range mems.length).foldl (fun x m =>
       if mems.getD m 0 ≠ pkgNow s ∧ old / 2 ^ m % 2 = 1 then x + 2 ^ m else x) 0
     let j : Job := ⟨s.cur, s.block.part, s.block.ctx, o.f, s.team.pkt, s.team.slot, lead, d, cmd, s.block.nextTicket % 65535 + 1,
       comp, arg, src, dst, lo, hi, box, readIndices s (arg.toNat % 2 ^ 20) count, aoff, 0, [], 0, none, 0, [], mems, targets, 0, 0, 0,
       false, none, none, false, 0, [], s.nextStamp, [], 0, 0, false⟩
     let foot := (j.extras ++ j.spans).flatMap (spanFoot s.block) ++ (aoff.map (objectFoot s.block)).getD []
     let fresh := s.misses = [] ∧ ∀ m ∈ s.remotes, ¬(m.2.owner = 6 ∧ m.2.req / 2 = requester s.cur)
     s.cur.coach = false → s.snap = none → operandCause i s = none →
     (active s o.g = [] → WritesScalar i s (o.x + 2) 0) ∧
     (active s o.g = lead :: rest →
       (∀ c, fresh → argCause cmd cb comp.toNat arg.toNat = some c → (c = 256 ∨ c = 258) ∧ Raises i s { causeOf c with lane := lead }) ∧
       (fresh → argCause cmd cb comp.toNat arg.toNat = none →
         (∀ a, aoff = some a → winOk s.block a 16 = false → Raises i s { causeOf 258 with lane := lead, addr := a }) ∧
         ((∀ a, aoff = some a → winOk s.block a 16 = true) → winOk s.block cb 32 = false →
           Raises i s { causeOf 258 with lane := lead, addr := cb })) ∧
       (argCause cmd cb comp.toNat arg.toNat = none → winOk s.block cb 32 = true → windowBusy s (winFoot s.block cb 32 false) = false →
         winPoisoned s cb 32 = false → fld c 208 48 = 0 →
         (if cmd = 5 then src = 0 else fetchRecord s 0 (fld c 0 64) = (s, .got src) ∧ recBad src = false) →
         (if cmd = 3 then dst = 0 else fetchRecord s 1 (fld c 64 64) = (s, .got dst) ∧ recBad dst = false) →
         (∀ k, k < 5 → (box.getD k 0 = 0 ↔ rank ≤ k)) →
         (if cmd = 3 then groupMembers s s.block.part s.block.ctx (arg.toNat % 65536) = (s, some mems) else mems = []) →
         (∀ k, k < rank → o.y + k < windowWidth s) →
         (cmd = 5 → fld c 0 64 = 0) → (cmd = 3 → fld c 64 64 = 0) → drayRuleBad cmd src dst lo hi box arg.toNat = false →
         (cmd ≠ 5 → boxInside src (pos lo) box (cmd == 1) = true) → (cmd ≠ 3 → boxInside dst (pos hi) box (cmd == 2) = true) →
         (cmd ≠ 5 → baseOutside s.block src = false) → (cmd ≠ 3 → baseOutside s.block dst = false) →
         (∀ p ∈ j.extras ++ j.spans, spanOk s.block p.1 = true) →
         windowBusy s (winFoot s.block (arg.toNat % 2 ^ 20) (4 * count) false) = false →
         (cmd = 3 → windowBusy s (winFoot s.block (fld arg.toNat 16 20) 256 false) = false) →
         (∀ a, aoff = some a → winOk s.block a 16 = true) → pickDray s s.cur.core = some d → flagRoom s o.f = true →
         Ends i s fun t =>
           tget t.jobs s.nextOp = some { j with
             foot := foot
             out := if aoff = none then 0 else j.outBytes
             inLeft := if aoff = none then 0 else j.inBytes } ∧ t.nextOp = s.nextOp + 1 ∧
           (aoff = none ∨ j.outBytes = 0 → t.spad = s.spad) ∧
           t.mem = s.mem ∧ t.acc = s.acc ∧ t.wbuf = s.wbuf ∧ t.l1 = s.l1 ∧ t.l2 = s.l2 ∧ OtherTeams s t ∧ SameLanes s.team t.team ∧ SamePreds s.team t.team ∧ t.fate = s.fate ∧
           t.team.scalarAt (physS s.team (o.x + 2)) = landed (s.team.inFlight 1 (physS s.team (o.x + 2))) (BitVec.ofNat 64 j.ticket) ∧
           (∀ p, p ≠ physS s.team (o.x + 2) → t.team.scalarAt p = s.team.scalarAt p) ∧
           (o.f < 12 → (t.team.flag o.f).count = (s.team.flag o.f).count + 1) ∧
           tget t.block.tickets j.ticket = some (BitVec.ofNat 64 1)))) ∧
  (∀ (s : State),
     (∀ (id : Nat) (j : Job) (tm : Team) (b : Block),
       tget s.jobs id = some j → tget s.teams (teamKey j.unit) = some tm → j.unit.coach = false →
       tget s.blocks (blockKey j.unit) = some b →
       let stopped (at_ code addr : Nat) : Prop :=
         Ends (.drayJobStop id) s fun t => t.mem = s.mem ∧ t.spad = s.spad ∧ t.teams = s.teams ∧ ∃ j', tget t.jobs id = some j' ∧
           j'.ovr = true ∧ j'.stop = some (at_, code, ⟨code, addr, originWord j.ticket j.pkt j.slot, j.leader, false⟩)
       (∀ code addr, j.ovr = false → jobHeld s j = false → j.pois = none → j.next = .index code addr → stopped j.offset code addr) ∧
       (∀ at_ code addr stop, j.ovr = false → jobHeld s j = false → j.pois = some (at_, code, addr, stop) → code ≠ 68 →
         stop ≤ j.pos ∨ j.cmd = 3 → stopped at_ code addr) ∧
       (j.ovr = true → Ends (.drayJobComplete id) s fun t => tget t.jobs id = none ∧ t.mem = s.mem ∧ t.l1 = s.l1 ∧ t.l2 = s.l2 ∧
         ((tget b.tickets j.ticket).isSome = true → ∃ b', tget t.blocks (blockKey j.unit) = some b' ∧ tget b'.tickets j.ticket = some
           (match j.stop with
             | none => jobStatus (if j.refs + j.negs = 0 then 3 else 5) 0 0 (j.flagsNow s id)
             | some (at_, cause, _) => jobStatus 4 at_ cause (j.flagsNow s id))) ∧
         (j.aoff = none → j.comp.getLsbD 20 = false → t.spad = s.spad) ∧
         ∃ tm', tget t.teams (teamKey j.unit) = some tm' ∧
           (j.flag < 12 → (tm'.flag j.flag).count = (tm.flag j.flag).count - 1) ∧
           (∀ x, j.flag < 12 → j.stop = some x → tm.dlv = none → (tm.flag j.flag).record = none → (tm'.flag j.flag).record = some x.2.2) ∧
           (j.aoff = none → j.stop = none → (tm'.flag j.flag).record = (tm.flag j.flag).record)) ∧
       (j.ovr = true → j.aoff = none → j.comp.getLsbD 20 = true →
         let c := j.comp.toNat % 2 ^ 20
         (∀ i k, i < 4 → k < 4 → winByte b (c + i) = winByte b (c + k) → i = k) →
         Ends (.drayJobComplete id) s fun t =>
           ∀ k o, k < 4 → winByte b (c + k) = some o →
             readLocal1 t 0 j.unit.core (s.owner j.part) o = BitVec.ofNat 8 (j.comp.toNat / 2 ^ 32 / 256 ^ k))) ∧
     (∀ x, WritesScalar (.dsts x) s (x + 2) ((tget s.block.tickets ((readS s (x + 3)).toNat % 65536)).getD 0)) ∧
     (∀ y, (∃ q ∈ s.jobs, if y = 0 then q.2.unit = s.cur else blockKey q.2.unit = blockKey s.cur) → Stalls (.dfnc y) s) ∧
     (∀ y, (∀ q ∈ s.jobs, ¬(if y = 0 then q.2.unit = s.cur else blockKey q.2.unit = blockKey s.cur)) → FallsThrough (.dfnc y) s))

/-- (1) R209 to R213: PDNEW registers a paddock, attached and zero here or as it stands in its backing area; PDATT maps one that is here and
otherwise asks for its bytes; PDDET ends the attachment; PDEVI destroys or starts an eviction; PDQRY reads its state; a descriptor out of
form raises 220, a name that is registered 218, one that is not 217, a full registry 223, no room 219, a paddock that is not here 216, one
that is attached or not attached 221, one in use 222; a paddock that lies under another context is waited for.
(2) R209, R213, R399: an eviction that may leave writes the paddock's bytes home and ends, and one that leaves for an attach elsewhere
begins to fill there; a fill brings the bytes and ends the attach that waits for them, with poison as a trap that maps nothing where no flag
is named; with a page that fails both end in its cause. -/
def Obligations.PaddocksUseTheRegistryAndMove : Prop :=
  (∀ (s : State) (x y f : Nat) (p : Paddock),
     let name := (readS s x).toNat
     let here := padFind s s.block.part name
     let d := (readS s (x + 1)).toNat
     let size := (d % 256 + 1) * 4096
     let back := d / 4096 * 4096
     let wrote (t : State) (k v : Nat) : Prop :=
       t.team.scalarAt (physS s.team (x + k)) = landed (s.team.inFlight 1 (physS s.team (x + k))) (BitVec.ofNat 64 v)
     s.cur.coach = false → s.snap = none →
     (name = 0 ∨ fld d 9 3 ≠ 0 ∨ canonical back = false → Raises (.pdnew x y) s (causeOf 220)) ∧
     (here ≠ none → name ≠ 0 → fld d 9 3 = 0 → canonical back = true → Raises (.pdnew x y) s (causeOf 218)) ∧
     ((∀ a ∈ s.block.attached, a.name ≠ name) → Raises (.pddet x) s (causeOf 221)) ∧
     (here = none → (myWait s = .none → flagRoom s f = true → Raises (.pdatt x y f) s (causeOf 217) ∧ Raises (.pdevi x y) s (causeOf 217)) ∧
       (Ends (.pdqry x) s fun t => OnlyTeam s t ∧ wrote t 2 0 ∧ wrote t 3 0)) ∧
     (here = none → name ≠ 0 → fld d 9 3 = 0 → canonical back = true →
       let count := (s.paddocks.filter fun q => q.part == s.block.part).length
       (4096 ≤ count → Raises (.pdnew x y) s (causeOf 223)) ∧
       (∀ pages c a, count < 4096 → padPages s.block.part s.block.ctx s (pageStarts back size) = (s, pages, some (c, a)) →
         Raises (.pdnew x y) s { causeOf c with addr := a }) ∧
       (∀ pages, count < 4096 → padPages s.block.part s.block.ctx s (pageStarts back size) = (s, pages, none) →
         (y = 1 → Ends (.pdnew x y) s fun t => SameMemory s t ∧ OtherTeams s t ∧ wrote t 3 0 ∧
           t.paddocks = s.paddocks ++ [⟨name, s.block.part, s.block.ctx, size, back, fld d 8 1 == 1, 1, 0, 0, 0, s.nextStamp, [], s.block.ctx⟩]) ∧
         (y = 0 → padOffset s (blockKey s.cur) size = none ∨ spadFit s s.cur.core size = none ∨ 16 ≤ padTable s s.cur.core →
           Raises (.pdnew x y) s (causeOf 219)) ∧
         (∀ off c, y = 0 → padOffset s (blockKey s.cur) size = some off → spadFit s s.cur.core size = some c → padTable s s.cur.core < 16 →
           (tget s.blocks (blockKey s.cur)).isSome = true →
           Ends (.pdnew x y) s fun t => t.mem = s.mem ∧ t.l1 = s.l1 ∧ t.l2 = s.l2 ∧ OtherTeams s t ∧ wrote t 2 off ∧ wrote t 3 0 ∧
             (∃ q, padFind t s.block.part name = some q ∧ q.state = 2 ∧ q.core = s.cur.core ∧ q.coreOff = c ∧ q.acnt = 1) ∧
             (⟨name, off, size, c⟩ ∈ t.block.attached) ∧
             (∀ k, k < size → readLocal1 t 0 s.cur.core (s.owner s.block.part) (c + k) = 0)))) ∧
     (here = some p → padAway s p = true → Stalls (.pdqry x) s ∧ (myWait s = .none → Stalls (.pdevi x y) s ∧
       (flagRoom s f = true → (∀ a ∈ s.block.attached, a.name ≠ name) → Stalls (.pdatt x y f) s))) ∧
     (here = some p → myWait s = .none → flagRoom s f = true → (∃ a ∈ s.block.attached, a.name = name) → Raises (.pdatt x y f) s (causeOf 221)) ∧
     (here = some p → padAway s p = false → (tget s.blocks (blockKey s.cur)).isSome = true →
       -- attach
       (myWait s = .none → flagRoom s f = true → (∀ a ∈ s.block.attached, a.name ≠ name) →
         (padOffset s (blockKey s.cur) p.size = none →
           Raises (.pdatt x y f) s (causeOf (if padHere s p s.cur.core = true ∨ y = 1 then 219 else 216))) ∧
         (∀ off, padOffset s (blockKey s.cur) p.size = some off →
           (padHere s p s.cur.core = true → Ends (.pdatt x y f) s fun t => SameMemory s t ∧ OtherTeams s t ∧
             ⟨name, off, p.size, p.coreOff⟩ ∈ t.block.attached ∧
             wget t.team.sregs (physS s.team (x + 2)) = BitVec.ofNat 64 off ∧
             wget t.team.sregs (physS s.team (x + 2) + 1) = BitVec.ofNat 64 p.size ∧
             (12 ≤ f → wrote t 2 off) ∧ (t.team.flag f).count = (s.team.flag f).count ∧ t.fate = s.fate ∧
             ∃ q, padFind t s.block.part name = some q ∧ q.acnt = p.acnt + 1) ∧
           (padHere s p s.cur.core = false → y = 0 → Raises (.pdatt x y f) s (causeOf 216)) ∧
           (padHere s p s.cur.core = false → y = 1 →
             let asked (t : State) (c n : Nat) : Prop := SameMemory s t ∧ OtherTeams s t ∧
               ∃ o, tget t.ops s.nextOp = some o ∧ o.unit = s.cur ∧ o.flag = f ∧ o.kind = .attach name (physS s.team (x + 2)) off c n
             (p.state = 3 → p.core = s.cur.core → Ends (.pdatt x y f) s fun t => asked t 0 0 ∧
               ∃ q, padFind t s.block.part name = some q ∧ q.state = 3 ∧ q.waiting = p.waiting ++ [s.nextOp]) ∧
             (p.state ≠ 3 ∨ p.core ≠ s.cur.core → spadFit s s.cur.core p.size = none ∨ 16 ≤ padTable s s.cur.core →
               Raises (.pdatt x y f) s (causeOf 219)) ∧
             (∀ c, p.waiting = [] → spadFit s s.cur.core p.size = some c → padTable s s.cur.core < 16 →
               (p.state = 1 → Ends (.pdatt x y f) s fun t => asked t 0 0 ∧
                 ∃ q, padFind t s.block.part name = some q ∧ q.state = 3 ∧ q.core = s.cur.core ∧ q.coreOff = c ∧ q.waiting = [s.nextOp]) ∧
               (p.state = 2 → Ends (.pdatt x y f) s fun t => asked t c p.size ∧
                 ∃ q, padFind t s.block.part name = some q ∧ q.state = 2 ∧ q.core = p.core ∧ q.waiting = [s.nextOp]))))) ∧
       -- detach
       (∀ a, s.block.attached.find? (fun a => a.name == name) = some a →
         (coreTouches s s.cur.core [⟨0, a.coreOff, a.size, true⟩] = true → Stalls (.pddet x) s) ∧
         (coreTouches s s.cur.core [⟨0, a.coreOff, a.size, true⟩] = false →
           Ends (.pddet x) s fun t => SameMemory s t ∧ t.teams = s.teams ∧ t.fate = s.fate ∧
             t.block.attached = s.block.attached.filter (fun a => a.name != name) ∧
             ∃ q, padFind t s.block.part name = some q ∧ q.acnt = p.acnt - 1)) ∧
       -- evict
       (myWait s = .none →
         (padFree s p = false ∨ p.state = 3 ∨ padAwaited s p = true → Raises (.pdevi x y) s (causeOf 222)) ∧
         (padFree s p = true → p.state ≠ 3 → padAwaited s p = false →
           (y = 1 → padLeaving s p = true → Stalls (.pdevi x y) s) ∧
           (y = 1 → padLeaving s p = false → Ends (.pdevi x y) s fun t => SameMemory s t ∧ t.teams = s.teams ∧ t.fate = s.fate ∧
             ∀ q, q ∈ t.paddocks ↔ q ∈ s.paddocks ∧ ¬(q.part = s.block.part ∧ q.name = name)) ∧
           (y = 0 → p.state = 1 → FallsThrough (.pdevi x y) s) ∧
           (y = 0 → p.state = 2 → Ends (.pdevi x y) s fun t => SameMemory s t ∧ OtherTeams s t ∧ t.fate = .stalled ∧
             (∃ o, tget t.ops s.nextOp = some o ∧ o.kind = .evict name ∧ o.unit = s.cur) ∧ myWait t = .op s.nextOp))) ∧
       -- query
       (Ends (.pdqry x) s fun t => OnlyTeam s t ∧ wrote t 3 p.back ∧
         wrote t 2 (p.state + (if p.pin then 2 ^ 2 else 0) + (if 2 ≤ p.state then p.core % 256 * 2 ^ 16 else 0) +
           (p.size / 4096 - 1) * 2 ^ 24 + p.acnt % 256 * 2 ^ 32)))) ∧
  (∀ (s : State) (id : Nat) (o : Op) (p : Paddock) (tm : Team),
     padFirst s id = some (o, p) → o.unit.coach = false → tget s.teams (teamKey o.unit) = some tm → p.waiting = [id] →
     o.fault = none → tget s.ops id = some o →
     let ended (t : State) (r : Option FaultRec) : Prop := tget t.ops id = none ∧
       ∃ tm', tget t.teams (teamKey o.unit) = some tm' ∧ (12 ≤ o.flag → tm.wait = .op id → tm'.wait = .done r) ∧
         (o.flag < 12 → (tm'.flag o.flag).count = (tm.flag o.flag).count - 1 ∧
           ∀ x, r = some x → tm.dlv = none → (tm.flag o.flag).record = none →
             ∃ y, (tm'.flag o.flag).record = some y ∧ y.code = x.code ∧ y.addr = x.addr)
     (∀ pages, padCanLeave s id = true → backPages s p = (s, pages, none) →
       (o.kind = .evict p.name → Ends (.paddockWritebackComplete id) s fun t => ended t none ∧
         ∃ q, padFind t p.part p.name = some q ∧ q.state = 1 ∧ q.waiting = []) ∧
       (∀ x off c n, o.kind = .attach p.name x off c n → Ends (.paddockWritebackComplete id) s fun t => t.teams = s.teams ∧
         ∃ q, padFind t p.part p.name = some q ∧ q.state = 3 ∧ q.core = o.unit.core ∧ q.coreOff = c ∧ q.waiting = [id])) ∧
     (∀ pages c a, padCanLeave s id = true → backPages s p = (s, pages, some (c, a)) →
       Ends (.paddockWritebackComplete id) s fun t => ended t (some ⟨c, a, 0, 0, false⟩) ∧ SameMemory s t ∧
         ∃ q, padFind t p.part p.name = some q ∧ q.state = p.state ∧ q.waiting = []) ∧
     (∀ pages x off c n, o.kind = .attach p.name x off c n → p.state = 3 → backPages s p = (s, pages, none) →
       let bad := (padIn s p p.core p.coreOff pages).2
       (bad = none → Ends (.paddockFillComplete id) s fun t => ended t none ∧
         (∃ q, padFind t p.part p.name = some q ∧ q.state = 2 ∧ q.acnt = 1) ∧
         ∀ b, tget s.blocks (blockKey o.unit) = some b → ∃ b', tget t.blocks (blockKey o.unit) = some b' ∧
           b'.attached = b.attached ++ [⟨p.name, off, p.size, p.coreOff⟩]) ∧
       (∀ a, bad = some a → 12 ≤ o.flag → Ends (.paddockFillComplete id) s fun t => ended t (some ⟨68, a, 0, 0, false⟩) ∧
         t.blocks = s.blocks ∧ ∃ q, padFind t p.part p.name = some q ∧ q.state = 2 ∧ q.acnt = 0) ∧
       (∀ a, bad = some a → o.flag < 12 → Ends (.paddockFillComplete id) s fun t => ended t (some ⟨68, a, 0, 0, false⟩) ∧
         ∃ q, padFind t p.part p.name = some q ∧ q.state = 2 ∧ q.acnt = 1)) ∧
     (∀ pages c a x off c' n, o.kind = .attach p.name x off c' n → p.state = 3 → backPages s p = (s, pages, some (c, a)) →
       Ends (.paddockFillComplete id) s fun t => ended t (some ⟨c, a, 0, 0, false⟩) ∧ SameMemory s t ∧
         ∃ q, padFind t p.part p.name = some q ∧ q.state = 1))

/-- R84, R197, R236, R239, R251 to R254: MNOP does nothing; MSETZ writes a region register (REL adds the base to the old one), and z31
waits for every MLDW and clears the pool; MLOP sets a counter; MBRA and a counted MBRA.LOOP transfer inside the stream, 43 outside;
MWAT waits for its flags, delivers the first fault they recorded, then may store and clear MFL; MBAR arrives, waits for its latest arrival, or does
both; MEND waits for the array and its flags, departs from its barriers and ends the coachman. -/
def Obligations.CoachmanControlsItsStream : Prop :=
  ∀ (s : State) (r : RegZ) (n m o k off : Nat), s.cur.coach = true →
    let c := s.coach
    let target : Int := (c.pkt : Int) + (BitVec.ofNat 16 o).toInt
    let changes (i : Instr) (f : Fate) (u : Coach) : Prop := Ends i s fun t =>
      { t with coaches := s.coaches, fate := s.fate } = s ∧ t.fate = f ∧ t.coach = u ∧
      ∀ j, j ≠ blockKey s.cur → tget t.coaches j = tget s.coaches j
    let old := (wget c.z r.z).toNat
    let base := if r.rel = 1 then (old / 2 ^ 10 % 2 ^ 14 + r.base) % 2 ^ 14 else r.base
    let z := BitVec.ofNat 48 (r.stride + base * 2 ^ 10 + r.nc * 2 ^ 25 + r.nr * 2 ^ 31 + r.fmt * 2 ^ 37 + r.space * 2 ^ 41)
    let left := (tget c.l n).getD 0
    FallsThrough .mnop s ∧
    (r.z ≠ 31 → changes (.msetz r) s.fate { c with z := tset c.z r.z z }) ∧
    (r.z = 31 → (∀ x ∈ s.mops, x.2.core = s.cur.core → x.2.bslot = s.cur.bslot → ∀ a b f, x.2.op ≠ .mldw a b f) →
      changes (.msetz r) s.fate { c with z := tset c.z 31 z, pool := 0 }) ∧
    (r.z = 31 → (∃ x ∈ s.mops, x.2.core = s.cur.core ∧ x.2.bslot = s.cur.bslot ∧ ∃ a b f, x.2.op = .mldw a b f) → Stalls (.msetz r) s) ∧
    changes (.mlop n k) s.fate { c with l := tset c.l n k } ∧
    (∀ p : Nat, target = p → p < s.block.kern.mpkt →
      changes (.mbra o) .transferred { c with pkt := p, slot := 0, ibuf := none } ∧
      (2 ≤ left → changes (.mbraLoop n o) .transferred { c with l := tset c.l n (left - 1), pkt := p, slot := 0, ibuf := none })) ∧
    (target < 0 ∨ (s.block.kern.mpkt : Int) ≤ target → Raises (.mbra o) s (causeOf 43) ∧ (2 ≤ left → Raises (.mbraLoop n o) s (causeOf 43))) ∧
    (left = 1 → changes (.mbraLoop n o) s.fate { c with l := tset c.l n 0 }) ∧
    (left = 0 → FallsThrough (.mbraLoop n o) s) ∧
    -- MWAT
    ((∃ f, f < 8 ∧ k / 2 ^ f % 2 = 1 ∧ (c.flag f).count ≠ 0) → ∀ st, Stalls (.mwat k st off) s) ∧
    ((∀ f, f < 8 → k / 2 ^ f % 2 = 1 → (c.flag f).count = 0) →
      (∀ f x, f < 8 → k / 2 ^ f % 2 = 1 → (c.flag f).record = some x →
        (∀ g, g < f → k / 2 ^ g % 2 = 1 → (c.flag g).record = none) → ∀ st,
        Raises (.mwat k st off) s
          { causeOf x.code with lane := x.lane, flag := f, wd := true, ovf := x.ovf, addr := x.addr, info := x.info }) ∧
      (∀ x st, (∀ f, f < 8 → k / 2 ^ f % 2 = 1 → (c.flag f).record = none) → (c.flag 15).record = some x →
        Raises (.mwat k st off) s
          { causeOf x.code with lane := x.lane, flag := 15, wd := true, ovf := x.ovf, addr := x.addr, info := x.info }) ∧
      ((∀ f, f < 8 → k / 2 ^ f % 2 = 1 → (c.flag f).record = none) → (c.flag 15).record = none →
        FallsThrough (.mwat k false off) s ∧
        (winOk s.block (off * 32) 4 = false → Raises (.mwat k true off) s (causeOf 274)) ∧
        (winOk s.block (off * 32) 4 = true → windowBusy s (winFoot s.block (off * 32) 4 true) = false →
          (∀ i j, i < 4 → j < 4 → winByte s.block (off * 32 + i) = winByte s.block (off * 32 + j) → i = j) →
          Ends (.mwat k true off) s fun t => t.mem = s.mem ∧ t.acc = s.acc ∧ t.wbuf = s.wbuf ∧ t.teams = s.teams ∧ t.fate = s.fate ∧
            leNat (readWin t (off * 32) 4) = c.mfl.toNat ∧ t.coach = { c with mfl := 0 }))) ∧
    -- MBAR
    (let key := 2 ^ 40 + blockKey s.cur * 16 + n
     let b := barrierAt s key
     let last := ∀ u ∈ b.members, u = s.cur ∨ u ∈ b.arrived ∨ u ∈ b.leaving
     (∀ g, c.wait = .barrier key g → (b.gen = g → Stalls (.mbar n m) s) ∧
       (b.gen ≠ g → changes (.mbar n m) s.fate { c with wait := .none })) ∧
     (c.wait = .done none → changes (.mbar n m) s.fate { c with wait := .none }) ∧
     (c.wait = .none →
      (s.cur ∉ b.members → Raises (.mbar n m) s (causeOf 192)) ∧
      (s.cur ∈ b.members → m < 2 → s.cur ∉ b.arrived →
        (¬last → Ends (.mbar n m) s fun t => SameMemory s t ∧ t.teams = s.teams ∧ (barrierAt t key).arrived = b.arrived ++ [s.cur] ∧
          (barrierAt t key).gen = b.gen ∧ tget t.coach.arrived n = some b.gen ∧
          (m = 0 → t.fate = .stalled ∧ t.coach.wait = .barrier key b.gen) ∧ (m = 1 → t.fate = s.fate ∧ t.coach.wait = .none)) ∧
        (last → Ends (.mbar n m) s fun t => SameMemory s t ∧ (barrierAt t key).arrived = [] ∧
          (barrierAt t key).gen = (b.gen + 1) % 16 ∧ t.fate = s.fate ∧ t.coach.wait = .none ∧ tget t.coach.arrived n = none)) ∧
      (s.cur ∈ b.members → m < 2 → s.cur ∈ b.arrived → Stalls (.mbar n m) s) ∧
      (s.cur ∈ b.members → (∀ g, tget c.arrived n = some g → changes (.mbar n 2) .stalled { c with wait := .barrier key g }) ∧
        (tget c.arrived n = none → FallsThrough (.mbar n 2) s)))) ∧
    -- MEND
    ((∃ x ∈ s.mops, x.2.core = s.cur.core ∧ x.2.bslot = s.cur.bslot) → Stalls .mend s) ∧
    ((∀ x ∈ s.mops, ¬(x.2.core = s.cur.core ∧ x.2.bslot = s.cur.bslot)) → (∀ f, f < 8 → c.flag f = ⟨0, none⟩) →
      (c.flag 15).record = none →
      (Ends .mend s fun t => t.fate = .ended ∧ t.coach.status = .exited ∧ t.coach.wait = .none ∧ t.coach.z = c.z ∧ SameMemory s t ∧
        ∀ j x, tget t.barriers j = some x → s.cur ∈ x.members → s.cur ∈ x.leaving) ∧
      (s.barriers = [] → (∀ x ∈ s.cores, ∀ y ∈ x.2.readers, s.cur ∉ y.2) →
        changes .mend .ended { c with status := .exited, wait := .none, ibuf := none }))

/-- (1) R235 to R250: a matrix instruction whose operands pass its checks enters the array with the region registers as they stand and counts
in its flag, and nothing else changes, with fault 92 where the group table or mask it captured carries poison; a format pair or a drain that is
not in the table raises 272, a region of the wrong kind 273, one outside its space 274. MLDW waits in place for the array.
(2) R233 to R252: an instruction of the array is dispatched in its coachman's turn, once nothing before it on its bytes is in flight: MZER clears its region, an
INT8 product of one block adds the exact dot products, a plain drain of FP32 copies finite elements; a clash leaves everything as it is.
It completes by releasing its flag with the fault it met. -/
def Obligations.MatrixInstructionsRunOnTheArray : Prop :=
  (∀ (s : State) (o : MmaOp) (mf zd zs sh tbl z zt gm k : Nat) (sat act zero : Bool), s.cur.coach = true →
     let c := s.coach
     let b := s.block
     let reg := fun n => (wget c.z n).toNat
     let entersWith (i : Instr) (op : CoachOp) (f : Nat) (table : List Byte) (bad : Bool) : Prop := Ends i s fun t =>
       (∃ x, tget t.mops s.nextOp = some x ∧ x.core = s.cur.core ∧ x.bslot = s.cur.bslot ∧ x.op = op ∧ x.z = c.z ∧ x.mf = f ∧
         x.stage = 0 ∧ x.table = table ∧ x.fault = (if bad then some ⟨92, 0, originWord 0 c.pkt c.slot, 0, false⟩ else none) ∧ x.pkt = c.pkt ∧ x.slot = c.slot) ∧
       (∀ j, j ≠ s.nextOp → tget t.mops j = tget s.mops j) ∧
       { t with mops := s.mops, nextOp := s.nextOp, nextStamp := s.nextStamp, coaches := s.coaches, fate := s.fate } = s ∧
       (f < 8 → (t.coach.flag f).count = (c.flag f).count + 1) ∧ t.coach.z = c.z ∧ t.coach.pkt = c.pkt ∧ t.coach.l = c.l ∧
       ((∀ x y w, op ≠ .mldw x y w) → t.fate = s.fate ∧ t.coach.wait = c.wait) ∧
       ((∃ x y w, op = .mldw x y w) → t.fate = .stalled ∧ t.coach.wait = .op s.nextOp)
     let enters (i : Instr) (op : CoachOp) (f : Nat) (table : List Byte) : Prop := entersWith i op f table false
     let room := mf < 8 → (c.flag mf).count < 63
     let legal := o.fmt ≤ 9 ∧ (o.fmt = 7 → o.acc = 3) ∧ (o.fmt = 3 → o.acc = 2) ∧ (o.fmt ≠ 7 → o.fmt ≠ 3 → o.acc < 2)
     -- MZER
     (rSpace (reg z) ≠ 1 → Raises (.mzer z) s (causeOf 273)) ∧
     (rSpace (reg z) = 1 → b.accSize < rBase (reg z) + rExtent (reg z) → Raises (.mzer z) s (causeOf 274)) ∧
     (rSpace (reg z) = 1 → rBase (reg z) + rExtent (reg z) ≤ b.accSize → enters (.mzer z) (.mzer z) 15 []) ∧
     -- products
     (¬legal → Raises (.mma o mf false 0 k) s (causeOf 272) ∧ Raises (.mmag o mf zt gm k) s (causeOf 272) ∧
       Raises (.mmat o mf zt k) s (causeOf 272)) ∧
     (∀ a, legal → o.mode = 0 → b.hsize = 0 ∨ 2 ^ b.hsize ≤ a → Raises (.mma o mf true a k) s (causeOf 278)) ∧
     (legal → o.mode = 0 → rSpace (reg o.zd) ≠ 1 ∨ rFmt (reg o.zd) ≠ o.acc ∨ rSpace (reg o.za) ≠ 0 ∨ rFmt (reg o.za) ≠ o.fmt ∨
         rRows (reg o.za) ≠ rRows (reg o.zd) ∨ rCols (reg o.za) < k + 1 ∨ rSpace (reg o.zb) ≠ 2 ∨ rCols (reg o.zb) ≠ rCols (reg o.zd) ∨
         rRows (reg o.zb) < k + 1 →
       Raises (.mma o mf false 0 k) s (causeOf 273)) ∧
     (room → (∀ a shr, productCause s o [0] k 1 (if shr then some a else none) none = none →
         enters (.mma o mf shr a k) (.mma o mf shr a k) mf []) ∧
       (o.mode = 0 → productCause s o [0, 3] k (gm + 1) none none = none → rRows (reg o.zd) % (gm + 1) = 0 →
         enters (.mmag o mf zt gm k) (.mmag o mf zt gm k) mf []) ∧
       (o.mode = 3 → productCause s o [0, 3] k (gm + 1) none (some (zt, 2 * (gm + 1))) = none →
         windowBusy s (rFoot b (reg zt) false) = false →
         let t := regionBytes s (reg zt) (2 * (gm + 1))
         let rows := ((List.range (gm + 1)).map fun j => leNat ((t.drop (2 * j)).take 2)).sum
         (rows ≤ rRows (reg o.zd) →
           entersWith (.mmag o mf zt gm k) (.mmag o mf zt gm k) mf t (regionPoisoned s (reg zt) (2 * (gm + 1)))) ∧
         (rRows (reg o.zd) < rows → Raises (.mmag o mf zt gm k) s (causeOf 276))) ∧
       (o.mode = 0 → o.acc < 2 → productCause s o [0, 1, 2] k 1 none none = none → enters (.mmat o mf zt k) (.mmat o mf zt k) mf []) ∧
       (o.mode = 1 ∨ o.mode = 2 → o.acc < 2 →
         let n := if o.mode = 2 then 16 + 8 * rRows (reg o.zd) else 16
         productCause s o [0, 1, 2] k 1 none (some (zt, n)) = none → windowBusy s (rFoot b (reg zt) false) = false →
         let t := regionBytes s (reg zt) n
         (leNat ((t.drop 8).take 8) = 0 → entersWith (.mmat o mf zt k) (.mmat o mf zt k) mf t (regionPoisoned s (reg zt) n)) ∧
         (leNat ((t.drop 8).take 8) ≠ 0 → Raises (.mmat o mf zt k) s (causeOf 43)))) ∧
     -- MDRN
     (rSpace (reg zd) ≠ 0 ∨ rSpace (reg zs) ≠ 1 → Raises (.mdrn zd zs sh sat act tbl mf zero) s (causeOf 273)) ∧
     (rSpace (reg zd) = 0 → rSpace (reg zs) = 1 →
       let i : Instr := .mdrn zd zs sh sat act tbl mf zero
       let ok := drainOk (rFmt (reg zs)) (rFmt (reg zd)) sh act sat
       let alike := rRows (reg zd) = rRows (reg zs) ∧ rCols (reg zd) = rCols (reg zs)
       let inside := rBounds b (reg zd) = true ∧ rBase (reg zs) + rExtent (reg zs) ≤ b.accSize
       (ok = false → Raises i s (causeOf 272)) ∧
       (ok = true → ¬alike → Raises i s (causeOf 273)) ∧
       (ok = true → alike → ¬inside → Raises i s (causeOf 274)) ∧
       (ok = true → alike → inside →
         (act = true → tableNow s s.cur.core tbl = none → Raises i s (causeOf 279)) ∧
         (room → act = false → enters i (.mdrn zd zs sh sat act tbl mf zero) mf []) ∧
         (∀ t, room → act = true → tableNow s s.cur.core tbl = some t → enters i (.mdrn zd zs sh sat act tbl mf zero) mf (bankBytes t)))) ∧
     -- MLDW
     (c.wait = .none → (∀ e, mldwCause s zd zs = some e → Raises (.mldw zd zs mf) s (causeOf e)) ∧
       (mldwCause s zd zs = none → room → enters (.mldw zd zs mf) (.mldw zd zs mf) mf [])) ∧
     (∀ id, c.wait = .op id → Stalls (.mldw zd zs mf) s) ∧
     (c.wait = .done none → Ends (.mldw zd zs mf) s fun t => t.fate = s.fate ∧ t.coach = { c with wait := .none } ∧ t.mops = s.mops)) ∧
  (∀ (s : State) (id key : Nat) (m : MFly) (b : Block), key = m.core * 16 + m.bslot →
     tget s.mops id = some m → tget s.blocks key = some b →
     let reg := fun n => (wget m.z n).toNat
     let ran (t : State) : Prop := t.mem = s.mem ∧ t.teams = s.teams ∧ t.l1 = s.l1 ∧ t.wbuf = s.wbuf ∧ t.blocks = s.blocks ∧
       (t.core m.core).turn = m.bslot ∧ ∃ m', tget t.mops id = some m' ∧ m'.stage = 1 ∧ m'.op = m.op
     (m.stage = 0 → scoreboardBusy s m.core m.foot m.stamp = true ∨ myTurn s m = false → FallsThrough (.arrayDispatch id) s) ∧
     (mopReady s m = true → myTurn s m = true →
       (∀ n, m.op = .mzer n → rSpace (reg n) = 1 → Ends (.arrayDispatch id) s fun t => ran t ∧ t.spad = s.spad ∧
         (∀ r c, r < rRows (reg n) → c < rCols (reg n) → elemCode t m.core b (reg n) r c = 0) ∧
         ∀ off, (∀ r c j, r < rRows (reg n) → c < rCols (reg n) → j < elemBytes (reg n) → off ≠ elemOff (reg n) r c + j) →
           readSpace t m.core b 1 off 1 = readSpace s m.core b 1 off 1) ∧
       (∀ o mf k, m.op = .mma o mf false 0 k → o.fmt = 3 → o.acc = 2 → k < 32 → rSpace (reg o.zd) = 1 → rFmt (reg o.zd) = 2 →
         rStep (reg o.zd) = 0 → Ends (.arrayDispatch id) s fun t => ran t ∧ t.spad = s.spad ∧
         ∀ r c ys sc, r < rRows (reg o.zd) → c < rCols (reg o.zd) →
           readGroup s m.core b (reg o.zb) (poolOf b (reg 31)) 0 c = (some ys, sc) →
           (elemCode t m.core b (reg o.zd) r c : Int) =
             (sgn 32 (elemCode s m.core b (reg o.zd) r c) +
               ((List.range (k + 1)).map fun j => sgn 8 (elemCode s m.core b (reg o.za) r j) * sgn 8 (ys.getD j 0)).sum) % 2 ^ 32) ∧
       (∀ d a tbl mf zero, m.op = .mdrn d a 0 false false tbl mf zero → m.table = [] → rSpace (reg d) = 0 → rSpace (reg a) = 1 →
         rFmt (reg d) = 6 → rFmt (reg a) = 0 → rStep (reg d) = 0 → rStep (reg a) = 0 → rRows (reg d) = rRows (reg a) → rCols (reg d) = rCols (reg a) →
         rBase (reg d) + rExtent (reg d) ≤ b.winSize → b.winOff + b.winSize ≤ 2 ^ 20 → b.accOff + b.accSize ≤ 2 ^ 18 →
         rBase (reg a) + rExtent (reg a) ≤ b.accSize →
         Ends (.arrayDispatch id) s fun t => ran t ∧ ∀ r c, r < rRows (reg a) → c < rCols (reg a) →
           let x := elemCode s m.core b (reg a) r c
           (ffF32.isNaN x = false → ffF32.isInf x = false → elemCode t m.core b (reg d) r c = x) ∧
           (ffF32.isNaN x = true → elemCode t m.core b (reg d) r c = ffF32.quiet x) ∧
           elemCode t m.core b (reg a) r c = if zero then 0 else x)) ∧
     (∀ c, m.stage = 1 → tget s.coaches key = some c → Ends (.matrixOpComplete id) s fun t =>
       tget t.mops id = none ∧ SameMemory s t ∧ t.teams = s.teams ∧ (∀ j, j ≠ id → tget t.mops j = tget s.mops j) ∧
       ∃ c', tget t.coaches key = some c' ∧
         (m.mf < 8 → (c'.flag m.mf).count = (c.flag m.mf).count - 1) ∧ c'.z = c.z ∧ c'.pkt = c.pkt ∧
         (∀ x, m.mf < 8 → m.fault = some x → (c.flag m.mf).record = none → (c'.flag m.mf).record = some x) ∧
         (m.mf < 8 → m.fault = none → (c'.flag m.mf).record = (c.flag m.mf).record)))

/-- R239 to R242: a group that MLDW compresses reads back as the codes it was made of, whatever part of it overflows into chunks of the
pool. -/
def Obligations.CompressedGroupsReadBack : Prop :=
  ∀ (s : State) (core : Nat) (b : Block) (z g n sc : Nat) (pool : Option (Nat × Nat)) (map : BitVec 1024) (xs : List Nat)
      (r : State × BitVec 1024),
    rSpace z = 2 → rFmt z ≤ 9 → 2 ≤ rStep z → xs.length = 32 → (∀ x ∈ xs, x < 16 ^ rNibs z) → sc < 256 →
    (∀ p, pool = some p → p.2 < 1024 ∧ (slotAt z g n + rStep z * 4 ≤ p.1 ∨ p.1 + 64 * p.2 ≤ slotAt z g n)) →
    putGroup s core b z pool map g n sc xs = some r →
    readGroup r.1 core b z pool g n = (some xs, sc) ∧ r.1.mem = s.mem ∧ r.1.spad = s.spad ∧ r.1.acc = s.acc ∧ r.1.teams = s.teams

/-- R264 to R266, R304, R305: a core that evaluates goes for the eligible stage of greatest differential, of equals the first by graph
slot and stage: a capped one is claimed first, a solo block is launched on it, the paddocks in its way gone first, a hitch is asked of the
cluster's arbiter; with none eligible the core rests. A claim that would pass the cap is refused and the stage excluded; one that finds no
room is returned.
THE MODEL'S CHOICE, not the spec's: where in the stores and the scratchpad a block is placed (log 41). -/
def Obligations.DistributorsLaunchTheGreatestDifferential : Prop :=
  ∀ (s : State) (core gs n : Nat) (g : Graph) (st : Stage) (p : Place) (gone : List Paddock),
    tget s.graphs gs = some g → g.stages[n]? = some st →
    let key := core * 16 + p.slot
    let launched (t : State) (count : Nat) : Prop :=
      (∃ b, tget t.blocks key = some b ∧ b.part = g.part ∧ b.ctx = g.ctx ∧ b.gslot = gs ∧ b.stage = n ∧ b.serial = g.serial ∧
        b.w = st.w ∧ b.lanes = st.lanes ∧ b.nreg = st.nreg ∧ b.nteams = st.teams ∧ b.winOff = p.win ∧ b.winSize = st.win * 256 ∧
        b.accOff = p.acc ∧ b.wbOff = p.wb ∧ b.budget = st.budget ∧ b.aside = false ∧ b.retired = false) ∧
      (∀ k, k < st.teams → ∃ at_, tget t.teams (key * 64 + k) = some (Team.init st.lanes (p.parts.getD k 0) at_) ∧ (gone = [] → at_ = s.nextStamp)) ∧
      (∃ g', tget t.graphs gs = some g' ∧ g'.serial = (g.serial + 1) % 2 ^ 32 ∧ (tget g'.inflight n).getD 0 = (tget g.inflight n).getD 0 + count) ∧
      (gone = [] → (∀ k, (∀ j, j < st.teams → k ≠ key * 64 + j) → tget t.teams k = tget s.teams k) ∧
        t.mem = s.mem ∧ t.l2 = s.l2 ∧ t.spad = s.spad)
    let asked (t : State) (sticky : Bool) : Prop :=
      (tget t.hitches (core / 8)).getD [] = (tget s.hitches (core / 8)).getD [] ++ [⟨core, gs, n, [], [], [], sticky, 0⟩]
    (evalReady s core = false → FallsThrough (.distributorEvaluate core) s) ∧
    (evalReady s core = true → candidates s core = [] →
      Ends (.distributorEvaluate core) s fun t => { t with cores := s.cores, raslogs := s.raslogs } = s ∧
        t.core core = { s.core core with evalDue := false, idle := true } ∧
        ∀ c, c ≠ core → t.core c = s.core c) ∧
    (∀ pre post d, evalReady s core = true → candidates s core = pre ++ (gs, n, d) :: post → (∀ x ∈ pre, x.2.2 < d) → (∀ x ∈ post, x.2.2 ≤ d) →
      (st.maxb ≠ 0 → Ends (.distributorEvaluate core) s fun t =>
        { t with cores := s.cores, raslogs := s.raslogs } = s ∧ t.core core = { s.core core with claim := some (gs, n), evalDue := false, idle := false }) ∧
      (st.maxb = 0 → st.hitch ≠ 0 → Ends (.distributorEvaluate core) s fun t =>
        { t with cores := s.cores, raslogs := s.raslogs, hitches := s.hitches } = s ∧ (t.core core).evalDue = false ∧
        asked t (decide (4 ≤ (tget s.cancels (core / 8 * 4096 + gs * 256 + n)).getD 0))) ∧
      (st.maxb = 0 → st.hitch = 0 → roomFor s core g st = some (p, gone) → Ends (.distributorEvaluate core) s fun t => launched t 1)) ∧
    ((s.core core).claim = some (gs, n) →
      let k := 2 ^ st.hitch
      let have_ := (tget g.inflight n).getD 0
      (st.maxb < have_ + k → Ends (.maxbClaimReply core) s fun t => { t with cores := s.cores } = s ∧
        t.core core = { s.core core with claim := none, evalDue := true, excluded := (s.core core).excluded ++ [(gs, n)] }) ∧
      (have_ + k ≤ st.maxb → st.hitch ≠ 0 → Ends (.maxbClaimReply core) s fun t =>
        { t with cores := s.cores, graphs := s.graphs, hitches := s.hitches } = s ∧ (t.core core).claim = none ∧
        (∃ g', tget t.graphs gs = some g' ∧ (tget g'.inflight n).getD 0 = have_ + k) ∧
        asked t (decide (4 ≤ (tget s.cancels (core / 8 * 4096 + gs * 256 + n)).getD 0))) ∧
      (have_ + k ≤ st.maxb → st.hitch = 0 → (s.core core).phase = .run → stickyOk s core g st = true → roomFor s core g st = some (p, gone) →
        Ends (.maxbClaimReply core) s fun t => launched t 1 ∧ (t.core core).claim = none) ∧
      (have_ + k ≤ st.maxb → st.hitch = 0 → roomFor s core g st = none ∨ stickyOk s core g st = false ∨ (s.core core).phase ≠ .run → Ends (.maxbClaimReply core) s fun t =>
        (t.core core).claim = none ∧ (t.core core).evalDue = true ∧ t.blocks = s.blocks ∧ t.teams = s.teams ∧
        ∃ g', tget t.graphs gs = some g' ∧ (tget g'.inflight n).getD 0 = have_))

/-- R307, R308: the request at the head of a cluster's arbiter asks the lowest cores that qualify, its own among them; each grants with a
block set aside or denies (a sticky one waits for room); when all have answered all launch their blocks under a new hitch, the teams with the
stamp of that moment, or, with one denial, all return them and the requesting core evaluates again. -/
def Obligations.HitchesReserveThenCommitOrCancel : Prop :=
  ∀ (s : State) (cl core gs n : Nat) (h : HitchReq) (hs : List HitchReq) (g : Graph) (st : Stage),
    tget s.hitches cl = some (h :: hs) → h.gslot = gs → h.stage = n → tget s.graphs gs = some g → g.stages[n]? = some st → 0 < st.hitch →
    let others := ((hitchCores s cl g st).filter fun c => c != h.core).take (2 ^ st.hitch - 1)
    let become (t : State) (h' : HitchReq) : Prop := tget t.hitches cl = some (h' :: hs)
    let key := cl * 4096 + gs * 256 + n
    let ended (t : State) : Prop := tget t.hitches cl = some hs ∧ (tget t.cancels key).getD 0 = (tget s.cancels key).getD 0 + 1 ∧
      (t.core h.core).evalDue = true ∧
      ∃ g', tget t.graphs gs = some g' ∧
        (tget g'.inflight n).getD 0 = (tget g.inflight n).getD 0 - if st.maxb = 0 then 0 else 2 ^ st.hitch
    (h.phase = 0 → h.core ∈ hitchCores s cl g st → others.length + 1 = 2 ^ st.hitch →
      Ends (.hitchRequest cl) s fun t => { t with hitches := s.hitches } = s ∧
        become t { h with members := insertNat h.core others, phase := 1 }) ∧
    (h.phase = 0 → h.core ∉ hitchCores s cl g st ∨ others.length + 1 < 2 ^ st.hitch →
      Ends (.hitchRequest cl) s fun t => ended t ∧ t.blocks = s.blocks ∧ t.teams = s.teams) ∧
    (h.phase = 1 → core ∈ h.members → core ∉ h.grants → core ∉ h.denies →
      (∀ p gone, qualifies s core g st = true → roomFor s core g st = some (p, gone) →
        Ends (.hitchReserve cl core) s fun t => become t { h with grants := h.grants ++ [core] } ∧
          (gone = [] → t.mem = s.mem ∧ t.l2 = s.l2) ∧ t.graphs = s.graphs ∧ ∃ b, tget t.blocks (core * 16 + p.slot) = some b ∧ b.aside = true ∧ b.gslot = gs ∧ b.stage = n ∧
            b.hsize = st.hitch) ∧
      (qualifies s core g st = false → h.sticky = false ∨ (s.core core).phase ≠ .run →
        Ends (.hitchReserve cl core) s fun t => { t with hitches := s.hitches, raslogs := s.raslogs } = s ∧ become t { h with denies := h.denies ++ [core] }) ∧
      (qualifies s core g st = false → h.sticky = true → (s.core core).phase = .run → FallsThrough (.hitchReserve cl core) s)) ∧
    (h.phase = 1 → h.members.length ≤ h.grants.length + h.denies.length →
      (h.denies ≠ [] → Ends (.hitchResponse cl) s fun t => { t with hitches := s.hitches } = s ∧ become t { h with phase := 3 }) ∧
      (h.denies = [] → Ends (.hitchResponse cl) s fun t => become t { h with phase := 2 } ∧
        t.nextHitch = s.nextHitch + 1 ∧ tget t.cancels key = none ∧ t.teams = s.teams ∧
        (h.members.Nodup → h.members.length ≤ 8 → ∀ i c k b, h.members[i]? = some c → asideBlock s c = some (k, b) →
          tget t.blocks k = some { b with hitch := s.nextHitch, hrank := i }))) ∧
    (h.phase = 2 → core ∈ h.members → ∀ k b, asideBlock s core = some (k, b) → tget s.blocks k = some b → b.gslot = gs → b.stage = n →
      Ends (.hitchCommit cl core) s fun t => t.mem = s.mem ∧ t.spad = s.spad ∧
        (∃ b', tget t.blocks k = some b' ∧ b'.aside = false ∧ b'.serial = g.serial ∧ b'.hitch = b.hitch) ∧
        (∃ g', tget t.graphs gs = some g' ∧ g'.serial = (g.serial + 1) % 2 ^ 32 ∧
          (tget g'.inflight b.stage).getD 0 = (tget g.inflight b.stage).getD 0 + if st.maxb = 0 then 1 else 0) ∧
        (∀ j tm, tget s.teams j = some tm → j / 64 = k → tget t.teams j = some { tm with stamp := s.nextStamp }) ∧
        ((∀ c ∈ h.members, c = core) → tget t.hitches cl = some hs) ∧
        ((∃ c ∈ h.members, c ≠ core) → become t { h with members := h.members.filter (· != core) })) ∧
    (h.phase = 3 → core ∈ h.members →
      (∀ k b, core ∈ h.grants → asideBlock s core = some (k, b) → Ends (.hitchCancel cl core) s fun t =>
        tget t.blocks k = none ∧ (∀ x ∈ t.teams, x.1 / 64 ≠ k) ∧ t.mem = s.mem ∧
        ((∃ c ∈ h.members, c ≠ core) → become t { h with members := h.members.filter (· != core) })) ∧
      (core ∉ h.grants → (∀ c ∈ h.members, c = core) → Ends (.hitchCancel cl core) s fun t => ended t ∧ t.blocks = s.blocks))

/-- (1) R29, R32, R33: a block whose units have ended and whose accesses to its own space are done retires: its units and slot go, and its
completion event is left to the core, which enqueues it or, while the event queue is full, keeps it in its buffer.
(2) R33, R34, R339: the event of a core whose writes stand enters the event queue, or is discarded where that is closed, and its block is in
flight no more; a full queue keeps it in the buffer, and a slot it kept frees. A launch with every stage finished and nothing left leaves its
slot and every core's digests, after dirty bytes of its context have been sent home from the cores it ran on. -/
def Obligations.BlocksRetireAndLaunchesEnd : Prop :=
  (∀ (s : State) (key : Nat) (b : Block) (g : Graph), tget s.blocks key = some b → canRetire s key b = true →
     tget s.graphs b.gslot = some g →
     let gone (t : State) : Prop := tget t.blocks key = none ∧ tget t.coaches key = none ∧ (∀ x ∈ t.teams, x.1 / 64 ≠ key) ∧
       (b.attached = [] → (∀ x ∈ s.teams, x.1 / 64 ≠ key → x ∈ t.teams) ∧ t.spad = s.spad) ∧ (t.core (key / 16)).evalDue = true
     (g.evq = 0 → Ends (.blockRetire key) s fun t => gone t ∧ ∃ g', tget t.graphs b.gslot = some g' ∧
       (tget g'.inflight b.stage).getD 0 = (tget g.inflight b.stage).getD 0 - 1) ∧
     (g.evq ≠ 0 → bufferUse s (key / 16) b.part b.ctx < 16 → Ends (.blockRetire key) s fun t => gone t ∧ t.graphs = s.graphs ∧
       (t.core (key / 16)).events = (s.core (key / 16)).events ++
         [⟨b.part, b.ctx, b.gslot, b.stage, key, false, false, g.evq, eventWord key b⟩]) ∧
     (g.evq ≠ 0 → 16 ≤ bufferUse s (key / 16) b.part b.ctx → Ends (.blockRetire key) s fun t => t.graphs = s.graphs ∧
       (∃ b', tget t.blocks key = some b' ∧ b'.retired = true) ∧ (∀ x ∈ t.teams, x.1 / 64 ≠ key) ∧
       (t.core (key / 16)).events = (s.core (key / 16)).events ++
         [⟨b.part, b.ctx, b.gslot, b.stage, key, true, false, g.evq, eventWord key b⟩])) ∧
  (∀ (s u v : State) (core gs n st : Nat) (e : HeldEvent) (l : Loc) (g : Graph),
     ((s.core core).events = [e] → stillCounted s e.blockKey = false →
       let r := coreReleased s core (if eventForwarded s e.part e.evq then 5 else 4)
       (r.2 = false → Gives (.completionEventEnqueue core) s r.1) ∧
       (r.2 = true → ctxLoc r.1 e.part e.ctx e.evq = (u, some l) → l.kind = 0 → enqueue u l true [natLe 16 e.event.toNat] = (v, n, st) →
         (v.core core).events = [e] →
         (n = 1 ∨ st = 3 → tget v.graphs e.gslot = some g →
           Ends (.completionEventEnqueue core) s fun t => (t.core core).events = [] ∧ t.mem = v.mem ∧ t.l2 = v.l2 ∧ t.teams = v.teams ∧
             (e.slotHeld = true → tget t.blocks e.blockKey = none) ∧
             ∃ g', tget t.graphs e.gslot = some g' ∧ (tget g'.inflight e.stage).getD 0 = (tget g.inflight e.stage).getD 0 - 1) ∧
         (n ≠ 1 → st ≠ 3 → e.buffered = false → bufferUse v core e.part e.ctx < 16 →
           Ends (.completionEventEnqueue core) s fun t => (t.core core).events = [{ e with buffered := true, slotHeld := false }] ∧
             (e.slotHeld = true → tget t.blocks e.blockKey = none) ∧ t.mem = v.mem ∧ t.l2 = v.l2 ∧ t.teams = v.teams ∧ t.graphs = v.graphs) ∧
         (n ≠ 1 → st ≠ 3 → e.buffered = true ∨ 16 ≤ bufferUse v core e.part e.ctx → Gives (.completionEventEnqueue core) s v))) ∧
     (tget s.graphs gs = some g →
       (launchOver s gs g = true → s.l1.any (launchDirty g) = true → exec (.launchComplete gs) s = .next (flushL1 s (launchDirty g))) ∧
       (launchOver s gs g = true → s.l1.any (launchDirty g) = false → Ends (.launchComplete gs) s fun t => tget t.graphs gs = none ∧ t.teams = s.teams ∧ t.blocks = s.blocks ∧
         (∀ c, gs ∉ (t.core c).digests) ∧ (t.wq g.wq).pending = (s.wq g.wq).pending - 1 ∧
         ((s.wq g.wq).wait = .launch gs → (t.wq g.wq).wait = .none)) ∧
       (launchOver s gs g = false → FallsThrough (.launchComplete gs) s)))

/-- R301 to R304: the frame pairs are sampled in turn; a sample holds, for each slot, the largest backlog of the queues that name it, clamped to
24 bits; the oldest sample is written into every core's table, and a core that drops a frame keeps its values and logs 347. An entry that
changes makes a core evaluate whose last evaluation found no stage and that has a slot free.
THE MODEL'S CHOICE, not the spec's: where a watched queue outside the resident graphs is known from (log 78). -/
def Obligations.WhiffletreeSamplesReachTheTables : Prop :=
  ∀ (s : State) (j core half slot : Nat) (v : Tab (BitVec 24)) (rest : List (Nat × Tab (BitVec 24))),
    (s.wstarted = true → s.wnext = j → (∀ x ∈ s.wsample, x.1 ≠ j) → slot / 128 = j →
      Ends (.whiffletreeSample j) s fun t => { t with wsample := s.wsample, wnext := s.wnext } = s ∧ t.wnext = (j + 1) % 32 ∧
        ∃ w, t.wsample = s.wsample ++ [(j, w)] ∧
        (∀ d ∈ watchedQueues s, qWen d = true → qWslot d = slot → min (qBacklog d) (2 ^ 24 - 1) ≤ (wget w slot).toNat) ∧
        (wget w slot ≠ 0 → ∃ d ∈ watchedQueues s, qWen d = true ∧ qWslot d = slot ∧ (wget w slot).toNat = min (qBacklog d) (2 ^ 24 - 1))) ∧
    (s.wstarted = false ∨ s.wnext ≠ j → FallsThrough (.whiffletreeSample j) s) ∧
    (s.wsample = (j, v) :: rest → (v.map Prod.fst).Nodup → core < 192 →
      let old := (tget s.wtree core).getD []
      (Ends (.whiffletreeTableWrite []) s fun t =>
        { t with wsample := s.wsample, wport := s.wport, wtree := s.wtree, cores := s.cores } = s ∧ t.wsample = rest ∧
        (∀ x ∈ v, wget ((tget t.wtree core).getD []) x.1 = x.2) ∧
        (∀ k, (∀ x ∈ v, x.1 ≠ k) → wget ((tget t.wtree core).getD []) k = wget old k) ∧
        ((∀ k ∈ readSlots s core, ∀ x ∈ v, x.1 = k → x.2 = wget old k) ∨ (s.core core).idle = false ∨ slotFree s core = false →
          t.core core = s.core core) ∧
        ((∃ k ∈ readSlots s core, ∃ x ∈ v, x.1 = k ∧ x.2 ≠ wget old k) → (s.core core).idle = true → slotFree s core = true →
          (t.core core).evalDue = true)) ∧
      (half < 2 → Ends (.whiffletreeTableWrite [2 * core + half]) s fun t => t.wsample = rest ∧
        (∀ x ∈ v, x.1 / 64 % 2 ≠ half → wget ((tget t.wtree core).getD []) x.1 = x.2) ∧
        (∀ k, k / 64 % 2 = half ∨ (∀ x ∈ v, x.1 ≠ k) → wget ((tget t.wtree core).getD []) k = wget old k) ∧
        t.raslogs = (logRas s ((partOfCore s core).getD 8) 347 core 0 63).raslogs))

/-- R310 to R315, R343, R344: a slice that is over asks the partition's cores to stop and pauses the queues of its context; a core with
nothing left in flight writes its dirty bytes back, then saves and is idle; when all are idle the next context runs, each core with what
that context had saved on it. R372: a channel's age cap marks its queue; a refresh changes nothing. -/
def Obligations.SlicesDrainSaveAndLoad : Prop :=
  ∀ (s : State) (part c core ch : Nat) (k : Channel),
    (sliceDue s part = true → nextContext s part = some c → Ends (.sliceExpiry part) s fun t =>
      { t with switching := s.switching, cores := s.cores, wqs := s.wqs } = s ∧ tget t.switching part = some c ∧
      (core ∈ coresOf s part → (t.core core).phase = .stop) ∧ (core ∉ coresOf s part → t.core core = s.core core) ∧
      ∀ q w, tget s.wqs q = some w → ∃ w', tget t.wqs q = some w' ∧
        (w.part = part → tget s.running part = some w.ctx → 1 ≤ w.state → w.state ≤ 4 → w'.state = 7 ∧ w'.paused = if w.state = 3 then 2 else w.state) ∧
        (w.part ≠ part ∨ tget s.running part ≠ some w.ctx → w' = w)) ∧
    (sliceDue s part = false → FallsThrough (.sliceExpiry part) s) ∧
    ((s.core core).phase = .stop → drained s core = true → Ends (.drainComplete core) s fun t => (t.core core).phase = .flush ∧
      t.teams = s.teams ∧ t.blocks = s.blocks ∧ t.spad = s.spad) ∧
    ((s.core core).phase = .stop → drained s core = false → FallsThrough (.drainComplete core) s) ∧
    (∀ p r, (s.core core).phase = .flush → drained s core = true → partOfCore s core = some p → tget s.running p = some r →
      Ends (.drainComplete core) s fun t => (t.core core).phase = .idle ∧ ((∀ m ∈ s.remotes, m.2.owner ≠ 4) → t.mem = s.mem) ∧ (∀ x ∈ t.teams, x.1 / 1024 ≠ core) ∧
        (∀ x ∈ s.teams, x.1 / 1024 ≠ core → x ∈ t.teams) ∧
        ∃ v, tget t.saved (core * 512 + p * 64 + r) = some v ∧ (∀ x, x ∈ v.teams ↔ x ∈ s.teams ∧ x.1 / 1024 = core) ∧
          (∀ x, x ∈ v.blocks ↔ x ∈ s.blocks ∧ x.1 / 16 = core) ∧ (∀ x, x ∈ v.spad ↔ x ∈ s.spad ∧ x.1 / 2 ^ 20 = core) ∧
          v.events = (s.core core).events ∧ v.rcv = (s.core core).rcv ∧ v.readers = (s.core core).readers ∧
          (∀ x, x ∈ v.resend ↔ x ∈ s.ops ∧ x.2.unit.core = core)) ∧
    (tget s.switching part = some c → allIdle s part = true →
      (∀ i v, tget s.saved (i * 512 + part * 64 + c) = some v → (v.teams.map Prod.fst).Nodup ∧ ∀ x ∈ v.teams, x.1 / 1024 = i) →
      part < 8 → c < 64 →
      Ends (.partitionSaved part) s fun t => tget t.running part = some c ∧ tget t.switching part = none ∧
        ((∀ x ∈ s.saved, ∀ y ∈ x.2.resend, ∀ l m w, guardReqOf y.2 = some (l, m, w) → l.kind ≠ 1) → t.mem = s.mem) ∧
        (core ∈ coresOf s part → (t.core core).phase = .run ∧ (t.core core).evalDue = true ∧
          ∀ v key tm, tget s.saved (core * 512 + part * 64 + c) = some v → tget v.teams key = some tm →
            tget t.teams key = some { tm with blocked := false }) ∧
        ∀ q w, tget s.wqs q = some w → w.part = part → w.ctx = c → w.state = 7 → ∃ w', tget t.wqs q = some w' ∧ w'.state = w.paused) ∧
    (tget s.switching part = some c → allIdle s part = false → FallsThrough (.partitionSaved part) s) ∧
    (tget s.channels ch = some k →
      (k.queue ≠ [] → Ends (.hbmAgeCapExpiry ch) s fun t => { t with channels := s.channels } = s ∧
        tget t.channels ch = some { k with capped := true } ∧ ∀ j, j ≠ ch → tget t.channels j = tget s.channels j) ∧
      Ends (.hbmRefresh ch) s fun t => { t with channels := s.channels } = s ∧ ∀ j, tget t.channels j = tget s.channels j)

/-- (1) R347, R348, R354, R392: every numbered frame is turned away before READY, dropped on a link that is down, logged as 363 with a reserved
bit set and refused with a NAK out of order; an acknowledgement frees the frames up to its number; a NAK and a timeout send the
unacknowledged frames again, a busy NAK later; the ninth go-back without progress takes the link down and sends them another way, ahead of
what is held; training starts it from 0.
(2) R348, R349: a frame leaves under its port's next number, and stays unacknowledged, by the port that carries unacknowledged frames for its
package already, or, where none does, by the lowest port that reaches it and has room; where that port has no room, no port has, or frames of
its partition are held for the package, it is held behind them, so that frames for one package stay in order.
THE MODEL'S CHOICE, not the spec's: that the lowest port with room is taken among equals (log 9), and that where the fabric tables and
their fields lie is opaque, and a clause that names an entry reads it through those constants (log 9). -/
def Obligations.LinkFramesPassInOrderByTheLowestPort : Prop :=
  (∀ (s : State) (h : FrameHdr) (i : Instr) (port seq : Nat),
     ((∃ f, i = .rspFrame f ∧ f.hdr = h) ∨ (∃ f, i = .fwdFrame f ∧ f.hdr = h ∧ f.rsvHi = 0) ∨ (∃ f, i = .sumFrame f ∧ f.hdr = h) ∨
       (∃ f, i = .mcdFrame f ∧ f.hdr = h) ∨ (∃ f, i = .mcrFrame f ∧ f.hdr = h) ∨ (∃ f, i = .colFrame f ∧ f.hdr = h) ∨
       (∃ f, i = .reqFrame f ∧ f.hdr = h ∧ ∀ l, rangesLocked s l (peerRanges f.op).1 = false)) →
     let q := s.port port
     let only (t : State) : Prop := { t with ports := s.ports, outbox := s.outbox } = s ∧ ∀ p, p ≠ port → t.port p = s.port p
     (s.phase ≠ .ready → Gives i s { s with outbox := s.outbox ++ [.notReady h.port] }) ∧
     (s.phase = .ready →
       ((s.port h.port).up = false → FallsThrough i s) ∧
       ((s.port h.port).up = true → h.rsv ≠ 0 → Gives i s (logRas s (portPart s h.port) 363 h.port 0 63)) ∧
       ((s.port h.port).up = true → h.rsv = 0 → h.ackv = false → h.seq ≠ (s.port h.port).expSeq →
         Gives i s { s with outbox := s.outbox ++ [.nak h.port (s.port h.port).expSeq false] }) ∧
       (∀ pre post m, q.unacked = pre ++ (seq, m) :: post → (∀ x ∈ pre, x.1 ≠ seq) → Ends (.ackFrame port seq) s fun t => only t ∧
         t.outbox = s.outbox ∧ (t.port port).unacked = post ∧ (t.port port).goBacks = 0 ∧ (t.port port).expSeq = q.expSeq) ∧
       ((∀ x ∈ q.unacked, x.1 ≠ (seq + 4095) % 4096) →
         (Ends (.nakFrame port seq true) s fun t => only t ∧ t.outbox = s.outbox ∧ t.port port = { q with resend := q.unacked.map Prod.snd }) ∧
         (q.up = true → q.unacked ≠ [] → q.goBacks < 8 → Ends (.nakFrame port seq false) s fun t => only t ∧
           t.outbox = s.outbox ++ q.unacked.map Prod.snd ∧ t.port port = { q with goBacks := q.goBacks + 1, resend := [] }))) ∧
     (q.up = true → q.unacked ≠ [] → q.goBacks < 8 → Ends (.retransmitTimeout port) s fun t => only t ∧
       t.outbox = s.outbox ++ q.unacked.map Prod.snd ∧ t.port port = { q with goBacks := q.goBacks + 1, resend := [] }) ∧
     (∀ m, q.up = true → (∃ n, q.unacked = [(n, m)]) → 8 ≤ q.goBacks → m.header = some h →
       Gives (.retransmitTimeout port) s (retryUnsent
         { logRas s (portPart s port) 365 port 0 63 with
           ports := tset s.ports port { q with up := false, unacked := [], resend := [], goBacks := 0 }
           unsent := (h.dst, m) :: s.unsent })) ∧
     (s.phase = .ready → q.up = false → portPart s port < 8 → s.identNow.isSome = true → Ends (.geldyLinkTraining port) s fun t => only t ∧
       t.outbox = s.outbox ∧ t.port port = { q with up := true, ident := pkgNow s, nextSeq := 0, expSeq := 0, goBacks := 0 })) ∧
  (∀ (s u : State) (part dst p : Nat) (ps pre post : List Nat) (f : RspFrame), routesTo s part dst = (u, ps) →
     let full (x : Nat) : Prop := 2048 ≤ (u.port x).unacked.length
     let busy (x : Nat) : Prop := ∃ y ∈ (u.port x).unacked, ∃ h, y.2.header = some h ∧ h.dst = dst
     let held : Prop := ∃ x ∈ s.unsent, x.1 = dst ∧ ∃ h, x.2.header = some h ∧ h.part = part
     let m : OutMsg := .rsp { f with hdr := { f.hdr with port := p, seq := (u.port p).nextSeq } }
     let leaves : Prop := sendFrame s part dst (.rsp f) = { u with
       outbox := u.outbox ++ [m]
       ports := tset u.ports p { u.port p with
         nextSeq := ((u.port p).nextSeq + 1) % 4096, unacked := (u.port p).unacked ++ [((u.port p).nextSeq, m)] } }
     let waits : Prop := sendFrame s part dst (.rsp f) = { u with unsent := u.unsent ++ [(dst, .rsp f)] }
     (¬held → ps = pre ++ p :: post →
       (busy p → (∀ x ∈ pre, ¬busy x) → (¬full p → leaves) ∧ (full p → waits)) ∧
       ((∀ x ∈ ps, ¬busy x) → ¬full p → (∀ x ∈ pre, full x) → leaves)) ∧
     ((∀ x ∈ ps, full x) → waits) ∧
     (held → waits))

/-- (1) R348, R349: a peer's access that a grant permits is performed at its home and answered with status 0, one that none permits with status
1; a request already performed is not performed again. An answer completes the access it names, or fails it with 281 where refused.
(2) R348, R349, R392: when no route has reached a package for long enough, or its partner enters HOLD, every access that waits on it fails
with 280, and the frames held for it are gone; the links to a partner in HOLD go down.
THE MODEL'S CHOICE, not the spec's: where the fabric tables and their fields lie is opaque, and a clause that names an entry reads it
through those constants (log 9). -/
def Obligations.PeersAccessWhatIsGrantedAndReachable : Prop :=
  (∀ (s u w : State) (f : ReqFrame) (l : Loc) (part k : Nat) (line : Line),
     (∀ a n, Takes s f.hdr u → f.op = .read a n → (∀ x, rangesLocked s x [(a, n)] = false) → Ends (.reqFrame f) s fun t =>
       t.teams = s.teams ∧ t.spad = s.spad ∧ t.l1 = s.l1 ∧ (t.port f.hdr.port).expSeq = (f.hdr.seq + 1) % 4096) ∧
     (Takes s f.hdr u → paPart s (match (peerRanges f.op).1 with | (a, _) :: _ => a | [] => 0) = some part → (peerRanges f.op).1 ≠ [] →
     let seen := { u with reqSeen := tset s.reqSeen (f.hdr.src * 256 + f.core) f.num }
     let grant := findGrant s part f.hdr.src f.hdr.ctx (peerRanges f.op).1 (peerRanges f.op).2.1 (peerRanges f.op).2.2
     let at_ := fun a => ({ l with addr := a } : Loc)
     let own := s.owner l.part
     (grant = (w, none) → reqOld s f = false → Gives (.reqFrame f) s
       (sendFrame seen part f.hdr.src (.rsp ⟨headTo s part f.hdr.ctx f.hdr.src f.num, f.ref, 1, []⟩))) ∧
     (grant = (w, some l) → rangesLocked s l (peerRanges f.op).1 = false →
       (reqOld s f = true → Gives (.reqFrame f) s u) ∧
       (reqOld s f = false →
         (∀ a n, f.op = .read a n → 0 < n → a % 128 + n ≤ 128 → Resident s (at_ a) own k line → line.pois = 0 → Gives (.reqFrame f) s
           (sendFrame seen l.part f.hdr.src (.rsp ⟨headTo s l.part l.ctx f.hdr.src f.num, f.ref, 0,
             (List.range n).map fun j => (lineByte line.data (a % 128 + j)).toNat⟩))) ∧
         (∀ a b, f.op = .write [(a, b)] → Resident s (at_ a) own k line → Gives (.reqFrame f) s
           (sendFrame { seen with l2 := tset s.l2 k (line.put [(a % 128, BitVec.ofNat 8 b)]) } l.part f.hdr.src
             (.rsp ⟨headTo s l.part l.ctx f.hdr.src f.num, f.ref, 0, []⟩)))))) ∧
     (∀ (g : RspFrame) (m : Remote) (r : Req) (v : State), Takes s g.hdr v → tget s.remotes g.ref = some m → m.host = false → m.peer = g.hdr.src →
       m.answered = false →
       (m.owner = 3 → Ends (.rspFrame g) s fun t => { t with remotes := v.remotes } = v ∧ tget t.remotes g.ref = some { m with
         answered := true, status := (if g.status = 2 then 76 else if g.status = 0 then 0 else if g.status = 1 then 281 else
           if g.status = 3 then 209 else g.status), data := g.data.map (· % 256) }) ∧
       (∀ bs, m.owner = 0 → tget s.reqs m.id = some r → r.kind = .store bs → Ends (.rspFrame g) s fun t => tget t.remotes g.ref = none ∧
         SameMemory s t ∧ t.teams = s.teams ∧
         (g.status = 0 → ∃ r', tget t.reqs m.id = some r' ∧ r'.stage = .performed) ∧
         (g.status = 1 → ∃ r', tget t.reqs m.id = some r' ∧ r'.stage = .failed 281)))) ∧
  (∀ (s : State) (pkg ref : Nat) (m : Remote),
     (∀ p, p < 24 → BindingsAre s p [] ∧ (s.port p).bRemote = []) → s.jobs = [] → s.colls = [] →
     s.remotes = [(ref, m)] → m.host = false → m.peer = pkg → m.answered = false → m.owner = 3 →
     let failed (t : State) : Prop := tget t.remotes ref = some { m with answered := true, status := 280, data := [] } ∧
       t.mem = s.mem ∧ t.teams = s.teams ∧ t.reqs = s.reqs
     (routeless s pkg = true → Ends (.routeTimeout pkg) s fun t => failed t ∧ t.outbox = s.outbox ∧
       (∀ x ∈ t.unsent, x ∈ s.unsent ∧ (x.1 = pkg → isFwd x.2 = true)) ∧ ∀ x ∈ s.unsent, x.1 ≠ pkg → x ∈ t.unsent) ∧
     (routeless s pkg = false → FallsThrough (.routeTimeout pkg) s) ∧
     ((∀ p ∈ s.ports, p.2.unacked = []) → Ends (.partnerLinkLoss pkg) s fun t => failed t ∧
       (∀ x, x ∈ t.unsent ↔ x ∈ s.unsent ∧ x.1 ≠ pkg) ∧ (∀ x ∈ t.mcastIn, x.src ≠ pkg) ∧
       ∀ p, p < 24 → (Config.wiredTo p pkg = true → (t.port p).up = false) ∧ (Config.wiredTo p pkg = false → (t.port p).up = (s.port p).up)))

/-- R268, R350 to R354: records of a FWD frame enter the receiving queue behind what is held of its binding, what finds no room is held and
moves as room appears, a closed queue discards them with 289, a full store answers busy; a port serves its send entry of positive
differential and sends the close mark of a queue at its end; summaries carry the backlogs and set B_remote.
THE MODEL'S CHOICE, not the spec's: the context whose tables translate a bound queue (log 11), and that where the fabric tables and their
fields lie is opaque, and a clause that names an entry reads it through those constants (log 9). -/
def Obligations.ForwardingMovesRecordsAndSummaries : Prop :=
  ∀ (s u v w : State) (f : FwdFrame) (e d : Nat) (q : Loc) (rest : List (List Nat)),
    let p := f.hdr.tag / 256 % 32
    let idx := f.hdr.tag % 64
    let hold (t : State) (h : HeldFrame) : State := { t with ports := tset t.ports p { t.port p with store := (t.port p).store ++ [h] } }
    (Takes s f.hdr u → f.rsvHi = 0 →
      (256 ≤ (s.port p).store.length → Gives (.fwdFrame f) s { s with outbox := s.outbox ++ [.nak f.hdr.port f.hdr.seq true] }) ∧
      ((s.port p).store.length < 256 → binding u p idx = (v, some (e, q, d)) → bindSend e = false →
        (∀ x ∈ (v.port p).store, x.pidx ≠ idx) →
        (takeFrame v q f.recs = (w, [], false) → f.close = false → Gives (.fwdFrame f) s w) ∧
        (takeFrame v q f.recs = (w, [], false) → f.close = true → Gives (.fwdFrame f) s (closeQueue w q)) ∧
        (takeFrame v q f.recs = (w, rest, false) → rest ≠ [] → Gives (.fwdFrame f) s (hold w ⟨idx, f.hdr.src, f.close, rest⟩)) ∧
        (takeFrame v q f.recs = (w, rest, true) → Gives (.fwdFrame f) s (logRas w (portPart w p) 289 p (fld e 192 64) 63))) ∧
      ((s.port p).store.length < 256 → binding u p idx = (v, none) →
        Gives (.fwdFrame f) s (hold v ⟨idx, f.hdr.src, f.close, f.recs⟩))) ∧
    (∀ port i h, (s.port port).store = [h] → h.pidx = i → binding s port i = (v, some (e, q, d)) → bindSend e = false → v.ports = s.ports →
      (takeFrame v q h.recs = (w, [], false) → h.close = false → w.ports = s.ports →
        Gives (.heldRecordsMove port i) s { w with ports := tset s.ports port { s.port port with store := [] } }) ∧
      (takeFrame v q h.recs = (w, rest, false) → rest ≠ [] → w.ports = s.ports →
        Gives (.heldRecordsMove port i) s { w with ports := tset s.ports port { s.port port with store := [{ h with recs := rest }] } })) ∧
    (∀ port i, s.phase = .ready → (s.port port).up = true → port < 24 →
      (BindingsAre s port [] → FallsThrough (.sumTimer port) s) ∧
      (BindingsAre s port [] → (s.port port).bRemote = [] → Ends (.portFrameTime port) s fun t => t.outbox = s.outbox ∧ t.unsent = s.unsent ∧ t.l2 = s.l2) ∧
      (BindingsAre s port [(i, e, q, d)] → bindSend e = true → i < 64 → i ∉ (s.port port).lost →
        let n := noteBindings s port [(i, e, q, d)]
        let here : Int := if qWen d then (wget s.wport (qWslot d)).toNat else min (qBacklog d) (2 ^ 24 - 1)
        let far : Int := (tget (s.port port).bRemote i).getD 0
        (routesTo n (portPart n port) (bindPeer e)).2 ≠ [] →
        (qClosed d = true → qEmpty d = true → i ∉ (n.port port).closed → Gives (.portFrameTime port) s
          (fwdFrom { n with ports := tset n.ports port { n.port port with closed := addOnce i (n.port port).closed } } port (i, e, q, d) true [])) ∧
        (qClosed d = false → (bindW e : Int) * (here - far) ≤ 0 → Gives (.portFrameTime port) s n) ∧
        (∀ recs x, qClosed d = false → 0 < (bindW e : Int) * (here - far) → dequeue n q (1024 / qRec d) = (w, recs, x) → recs ≠ [] →
          Gives (.portFrameTime port) s (fwdFrom w port (i, e, q, d) false (recs.map ofBytes)))) ∧
      (BindingsAre s port [(i, e, q, d)] → bindSend e = false → i < 64 →
        Gives (.sumTimer port) s (sendFrame s (portPart s port) (bindPeer e) (.sum ⟨headTo s (portPart s port) 0 (bindPeer e) port,
          (List.range 64).map fun j => if j = i then min (qBacklog d + heldCount s port i) (2 ^ 24 - 1) else 0⟩)))) ∧
    (∀ (g : SumFrame) (bs : Nat → List (Nat × Nat × Loc × Nat)), Takes s g.hdr u →
      (∀ port, port < 24 → BindingsAre s port (bs port) ∧ ((bs port).map Prod.fst).Nodup) →
      Ends (.sumFrame g) s fun t => t.mem = s.mem ∧ t.l2 = s.l2 ∧ t.teams = s.teams ∧
        ∀ port b, port < 24 → b ∈ bs port → b.1 < 64 → b.1 ∉ (s.port port).lost → bindSend b.2.1 = true → bindPeer b.2.1 = g.hdr.src →
          bindPort b.2.1 = g.hdr.tag % 32 → tget (t.port port).bRemote b.1 = some (g.backlogs.getD (bindIdx b.2.1) 0 % 2 ^ 24))

/-- R228, R229, R356, R357: the frames of a multicast payload gather until the last, whose arrival delivers the payload to the block its
registration names and answers with the mask as acknowledged, refused or negative; the answer's masks are ORed into the sender's job.
THE MODEL'S CHOICE, not the spec's: where the fabric tables and their fields lie is opaque, and a clause that names an entry reads it
through those constants (log 9). -/
def Obligations.MulticastIsDeliveredAndAnswered : Prop :=
  ∀ (s u v w : State) (f : McdFrame) (g : McrFrame) (a : Answer) (r : Option (Nat × Nat)),
    let mine (m : McastIn) : Bool := m.src == f.hdr.src && m.core == f.core && m.bslot == f.bslot && m.ticket == f.hdr.tag
    let part := min (portPart u f.hdr.port) 7
    (Takes s f.hdr u →
      -- what has gathered with this frame, and the other payloads
      (∀ (m : McastIn) rest, (∀ x ∈ rest, mine x = false) →
        (s.mcastIn = rest ∧ m = ⟨f.hdr.src, f.core, f.bslot, f.hdr.tag, f.gid, f.mask, f.data⟩ ∨
          ∃ pre post m₀, s.mcastIn = pre ++ m₀ :: post ∧ rest = pre ++ post ∧ mine m₀ = true ∧ m = { m₀ with data := m₀.data ++ f.data }) →
        (f.last = false → Gives (.mcdFrame f) s { u with mcastIn := rest ++ [m] }) ∧
        (f.last = true → findRegistration { u with mcastIn := rest } m.src m.gid = (v, r) →
          (match r with | some (p, e) => mcastDeliver v p e (m.data.map (· % 256)) | none => (v, .neg)) = (w, a) →
          Gives (.mcdFrame f) s (sendFrame w part m.src (.mcr ⟨headTo w part f.hdr.ctx m.src m.ticket, m.core, m.bslot,
            if a = .ack then m.mask else 0, if a = .refuse then m.mask else 0, if a = .neg then m.mask else 0⟩))))) ∧
    (∀ id j, Takes s g.hdr u → s.jobs = [(id, j)] → j.cmd = 3 → j.unit.core = g.core → j.unit.bslot = g.bslot → j.ticket = g.hdr.tag →
      j.acks = 0 → j.refs = 0 → j.negs = 0 → j.targets < 2 ^ 512 → j.aoff = none →
      Ends (.mcrFrame g) s fun t => { t with jobs := u.jobs } = u ∧ ∃ j', tget t.jobs id = some j' ∧ j'.acks = Nat.land j.targets g.ack ∧
        ∀ k, (j'.refs.testBit k = true ↔ j.targets.testBit k = true ∧ g.ack.testBit k = false ∧ g.refuse.testBit k = true) ∧
          (j'.negs.testBit k = true ↔ j.targets.testBit k = true ∧ g.ack.testBit k = false ∧ g.refuse.testBit k = false ∧ g.neg.testBit k = true))

/-- R358 to R360: a shard joins the collective it names, or waits for the local record; with every contribution there the result is written
and the collective ends; a reduction of INT32 is the exact sum modulo 2^32, of floats one rounding of the exact sum. -/
def Obligations.CollectivesGatherAndComplete : Prop :=
  ∀ (s u v : State) (f : ColFrame) (id : Nat) (c : Collective),
    (Takes s f.hdr u →
      (collFind s (min (portPart s f.hdr.port) 7) f.gid f.collid = some (id, c) →
        Gives (.colFrame f) s { u with colls := tset s.colls id { c with heard := c.heard ++ [(f.rank, f.shard, f.arrays)] } }) ∧
      (collFind s (min (portPart s f.hdr.port) 7) f.gid f.collid = none → collWaiting s (min (portPart s f.hdr.port) 7) < 64 →
        Ends (.colFrame f) s fun t => { t with colls := s.colls, nextOp := s.nextOp } = { u with colls := s.colls } ∧
          ∃ x, tget t.colls s.nextOp = some x ∧ x.issued = false ∧ x.gid = f.gid ∧ x.collid = f.collid ∧ x.heard = [(f.rank, f.shard, f.arrays)]) ∧
      (collFind s (min (portPart s f.hdr.port) 7) f.gid f.collid = none → 64 ≤ collWaiting s (min (portPart s f.hdr.port) 7) →
        Gives (.colFrame f) s { s with outbox := s.outbox ++ [.nak f.hdr.port f.hdr.seq true] })) ∧
    (tget s.colls id = some c →
      (c.full = false ∨ shardsAccepted s c = false → FallsThrough (.collectiveComplete id) s) ∧
      (∀ ps, c.full = true → shardsAccepted s c = true → ctxRange s c.part c.ctx c.dst c.outBytes ⟨false, true, true⟩ = (v, none, ps) →
        Gives (.collectiveComplete id) s
          (collEnd (writePieces v ps 7 0 (c.result.1.flatMap (natLe (collSize c.fmt)))) id c 1 c.result.2 0))) ∧
    (∀ xs : List Nat, (collElem 4 0 xs).1 = ((xs.map fun x => (BitVec.ofNat 32 x).toInt).sum % (2 : Int) ^ 32).toNat ∧
      (((collElem 4 0 xs).2 = 0) ↔ -(2 : Int) ^ 31 ≤ (xs.map fun x => (BitVec.ofNat 32 x).toInt).sum ∧
        (xs.map fun x => (BitVec.ofNat 32 x).toInt).sum < (2 : Int) ^ 31)) ∧
    (∀ xs : List Nat, (∀ x ∈ xs, x < 2 ^ 32 ∧ ffF32.isNaN x = false ∧ ffF32.isInf x = false) →
      let d := Dy.sum (xs.map ffF32.val)
      d.m ≠ 0 → collElem 0 0 xs = ffF32.round 0 false (decide (d.m < 0)) d)

/-- R331, R332, R362 to R364, R379, R392: a tail word that rises advances its queue; FLPOP gives the oldest free segment or 0; an RDMA
operation acts inside its aperture and is refused outside; an atomic that comes again is answered from the replay of its queue pair (which
holds 16, log 80); a queue pair fails over once, then its accesses fail with 304; a congestion
notification reduces its rate; a connection is accepted for the partition's own queue pairs and from its management endpoint only.
THE MODEL'S CHOICE, not the spec's: that the answer of FLPOP goes to queue pair 256 and the NAKs of log 47, and that where the fabric
tables and their fields lie is opaque, and a clause that names an entry reads it through those constants (log 9); and how a repeated
request of RoCE v2 is answered (log 80). -/
def Obligations.HostsReachDoorbellsAndApertures : Prop :=
  ∀ (s u : State) (q tail : Nat) (r : Rdma) (x : Aperture) (l : Loc) (k : Nat) (line : Line) (c : Conn),
    let w := s.wq q
    let bytes8 (a : Nat) : List Nat := (List.range 8).map fun j => a / 256 ^ j % 256
    let tells (t : State) (m : OutMsg) : State := { t with outbox := t.outbox ++ [m] }
    let o := r.addr - x.base
    let rnr (i : Instr) : Prop := Gives i s (tells s (.rnr r.part r.qp))
    let nak (i : Instr) (t : State) : Prop := Gives i s (tells t (.rdmaNak r.part r.qp))
    let qp := u.hostQp r.part r.qp
    -- an answer to an atomic, kept in the replay of its queue pair
    let answers (t : State) (data : List Nat) : State :=
      { tells t (.rdmaReply r.part r.qp data) with
        hostqps := tset t.hostqps (r.part * 512 + r.qp) { qp with replay := ((r.psn, data) :: qp.replay).take 16 } }
    let fresh := ∀ a ∈ qp.replay, a.1 ≠ r.psn
    -- doorbells
    (s.phase ≠ .ready ∨ s.ostler = false → Gives (.tailWrite q tail) s (tells s (.rnr w.part 256)) ∧
      Gives (.flpop q) s (tells s (.rnr w.part 256))) ∧
    (s.phase = .ready → s.ostler = true →
      (tail < 2 ^ 64 → tail % 8 = 0 → w.tail ≤ tail → w.en = true → w.state = 1 → w.headp < tail →
        Gives (.tailWrite q tail) s (withQueueAs s q { w with tail := tail, state := 2 })) ∧
      (tail < 2 ^ 64 → tail % 8 ≠ 0 ∨ tail < w.tail ∨ w.en = false → FallsThrough (.tailWrite q tail) s) ∧
      (w.free = [] → Gives (.flpop q) s (tells s (.rdmaReply w.part 256 (bytes8 0)))) ∧
      (∀ a as, w.free = a :: as → Gives (.flpop q) s (tells (withQueueAs s q { w with free := as }) (.rdmaReply w.part 256 (bytes8 a))))) ∧
    -- apertures
    (s.phase ≠ .ready → rnr (.rdmaWrite r) ∧ rnr (.rdmaRead r) ∧ rnr (.fetchAdd r) ∧ rnr (.cmpSwap r)) ∧
    (s.phase = .ready → (s.hostQp r.part r.qp).open_ = true →
      (∀ i ∈ ([.rdmaWrite r, .rdmaRead r, .fetchAdd r, .cmpSwap r] : List Instr), Ends i s fun t =>
        t.teams = s.teams ∧ t.spad = s.spad ∧ t.l1 = s.l1 ∧ ∀ p k, { t.hostQp p k with replay := [] } = { s.hostQp p k with replay := [] }) ∧
      (findAperture s r.part r.rkey = (u, none) → nak (.rdmaWrite r) u ∧ nak (.rdmaRead r) u ∧ nak (.fetchAdd r) u ∧ nak (.cmpSwap r) u) ∧
      (findAperture s r.part r.rkey = (u, some x) →
        (x.w = false → nak (.rdmaWrite r) u) ∧ (x.r = false → nak (.rdmaRead r) u) ∧
        (x.atomic = false → nak (.fetchAdd r) u ∧ nak (.cmpSwap r) u) ∧
        (x.base + x.len < r.addr + r.data.length → nak (.rdmaWrite r) u) ∧
        (x.bell = false → PlainRange u r.part x.ctx r.addr r.data.length ⟨false, true, true⟩ l → OneLine u l r.data.length k line →
          x.base ≤ r.addr → r.addr + r.data.length ≤ x.base + x.len → x.w = true →
          Gives (.rdmaWrite r) s { u with l2 := tset u.l2 k (line.with l (toBytes r.data)) }) ∧
        (x.bell = false → PlainRange u r.part x.ctx r.addr r.len ⟨true, false, true⟩ l → OneLine u l r.len k line →
          x.base ≤ r.addr → r.addr + r.len ≤ x.base + x.len → x.r = true →
          Gives (.rdmaRead r) s (tells u (.rdmaReply r.part r.qp ((List.range r.len).map fun j => (lineByte line.data (l.addr % 128 + j)).toNat)))) ∧
        (x.bell = false → PlainRange u r.part x.ctx r.addr 8 ⟨true, true, true⟩ l → OneLine u l 8 k line → r.addr % 8 = 0 →
          x.base ≤ r.addr → r.addr + 8 ≤ x.base + x.len → x.atomic = true → r.x < 2 ^ 64 → r.y < 2 ^ 64 → fresh →
          let old := line.get (l.addr % 128) 8
          Gives (.fetchAdd r) s (answers { u with l2 := tset u.l2 k (line.with l (natLe 8 (old + r.x))) } (bytes8 old)) ∧
          Gives (.cmpSwap r) s (answers { u with l2 := tset u.l2 k (line.with l (natLe 8 (if old = r.x then r.y else old))) } (bytes8 old))) ∧
        (x.bell = true → s.ostler = true → x.base ≤ r.addr → r.addr + 8 ≤ x.base + x.len → x.atomic = true → o % 64 = 16 → fresh →
          (∀ a as, (u.wq (o / 64)).free = a :: as →
            Gives (.fetchAdd r) s (answers (withQueueAs u (o / 64) { u.wq (o / 64) with free := as }) (bytes8 a))) ∧
          ((u.wq (o / 64)).free = [] → Gives (.fetchAdd r) s (answers u (bytes8 0)))) ∧
        (∀ data, x.base ≤ r.addr → r.addr + 8 ≤ x.base + x.len → x.atomic = true → x.bell = false ∨ s.ostler = true →
          qp.replay.find? (fun a => a.1 == r.psn) = some (r.psn, data) →
          Gives (.fetchAdd r) s (tells u (.rdmaReply r.part r.qp data)) ∧ Gives (.cmpSwap r) s (tells u (.rdmaReply r.part r.qp data))))) ∧
    -- queue pairs
    (∀ part qp, qpFail s part qp = (u, true) → (u.hostQp part qp).port = 0 →
      Gives (.hostRetryExhausted part qp) s { u with hostqps := tset u.hostqps (part * 512 + qp) { u.hostQp part qp with port := 1 } }) ∧
    (∀ part qp ref m, (qpFail s part qp).2 = false ∨ (s.hostQp part qp).port ≠ 0 → s.remotes = [(ref, m)] → m.host = true → m.part = part → m.qp = qp →
      m.answered = false → m.owner = 3 → Gives (.hostRetryExhausted part qp) s
        { (qpFail s part qp).1 with remotes := [(ref, { m with answered := true, status := 304, data := [] })] }) ∧
    (∀ part qp, (s.hostQp part qp).open_ = true → Gives (.congestionNotification part qp) s
      { s with hostqps := tset s.hostqps (part * 512 + qp) { s.hostQp part qp with reduced := true } }) ∧
    (s.phase = .ready →
      let e := (wget s.parts c.part).toNat
      let good := e % 2 = 1 ∧ (c.qp < 256 ∨ c.qp = 256 ∧ c.mgid = e / 2 ^ 256 % 2 ^ 128 ∧ c.qpn = e / 2 ^ 104 % 2 ^ 24)
      (good → Gives (.connectionExchange c) s
        (tells { s with hostqps := tset s.hostqps (c.part * 512 + c.qp) ⟨true, 0, false, c.qpn, []⟩ } (.accept c.part c.qp))) ∧
      (¬good → Gives (.connectionExchange c) s (tells s (.reject c.part c.qp))))

/-- (1) R334, R337, R338, R340, R342: in the stream of a queue that runs, NOP moves on; WRITE stores its data, WRITE_SIGNAL its signal; a
condition that holds lets WAIT_MEM and PRED go on, one that does not puts the queue in STATE 3 or skips the next packets; EVENT and
TIMESTAMP write their record; a rule that is broken stops the queue with its ERR.
(2) R340: EVENT writes its 16-byte record into the ring at the queue's index, which goes up by one modulo 256. -/
def Obligations.PacketsWriteWaitAndReport : Prop :=
  (∀ (s : State) (p : Pkt) (l : Level) (loc : Loc) (k : Nat) (line : Line), Streaming s p.q l →
     let w := s.wq p.q
     let word := fun i => p.qw.getD (i - 1) 0
     let past (t : State) (n : Nat) : State := withQueueAs t p.q (w.past l n)
     let fails (i : Instr) (err ecode : Nat) : Prop := Gives i s (withQueueAs s p.q (w.failed l err ecode))
     let size := if p.flg / 4 % 2 = 1 then 8 else 4
     let value := Nat.land (line.get (loc.addr % 128) size) (word 3 % 256 ^ size)
     let holds := p.flg % 4 = 0 ∧ value = Nat.land (word 2) (word 3 % 256 ^ size) ∨ p.flg % 4 = 1 ∧ value ≠ Nat.land (word 2) (word 3 % 256 ^ size) ∨
       p.flg % 4 = 2 ∧ Nat.land (word 2) (word 3 % 256 ^ size) ≤ value ∨ p.flg % 4 = 3 ∧ value < Nat.land (word 2) (word 3 % 256 ^ size)
     let cond := p.flg < 8 ∧ p.len = 4 ∧ word 1 % size = 0 ∧ PlainRange s w.part w.ctx (word 1) size ⟨true, false, false⟩ loc ∧ OneLine s loc size k line
     (p.flg = 0 → p.len ≠ 0 → Gives (.nopPacket p) s (past s (8 * p.len))) ∧
     (p.flg ≠ 0 → fails (.nopPacket p) 1 0 ∧ fails (.write p) 1 0) ∧
     (p.flg = 0 → p.len = 0 → fails (.nopPacket p) 2 0) ∧
     -- WRITE
     (p.flg = 0 → p.arg % 4 = 0 → 4 ≤ p.arg → p.arg ≤ 2024 → p.len = 2 + (p.arg + 7) / 8 →
       (word 1 % 4 ≠ 0 → fails (.write p) 8 0) ∧
       (∀ c x, word 1 % 4 = 0 → ctxRange s w.part w.ctx (word 1) p.arg ⟨false, true, false⟩ = (s, some c, x) → fails (.write p) 3 c) ∧
       (word 1 % 4 = 0 → PlainRange s w.part w.ctx (word 1) p.arg ⟨false, true, false⟩ loc → OneLine s loc p.arg k line →
         (((p.qw.drop 1).flatMap (natLe 8)).take p.arg).length = p.arg →
         Gives (.write p) s (past { s with l2 := tset s.l2 k (line.with loc (((p.qw.drop 1).flatMap (natLe 8)).take p.arg)) } (8 * p.len)))) ∧
     -- WRITE_SIGNAL without data
     (p.flg < 32 → 4 ≤ p.flg / 4 → p.flg / 4 ≤ 6 → p.arg = 0 → word 1 = 0 → p.len = 4 →
       (∀ n, p.flg % 4 = 0 ∧ n = 4 ∨ p.flg % 4 = 1 ∧ n = 8 → word 2 % n = 0 →
         PlainRange s w.part w.ctx (word 2) n ⟨false, true, false⟩ loc → OneLine s loc n k line →
         Gives (.writeSignal p) s (past { s with l2 := tset s.l2 k (line.with loc (natLe n (word 3))) } 32)) ∧
       (p.flg % 4 = 2 → word 2 % 8 = 0 → PlainRange s w.part w.ctx (word 2) 8 ⟨true, true, true⟩ loc → OneLine s loc 8 k line → word 3 < 2 ^ 64 →
         Gives (.writeSignal p) s (past { s with l2 := tset s.l2 k (line.with loc (natLe 8 (line.get (loc.addr % 128) 8 + word 3))) } 32))) ∧
     -- WAIT_MEM, PRED
     (cond → word 2 < 2 ^ 64 →
       (holds → (p.arg = 0 → Gives (.waitMem p) s (past s 32)) ∧ (1 ≤ p.arg → p.arg ≤ 65535 → Gives (.pred p) s (past s 32))) ∧
       (¬holds → (p.arg = 0 → Gives (.waitMem p) s (withQueueAs s p.q { w with state := 3, wait := .mem, busy := false, step := 0 })) ∧
         (1 ≤ p.arg → p.arg ≤ 65535 → Gives (.pred p) s (withQueueAs s p.q { w.past l 32 with skip := p.arg })))) ∧
     -- TIMESTAMP, EVENT
     (p.flg = 0 → p.arg = 0 → p.len = 2 → word 1 % 8 = 0 → PlainRange s w.part w.ctx (word 1) 8 ⟨false, true, false⟩ loc → OneLine s loc 8 k line →
       Gives (.timestamp p) s (past { s with l2 := tset s.l2 k (line.with loc (natLe 8 s.clock)) } 16)) ∧
     (p.flg < 2 → p.len = 1 → p.flg = 0 ∨ w.pending = 0 → Gives (.event p) s (past s 8)) ∧
     (p.flg = 1 → p.len = 1 → 0 < w.pending → Gives (.event p) s (withQueueAs s p.q { w with state := 4, wait := .drain, busy := false, step := 0 }))) ∧
  (∀ (s : State) (p : Pkt) (l : Level) (loc : Loc) (k : Nat) (line : Line),
     wqLive s p.q = true → (s.wq p.q).wait = .none → (s.wq p.q).levels = [l] → (s.wq p.q).stopReq = false → s.remotes = [] →
     let w := s.wq p.q
     w.evt ≠ 0 → p.flg = 0 → p.len = 1 → p.q < 65536 → p.arg < 2 ^ 32 → s.clock < 2 ^ 64 →
     PlainRange s w.part w.ctx (w.evt + 16 * w.evidx) 16 ⟨false, true, false⟩ loc → OneLine s loc 16 k line →
     Gives (.event p) s (withQueueAs
       { s with l2 := tset s.l2 k (line.with loc (natLe 16 (p.q + p.arg * 2 ^ 32 + s.clock * 2 ^ 64))) } p.q
       { w.past l 8 with evidx := (w.evidx + 1) % 256 }))

/-- (1) R333, R336, R338, R340, R341: INDIRECT and LOOP open a level, a LOOP body with passes left begins again, LINK moves the stream to the next
segment and its RET returns the old one, in order, FETCH_FENCE discards what the level has fetched, COLLECTIVE issues its record, and a command
line fetched ahead is held.
(2) R338: a queue that waits on memory goes on when the watched value meets its condition, and keeps waiting while it does not; a value on a
PEER page is asked for again. -/
def Obligations.LevelsFetchAndMemoryWaits : Prop :=
  (∀ (s u v : State) (p : Pkt) (l : Level) (loc : Loc),
     let w := s.wq p.q
     let word := fun i => p.qw.getD (i - 1) 0
     (Streaming s p.q l →
       (p.flg = 0 → p.arg % 8 = 0 → 8 ≤ p.arg → p.arg ≤ 1048576 → p.len = 2 → word 1 % 8 = 0 →
         PlainRange s w.part w.ctx (word 1) p.arg ⟨true, false, false⟩ loc →
         Gives (.indirect p) s (withQueueAs s p.q { w with levels := [⟨1, word 1, p.arg, 0, 0, 16⟩, l] })) ∧
       (p.flg = 0 → word 1 < 2 ^ 32 → word 1 ≠ 0 → 1 ≤ p.arg → p.arg ≤ 32 → p.len = 2 →
         (l.len < l.pos + 16 + 8 * p.arg → Gives (.loop p) s (withQueueAs s p.q (w.failed l 6 0))) ∧
         (l.pos + 16 + 8 * p.arg ≤ l.len → w.headp + 16 + 8 * p.arg ≤ w.tail →
           Gives (.loop p) s (withQueueAs s p.q { w with levels := [⟨2, l.base + l.pos + 16, 8 * p.arg, 0, word 1, 16 + 8 * p.arg⟩, l] })) ∧
         (l.pos + 16 + 8 * p.arg ≤ l.len → w.tail < w.headp + 16 + 8 * p.arg → w.headp ≤ w.tail → FallsThrough (.loop p) s)) ∧
       (p.flg = 0 → p.arg = 0 → p.len = 1 →
         Gives (.fetchFence p) s (withQueueAs s p.q { w.past l 8 with
           lines := if l.kind = 2 then w.lines else w.lines.filter fun y => y.level != 0 })) ∧
       (p.flg < 2 → p.arg = 0 → p.len = 2 → word 1 % 2 ^ w.seglog = 0 → w.headp + 16 ≠ w.tail →
         Gives (.link p) s (withQueueAs s p.q { w with
           levels := [⟨0, word 1, 2 ^ w.seglog, 0, 0, 0⟩], headp := w.headp + 16, lines := [], state := 2, step := 0, busy := false
           leaving := if p.flg = 1 then w.leaving ++ [l.base] else w.leaving })) ∧
       (p.flg < 2 → p.arg = 0 → p.len = 2 → word 1 % 2 ^ w.seglog ≠ 0 → Gives (.link p) s (withQueueAs s p.q (w.failed l 5 0))) ∧
       (∀ bs pz id, p.flg < 2 → p.arg = 0 → p.len = 4 → word 2 % 8 = 0 → PlainRange s w.part w.ctx (word 2) 8 ⟨false, true, false⟩ loc →
         (∃ lr, PlainRange s w.part w.ctx (word 1) 64 ⟨true, true, false⟩ lr ∧ readPieces s [(lr, 64)] = (u, bs, pz)) →
         issueCollective u p.q (word 1) (word 2) (BitVec.ofNat 64 (word 3)) (p.flg == 1) (leNat bs) = (v, id) →
         (p.flg = 0 ∨ id = none → Gives (.collective p) s (wqDone v p.q 32)) ∧
         (∀ n, p.flg = 1 → id = some n → Gives (.collective p) s (wqHold v p.q 4 (.collective n) false 1)))) ∧
     -- a LOOP body at its end
     (∀ l' ls, wqLive s p.q = true → w.levels = l :: l' :: ls → l.kind = 2 → p.flg = 0 → p.len ≠ 0 → l.pos + 8 * p.len = l.len → 1 < l.passes →
       w.stopReq = false → s.remotes = [] →
       Ends (.nopPacket p) s fun t => { t with wqs := s.wqs } = s ∧
         (t.wq p.q).levels = { l with pos := 0, passes := l.passes - 1 } :: l' :: ls ∧ (t.wq p.q).headp = w.headp ∧ (t.wq p.q).state = 2) ∧
     -- segments return in the order in which they were left
     (∀ seg, (∀ rest, w.leaving = seg :: rest →
         (w.free.length < 255 → Gives (.segmentReturn p.q seg) s (withQueueAs s p.q { w with leaving := rest, free := w.free ++ [seg] })) ∧
         (255 ≤ w.free.length → Gives (.segmentReturn p.q seg) s (withQueueAs s p.q { w with leaving := rest, flov := true }))) ∧
       (w.leaving.head? ≠ some seg → FallsThrough (.segmentReturn p.q seg) s)) ∧
     -- fetching ahead, in the stream up to a LINK
     (∀ line ls, w.levels = l :: ls → wqLive s p.q = true →
       let a := l.base + l.pos
       let d := ls.length
       a / 64 ≤ line → line * 64 ≤ a + 256 → line * 64 < min (a + (if ls = [] then w.tail - w.headp else l.len - l.pos)) (l.base + l.len) →
       (∀ x ∈ w.lines, x.level = d → x.line ≠ line) →
       (d ≠ 0 ∨ runsInto w line 64 a = true →
         (fetchLine s p.q d line = (u, .ok) ∨ fetchLine s p.q d line = (u, .wait) → Gives (.commandLineFetch p.q d line) s u) ∧
         (∀ e c, fetchLine s p.q d line = (u, .bad e c) → FallsThrough (.commandLineFetch p.q d line) s)) ∧
       (d = 0 → runsInto w line 64 a = false → FallsThrough (.commandLineFetch p.q d line) s))) ∧
  (∀ (s : State) (q : Nat) (l : Level) (loc : Loc), wqLive s q = true → (s.wq q).wait = .mem → (s.wq q).levels = [l] → (s.wq q).stopReq = false →
     s.remotes = [] →
     let w := s.wq q
     let p := waitingPacket w q
     (watched s q = some loc → (peekNat s loc (s.owner loc.part) (condSize p)).2 = false →
       (condMeets p (peekNat s loc (s.owner loc.part) (condSize p)).1 = true → Gives (.waitMemRetest q) s (withQueueAs s q (w.past l 32))) ∧
       (condMeets p (peekNat s loc (s.owner loc.part) (condSize p)).1 = false → FallsThrough (.waitMemRetest q) s)) ∧
     (watched s q = none → ∀ x, ctxRange s w.part w.ctx (p.qw.getD 0 0) (condSize p) ⟨true, false, false⟩ = (s, none, [(loc, x)]) → loc.kind = 1 →
       Ends (.waitMemPoll q) s fun t => (t.wq q).state = 3 ∧ (t.wq q).wait = .remote ∧ (t.wq q).step = 1 ∧ t.spad = s.spad ∧ t.l1 = s.l1 ∧ t.teams = s.teams ∧
         ∃ m, tget t.remotes s.nextOp = some m ∧ m.owner = 3 ∧ m.id = q ∧ m.peer = loc.dest ∧ m.answered = false))

/-- R262, R298, R339: LAUNCH_GRAPH of a graph that passes its checks makes it resident in the lowest free slot of the partition and loads its
digests on every core; one that does not is refused with the failing stage and reason. -/
def Obligations.GraphsBecomeResident : Prop :=
  ∀ (s u v : State) (p : Pkt) (l : Level) (loc : Loc) (g : Graph) (pads : List Paddock) (gs : Nat), Streaming s p.q l →
    let w := s.wq p.q
    let word := fun i => p.qw.getD (i - 1) 0
    p.flg = 0 → p.arg = 0 → p.len = 5 → word 2 % 8 = 0 → word 3 % 16 = 0 → PlainRange s w.part w.ctx (word 3) 16 ⟨false, true, false⟩ loc →
    (readGraph w.part w.ctx (word 1) s = (u, .ok (g, pads)) → freeGraphSlot u w.part = some gs → createPads w.part w.ctx pads u = (v, none) →
      Ends (.launchGraph p) s fun t => t.teams = v.teams ∧ t.blocks = v.blocks ∧
        tget t.graphs gs = some { g with params := [], launchRec := word 3, cval := BitVec.ofNat 64 (word 4), wq := p.q } ∧
        ∀ c, c ∈ coresOf v w.part → gs ∈ (t.core c).digests ∧ (t.core c).evalDue = true) ∧
    (∀ stage reason, readGraph w.part w.ctx (word 1) s = (u, .error (stage, reason)) → Gives (.launchGraph p) s
      (launchWritten p (launchRecord u (BitVec.ofNat 64 (word 4)) stage reason none 3) none u)) ∧
    (readGraph w.part w.ctx (word 1) s = (u, .ok (g, pads)) → freeGraphSlot u w.part = none → Gives (.launchGraph p) s
      (launchWritten p (launchRecord u (BitVec.ofNat 64 (word 4)) 255 4 none 3) none u))

/-- (1) R330, R344, R345: WQ_CONFIG gives a queue of the partition that is at rest a new descriptor, WQ_STOP puts a queue in STATE 6 before
its next packet, WQ_RESUME lets a stopped queue run on; a request that breaks a rule changes nothing and says which. A request whose first
quadword is malformed changes nothing and is answered with 1.
(2) R287, R289, R299, R343, R345: a stopped unit is resumed or terminated, a running team is halted at its next packet boundary, a graph is
removed and its slot freed once its blocks have retired, and a slice length is set. -/
def Obligations.WorkQueuesUnitsGraphsAndSlicesAreManaged : Prop :=
  ((∀ (s : State) (m : Mgmt) (op : Nat), Hears s m.part → m.odd = some op →
     ∀ i ∈ ([.wqConfig m, .wqStop m, .wqResume m, .unitResume m, .unitTerminate m, .unitHalt m, .graphRemove m, .sliceSet m, .stateRead m,
         .stateWrite m, .ctxSet m, .ctxDel m, .imgLoad m, .attest m, .keyRetain m, .partSet m, .ownXfer m, .claim m, .release m, .setId m] : List Instr), Answers i op m s s 1 0) ∧
   ∀ (s : State) (m : Mgmt), Hears s m.part → m.odd = none → s.remotes = [] →
     let w := s.wq m.q1
     let seg := m.q4 / 2 ^ 16 % 16
     let c := m.q4 / 2 ^ 8 % 64
     let fine := m.q4 / 2 ^ 3 % 32 = 0 ∧ m.q4 / 2 ^ 14 % 4 = 0 ∧ m.q4 / 2 ^ 20 % 2 ^ 12 = 0 ∧ m.q4 < 2 ^ 33 ∧ 12 ≤ seg ∧ m.q2 % 2 ^ seg = 0 ∧
       m.q3 % 4096 = 0 ∧ (w.state = 0 ∨ w.state = 1 ∨ w.state = 5 ∨ w.state = 6)
     let stops (v : WorkQueue) : Prop := Answers (.wqStop m) 2 m s (withQueueAs s m.q1 v) 0 0
     let resumes (v : WorkQueue) : Prop := Answers (.wqResume m) 3 m s (withQueueAs s m.q1 v) 0 0
     (8192 ≤ m.q1 → Answers (.wqConfig m) 1 m s s 2 0 ∧ Answers (.wqStop m) 2 m s s 2 0 ∧ Answers (.wqResume m) 3 m s s 2 0) ∧
     (m.q1 < 8192 →
       -- WQ_CONFIG
       (m.q4 % 8 ≠ m.part ∨ w.state ≠ 0 ∧ w.part ≠ m.part → Answers (.wqConfig m) 1 m s s 3 0) ∧
       (m.q4 % 8 = m.part → w.state = 0 ∨ w.part = m.part →
         (¬fine → Answers (.wqConfig m) 1 m s s 1 0) ∧
         (fine → Answers (.wqConfig m) 1 m s (withQueueAs s m.q1 { WorkQueue.init with
           pending := w.pending, ecode := w.ecode, erradr := w.erradr, base := m.q2, evt := m.q3, seglog := seg, ctx := c, part := m.part
           en := m.q4 / 2 ^ 32 % 2 == 1
           state := if m.q4 / 2 ^ 32 % 2 = 1 then (if tget s.running m.part = some c then 1 else 7) else 0
           paused := if m.q4 / 2 ^ 32 % 2 = 1 ∧ tget s.running m.part ≠ some c then 1 else 0
           levels := [⟨0, if m.q4 / 2 ^ 32 % 2 = 1 then m.q2 else (w.levels.getLast?.map Level.base).getD 0, 2 ^ seg, 0, 0, 0⟩] }) 0 0)) ∧
       -- no queue, another partition's queue
       (w.state = 0 →
         let r := if (tget s.wqs m.q1).isSome ∧ w.part = m.part then 5 else 2
         Answers (.wqStop m) 2 m s s r 0 ∧ Answers (.wqResume m) 3 m s s r 0) ∧
       (w.state ≠ 0 → w.part ≠ m.part → Answers (.wqStop m) 2 m s s 3 0 ∧ Answers (.wqResume m) 3 m s s 3 0) ∧
       (w.state ≠ 0 → w.part = m.part →
         -- WQ_STOP
         (w.busy = true → stops { w with stopReq := true }) ∧
         (w.busy = false → w.state = 5 ∨ w.state = 6 → stops w) ∧
         (w.busy = false → w.state = 1 ∨ w.state = 2 ∨ w.state = 4 → stops { w with state := 6, paused := w.state }) ∧
         (w.busy = false → w.state = 3 → stops { w with state := 6, paused := 2, wait := .none }) ∧
         (w.busy = false → w.state = 7 → stops (if w.paused = 3 then { w with state := 6, paused := 2, wait := .none } else { w with state := 6 })) ∧
         -- WQ_RESUME
         (2 ≤ m.q2 → Answers (.wqResume m) 3 m s s 1 0) ∧
         (m.q2 < 2 → w.state ≠ 5 → w.state ≠ 6 → Answers (.wqResume m) 3 m s s 5 0) ∧
         (∀ l runs, w.levels = [l] → l.kind = 0 → runs = decide (tget s.running m.part = some w.ctx) →
           let goes (x : WorkQueue) (st : Nat) : WorkQueue :=
             { x with err := 0, state := if runs then st else 7, paused := if runs then 0 else st, busy := false, stopReq := false, lines := [] }
           (m.q2 < 2 → w.state = 5 ∨ w.state = 6 ∧ (w.paused ≠ 4 ∨ m.q2 = 1) →
             resumes (goes { w with wait := .none, step := 0, skip := if m.q2 = 1 then 2 ^ 40 else w.skip } (if w.headp = w.tail then 1 else 2))) ∧
           (m.q2 = 0 → w.state = 6 → w.paused = 4 → resumes (goes w 4)))))) ∧
  (∀ (s : State) (m : Mgmt), Hears s m.part → m.odd = none →
     let turned (r : Nat) : Prop :=
       Answers (.unitResume m) 4 m s s r 0 ∧ Answers (.unitTerminate m) 5 m s s r 0 ∧ Answers (.unitHalt m) 6 m s s r 0
     -- in no barrier, nor on its way into one, nor waiting at a rein
     let apart (u : UnitId) : Prop := (∀ h ∈ s.barriers, u ∉ h.2.members ∧ ∀ x ∈ h.2.held, u ∉ x.2) ∧ ∀ c ∈ s.cores, ∀ r ∈ c.2.readers, u ∉ r.2
     -- which unit
     (2 ^ 19 ≤ m.q1 → turned 1) ∧
     (m.q1 < 2 ^ 19 → 192 ≤ m.q1 % 256 → turned 2) ∧
     (m.q1 < 2 ^ 19 → m.q1 % 256 < 192 → partOfCore s (m.q1 % 256) ≠ some m.part → turned 3) ∧
     (m.q1 < 2 ^ 19 → m.q1 % 256 < 192 → partOfCore s (m.q1 % 256) = some m.part →
       tget s.blocks (m.q1 % 256 * 16 + m.q1 / 256 % 16) = none → turned 2) ∧
     -- a team
     (∀ u b t, u.core < 192 → u.bslot < 16 → u.team < 64 → u.coach = false → m.q1 = u.core + 256 * u.bslot + 4096 * u.team →
       partOfCore s u.core = some m.part → tget s.blocks (blockKey u) = some b →
       (tget s.teams (teamKey u) = none → turned 2) ∧
       (tget s.teams (teamKey u) = some t →
         (∀ r, t.status = .stopped → t.stop = some r → Answers (.unitResume m) 4 m s
           { s with teams := tset s.teams (teamKey u) { (if t.priv then t else t.returned r.pkt r.slot) with
               status := .running, stop := none, blocked := false, pkt := r.pkt, slot := r.slot } } 0 0) ∧
         (t.status = .stopped → apart u → Answers (.unitTerminate m) 5 m s
           { s with
             blocks := tset s.blocks (blockKey u) { b with killed := true }
             teams := tset s.teams (teamKey u) { t with status := .terminated, stop := none, waits := [], ibuf := none } } 0 0) ∧
         (t.status ≠ .stopped → Answers (.unitResume m) 4 m s s 5 0 ∧ Answers (.unitTerminate m) 5 m s s 5 0) ∧
         (t.status = .running → Answers (.unitHalt m) 6 m s
           { s with teams := tset s.teams (teamKey u) { t with halt := true, blocked := false } } 0 0) ∧
         (t.status ≠ .running → Answers (.unitHalt m) 6 m s s 5 0))) ∧
     -- a coachman
     (∀ u b k, u.core < 192 → u.bslot < 16 → u.team = 0 → u.coach = true → m.q1 = u.core + 256 * u.bslot + 2 ^ 18 →
       partOfCore s u.core = some m.part → tget s.blocks (blockKey u) = some b → tget s.coaches (blockKey u) = some k →
       Answers (.unitHalt m) 6 m s s 1 0 ∧
       (k.status ≠ .stopped → Answers (.unitResume m) 4 m s s 5 0 ∧ Answers (.unitTerminate m) 5 m s s 5 0) ∧
       (∀ r, k.status = .stopped → k.stop = some r → (r.words.getD 3 0).toNat / 2 ^ 14 % 2 = 0 → Answers (.unitResume m) 4 m s
         { s with coaches := tset s.coaches (blockKey u) { k with status := .running, stop := none, blocked := false } } 0 0) ∧
       (k.status = .stopped → apart u → Answers (.unitTerminate m) 5 m s
         { s with
           coaches := tset s.coaches (blockKey u) { k with status := .terminated, stop := none, wait := .none, ibuf := none } } 0 0)) ∧
     -- a graph
     (let e := (wget s.parts m.part).toNat
      let mine := e / 2 ^ 12 % 16 ≤ m.q1 ∧ m.q1 < e / 2 ^ 12 % 16 + e / 2 ^ 16 % 32
      (16 ≤ m.q1 → Answers (.graphRemove m) 7 m s s 2 0) ∧
      (m.q1 < 16 → ¬mine → Answers (.graphRemove m) 7 m s s 3 0) ∧
      (m.q1 < 16 → mine →
        (tget s.graphs m.q1 = none → Answers (.graphRemove m) 7 m s s 2 0) ∧
        (∀ g, tget s.graphs m.q1 = some g → g.part = m.part →
          let asked := { s with
            graphs := tset s.graphs m.q1 { g with removing := true }
            replies := [⟨m.part, m.q1 + 1, 0, .mgmt m.part 7 0 m.tag 0⟩] }
          (graphUnits s m.q1 ≠ [] → Gives (.graphRemove m) s ((graphUnits s m.q1).foldl killUnit asked)) ∧
          (graphUnits s m.q1 = [] → graphGone s m.q1 = false → Gives (.graphRemove m) s asked) ∧
          (∀ l, graphUnits s m.q1 = [] → graphGone s m.q1 = true →
            PlainRange asked g.part g.ctx g.launchRec 16 ⟨false, true, false⟩ l →
            Ends (.graphRemove m) s fun t => tget t.graphs m.q1 = none ∧ t.replies = [] ∧
              t.outbox = s.outbox ++ [.mgmt m.part 7 0 m.tag 0] ∧ t.teams = s.teams ∧ t.blocks = s.blocks ∧
              ∀ k, k ≠ m.q1 → tget t.graphs k = tget s.graphs k)))) ∧
     -- a slice length
     (m.q1 < 1750 ∨ 2 ^ 32 ≤ m.q1 → Answers (.sliceSet m) 8 m s s 1 0) ∧
     (1750 ≤ m.q1 → m.q1 < 2 ^ 32 → Answers (.sliceSet m) 8 m s { s with sliceLen := tset s.sliceLen m.part m.q1 } 0 0))

/-- R387, R394, R396, R397: STATE_READ gives the word an index names, of the partition or the package; STATE_WRITE writes a word of a
stopped unit or the head of the partition's log; CTX_SET writes the fields of a context that does not run, CTX_DEL removes an idle one.
THE MODEL'S CHOICE, not the spec's: RESULT 1 for a page-table root or a handler base that R316 and R282 make illegal, and that the head
word of a log is a running count (log 18, log 36). -/
def Obligations.StateMapAndContextsAreManaged : Prop :=
  ∀ (s : State) (m : Mgmt), Hears s m.part → m.odd = none →
    let reads (r q1 : Nat) : Prop := Answers (.stateRead m) 9 m s s r q1
    let writes (u : State) (r : Nat) : Prop := Answers (.stateWrite m) 0x16 m s u r 0
    let sets (u : State) (r : Nat) : Prop := Answers (.ctxSet m) 0x10 m s u r 0
    let dels (u : State) (r : Nat) : Prop := Answers (.ctxDel m) 0x11 m s u r 0
    -- the state map
    (mapRead s m.q1 = none → reads 2 0 ∧ writes s 2) ∧
    (∀ p c w, mapRead s m.q1 = some (p, c, w) →
      (p = m.part ∨ p = 8 → reads 0 w.toNat) ∧ (p ≠ m.part → p ≠ 8 → reads 3 0 ∧ writes s 3)) ∧
    (∀ u r b t, u.core < 192 → u.bslot < 16 → u.team < 64 → r < 64 → m.q1 = blockKey u * 2 ^ 32 + u.team * 2 ^ 26 + 0x100 + r →
      tget s.blocks (blockKey u) = some b → tget s.teams (teamKey u) = some t → b.part = m.part → 0 < b.lanes →
      reads 0 (wget t.sregs r).toNat ∧
      (t.status = .stopped → writes { s with teams := tset s.teams (teamKey u) (t.putS r (BitVec.ofNat 64 m.q2)) } 0) ∧
      (t.status ≠ .stopped → writes s 5)) ∧
    (m.part < 8 → m.q1 = 7 * 2 ^ 44 + 0x11000 + 0x800 * m.part →
      let l := (tget s.raslogs m.part).getD ⟨0, 0, 0, []⟩
      (l.head ≤ m.q2 → m.q2 ≤ l.tail → writes { s with raslogs := tset s.raslogs m.part { l with head := m.q2 } } 0) ∧
      (m.q2 < l.head ∨ l.tail < m.q2 → writes s 1)) ∧
    -- contexts
    (let key := m.part * 64 + m.q1
     let x : Ctx := ⟨m.q2, m.q3, m.q4, m.q5, m.q6 % 2 ^ 32, m.q6 / 2 ^ 32, m.q7⟩
     let up := s.stacksDown.any (partHas (wget s.parts m.part).toNat) = false
     let bad := 64 ≤ m.q1 ∨ 2 ^ 33 ≤ m.q6 ∨ m.q2 % 2 ^ 21 ≠ 0 ∨ 2 ^ 39 ≤ m.q2 ∨ m.q5 % 64 ≠ 0
     (bad → sets s 1) ∧
     (¬bad →
       (¬up → sets s 5) ∧
       (up → (tget s.ctxs key).isSome = true → tget s.running m.part = some m.q1 → sets s 5) ∧
       (∀ old, up → tget s.ctxs key = some old → old.hseed = x.hseed → old.ptbase = x.ptbase → tget s.running m.part ≠ some m.q1 →
         sets { s with ctxs := tset s.ctxs key x } 0) ∧
       (up → tget s.ctxs key = none → s.l2 = [] → s.redbuf = [] → s.wcache = [] → s.tlb = [] → s.ctlb = [] → s.saved = [] → s.misses = [] → s.blocks = [] →
         sets { s with ctxs := tset s.ctxs key x } 0) ∧
       (up → (tget s.ctxs key = none ∨ tget s.running m.part ≠ some m.q1) → (putCtx s m.part m.q1 x).replies = [] →
         sets (putCtx s m.part m.q1 x) 0)) ∧
     (64 ≤ m.q1 → dels s 1) ∧
     (m.q1 < 64 →
       (tget s.ctxs key = none → dels s 2) ∧
       ((tget s.ctxs key).isSome = true →
         (ctxIdle s m.part m.q1 = false → dels s 5) ∧
         (ctxIdle s m.part m.q1 = true → ∀ u, u = shootDown s m.part m.q1 (fun _ _ => true) → u.replies = [] →
           dels { u with
             ctxs := tdel u.ctxs key
             saved := u.saved.filter fun v => !(v.1 / 64 % 8 == m.part && v.1 % 64 == m.q1)
             queueLocs := u.queueLocs.filter fun l => l.part != m.part || l.ctx != m.q1
             running := if tget u.running m.part = some m.q1 then tdel u.running m.part else u.running } 0))))

/-- R382 to R385, R381: IMG_LOAD puts an image that the farrier accepts into the flash and refuses any other with 374 logged; one below its
floor, with another magic or with a body of another digest is never accepted; ATTEST writes the report, its first 32 bytes the nonce;
KEY_RETAIN sets RETAIN. -/
def Obligations.ImagesReportsAndKeysAreManaged : Prop :=
  ∀ (s u : State) (m : Mgmt) (bs : List Nat), Hears s m.part → m.odd = none →
    let n := m.q2 - 128 - 2 * 7856
    let i : FlashImage := ⟨bs.take 128, (bs.drop 128).take n, (bs.drop (128 + n)).take 7856, (bs.drop (128 + n + 7856)).take 7856⟩
    let type := leNat (toBytes ((i.header.drop 4).take 2))
    let k := (wget s.parts m.part).toNat / 2 ^ 8 % 16
    -- IMG_LOAD
    (2 ≤ m.q3 → Answers (.imgLoad m) 0x12 m s s 1 0) ∧
    (m.q3 < 2 → 64 ≤ m.q4 → Answers (.imgLoad m) 0x12 m s s 1 0) ∧
    (m.q3 < 2 → m.q4 < 64 → tget s.ctxs (m.part * 64 + m.q4) = none → Answers (.imgLoad m) 0x12 m s s 2 0) ∧
    (m.q3 < 2 → m.q4 < 64 → (tget s.ctxs (m.part * 64 + m.q4)).isSome = true → u.replies = [] →
      (ctxBytes s m.part m.q4 m.q1 m.q2 = (u, none) → Answers (.imgLoad m) 0x12 m s u 1 0) ∧
      (ctxBytes s m.part m.q4 m.q1 m.q2 = (u, some bs) →
        (128 + 2 * 7856 ≤ m.q2 → imageGood u i = true →
          Answers (.imgLoad m) 0x12 m s { u with flash := tset u.flash (m.q3 * 4 + type) i } 0 0) ∧
        (m.q2 < 128 + 2 * 7856 ∨ imageGood u i = false → Answers (.imgLoad m) 0x12 m s (logRas u 8 374 m.q3 0 63) 4 0))) ∧
    (∀ f : FlashImage,
      leNat (toBytes (f.header.take 4)) ≠ 0x474D495A ∨
        leNat (toBytes ((f.header.drop 8).take 4)) < (tget s.minver (leNat (toBytes ((f.header.drop 4).take 2)))).getD 0 ∨
        sha256 f.body ≠ (f.header.drop 16).take 32 ∨ s.owned = true ∧ (f.header.drop 48).take 32 ≠ s.ownerKh →
      imageGood s f = false) ∧
    -- ATTEST
    (m.q5 % 64 ≠ 0 ∨ 64 ≤ m.q6 → Answers (.attest m) 0x13 m s s 1 0) ∧
    (m.q5 % 64 = 0 → m.q6 < 64 → tget s.ctxs (m.part * 64 + m.q6) = none → Answers (.attest m) 0x13 m s s 2 0) ∧
    (m.q5 % 64 = 0 → m.q6 < 64 → (tget s.ctxs (m.part * 64 + m.q6)).isSome = true →
      (∀ c x, ctxRange s m.part m.q6 m.q5 8112 ⟨false, true, false⟩ = (u, some c, x) → u.replies = [] → Answers (.attest m) 0x13 m s u 1 0) ∧
      (∀ ps v, ctxRange s m.part m.q6 m.q5 8112 ⟨false, true, false⟩ = (u, none, ps) →
        v = writePieces { u with nextOp := u.nextOp + 1 } ps 9 u.nextOp (toBytes (report u m)) → v.replies = [] → v.remotes = [] →
        Answers (.attest m) 0x13 m s v 0 0)) ∧
    ((report s m).take 32 = [m.q1, m.q2, m.q3, m.q4].flatMap fun q => (List.range 8).map fun j => q / 256 ^ j % 256) ∧
    -- KEY_RETAIN
    (2 ≤ m.q1 → Answers (.keyRetain m) 0x14 m s s 1 0) ∧
    (m.q1 < 2 → tget s.keys k = none → Answers (.keyRetain m) 0x14 m s s 2 0) ∧
    (∀ x, m.q1 < 2 → tget s.keys k = some x →
      Answers (.keyRetain m) 0x14 m s { s with keys := tset s.keys k { x with retain := m.q1 == 1 } } 0 0)

/-- R388, R389: a signed command runs when its blob is this package's, above the sequence counter and verified: PART_SET makes its entries
the partition table, CLAIM gives an unowned package an owner, OWN_XFER and RELEASE clear the old owner's state, SET_ID sets the identity;
one that is not verified is answered 4, one that ownership or a context forbids 5, and neither changes anything.
THE MODEL'S CHOICE, not the spec's: that the context the blob is read through does not count among those a partition holds (log 13), that
verification is an opaque function (log 55), and RESULT 1 for a body of another length. -/
def Obligations.SignedCommandsRunWhenVerified : Prop :=
  ∀ (s u : State) (m : Mgmt) (bs : List Nat) (b : Blob), Hears s m.part → m.odd = none → m.q3 < 64 → (tget s.ctxs (m.part * 64 + m.q3)).isSome = true →
    ctxBytes s m.part m.q3 m.q1 m.q2 = (u, some bs) → blobOf bs = some b → u.replies = [] →
    let row (k : Nat) : Instr :=
      if k = 1 then .partSet m else if k = 2 then .ownXfer m else if k = 3 then .claim m else if k = 4 then .release m else .setId m
    let tells (v t : State) : Prop := t.outbox = v.outbox ++ [.mgmt m.part 0x15 0 m.tag 0]
    let cleared (t : State) : Prop := t.parts = [] ∧ t.partm = [] ∧ t.ctxs = [] ∧ t.teams = [] ∧ t.blocks = [] ∧ t.spad = [] ∧ t.acc = [] ∧
      t.wbuf = [] ∧ t.l1 = [] ∧ t.l2 = [] ∧ t.paddocks = [] ∧ t.saved = [] ∧ t.chains = [] ∧ t.pkgIdent = none ∧ t.epoch = u.epoch + 1 ∧ t.mem = u.mem ∧ t.minver = u.minver
    let lone := (∀ c ∈ u.ctxs, c.1 = m.part * 64 + m.q3) ∧ ctxIdle u m.part m.q3 = true
    -- what no command changes
    (∀ k, 1 ≤ k → k ≤ 5 → b.op = k →
      (blobGood u b = false → k ≠ 2 ∨ u.owned = true → Answers (row k) 0x15 m s u 4 0) ∧
      (k = 2 ∧ u.owned = false ∨ k = 3 ∧ u.owned = true ∧ blobGood u b = true ∨ k = 4 ∧ u.owned = false ∧ blobGood u b = true →
        Answers (row k) 0x15 m s u 5 0) ∧
      (k = 2 ∨ k = 4 → blobGood u b = true → u.owned = true → b.body.length = 32 → ¬lone → Answers (row k) 0x15 m s u 5 0)) ∧
    (blobGood u b = true →
      (b.devid = padTo 32 Config.devid ∧ u.seqCtr < b.seq) ∧
      -- PART_SET
      (b.op = 1 →
        let es := (List.range 8).map fun i => leNat (toBytes ((b.body.drop (64 * i)).take 64))
        let changed (i : Nat) : Prop := es.getD i 0 ≠ (wget u.parts i).toNat
        (b.body.length ≠ 512 ∨ setGood es = false → Answers (.partSet m) 0x15 m s u 1 0) ∧
        (b.body.length = 512 → setGood es = true →
          ((∃ i c, i < 8 ∧ changed i ∧ c ∈ u.ctxs ∧ c.1 / 64 = i) → Answers (.partSet m) 0x15 m s u 5 0) ∧
          ((∀ i c, i < 8 → changed i → c ∈ u.ctxs → c.1 / 64 ≠ i) → Ends (.partSet m) s fun t =>
            (∀ i, i < 8 → (wget t.parts i).toNat = es.getD i 0 % 2 ^ 512) ∧ t.seqCtr = b.seq ∧ t.ctxs = u.ctxs ∧ t.mem = u.mem ∧ tells u t))) ∧
      -- OWN_XFER, CLAIM, RELEASE
      (b.op = 2 → u.owned = true → b.body.length ≠ 32 → Answers (.ownXfer m) 0x15 m s u 1 0) ∧
      (b.op = 2 → u.owned = true → b.body.length = 32 → lone → Ends (.ownXfer m) s fun t =>
        cleared t ∧ t.owned = true ∧ t.ownerKey = b.body ∧ t.ownerKh = sha256 b.body ∧ t.seqCtr = 0 ∧ tells u t) ∧
      (b.op = 3 → u.owned = false →
        (b.body.length ≠ 32 → Answers (.claim m) 0x15 m s u 1 0) ∧
        (b.body.length = 32 → Answers (.claim m) 0x15 m s
          { u with owned := true, ownerKey := b.body, ownerKh := sha256 b.body, epoch := u.epoch + 1, seqCtr := 0 } 0 0)) ∧
      (b.op = 4 → u.owned = true → lone → Ends (.release m) s fun t =>
        cleared t ∧ t.owned = false ∧ t.ownerKh = [] ∧ t.seqCtr = b.seq ∧ tells u t) ∧
      -- SET_ID
      (b.op = 5 →
        let id := leNat (toBytes (b.body.take 4))
        (b.body.length ≠ 4 ∨ 2 ^ 17 ≤ id → Answers (.setId m) 0x15 m s u 1 0) ∧
        (b.body.length = 4 → id < 2 ^ 17 →
          (¬lone → Answers (.setId m) 0x15 m s u 5 0) ∧
          (lone → Answers (.setId m) 0x15 m s { u with pkgIdent := some id, seqCtr := b.seq } 0 0))))

/-- R329, R381, R390, R391: a cold reset keeps memory under new keys, the secure store and the flash; a warm one also keeps retained keys,
BOOTM and the package log; the pins released, the farrier loads the firmware and the ostler, links train, arrays are cleared and the
package is ready; an integrity error stops every queue and loads the ostler again.
THE MODEL'S CHOICE, not the spec's: which dirty blocks of the fast layer a warm reset loses is a free choice, and what an integrity error
leaves in a queue that waits (log 56). -/
def Obligations.ResetsAndBringUp : Prop :=
  ∀ s u v : State,
    let halted (t : State) : Prop := t.phase = .hold ∧ t.ostler = false ∧ t.teams = [] ∧ t.blocks = [] ∧ t.coaches = [] ∧ t.graphs = [] ∧
      t.ctxs = [] ∧ t.wqs = [] ∧ t.l2 = [] ∧ t.spad = [] ∧ t.acc = [] ∧ t.wbuf = [] ∧ t.tlb = [] ∧ t.ports = [] ∧ t.hostqps = [] ∧
      t.parts = s.parts ∧ t.owned = s.owned ∧ t.ownerKh = s.ownerKh ∧ t.ownerKey = s.ownerKey ∧ t.seqCtr = s.seqCtr ∧ t.minver = s.minver ∧
      t.epoch = s.epoch ∧ t.pkgIdent = s.pkgIdent ∧ t.flash = s.flash ∧ t.outbox = s.outbox ∧ t.clock = 0
    Ends .coldReset s (fun t => halted t ∧ t.mem = s.mem ∧ t.raslogs = [] ∧ t.bootm = List.replicate 32 0 ∧ t.partm = [] ∧
      (risesFrom 0 s.keys = true → ∀ k x, tget s.keys k = some x → ∃ n, s.nextKey ≤ n ∧ tget t.keys k = some { x with key := n })) ∧
    Ends .warmReset s (fun t => halted t ∧ t.bootm = s.bootm ∧ (∀ l, l ∈ t.raslogs ↔ l ∈ s.raslogs ∧ l.1 = 8) ∧
      ((∀ g, g < 8 → flMode s g ≠ 0) → (∀ x ∈ s.memKey, x.1 < 2 ^ 34) → t.mem = s.mem) ∧
      (risesFrom 0 s.keys = true → ∀ k x, tget s.keys k = some x →
        (x.retain = true → tget t.keys k = some x) ∧
        (x.retain = false → ∃ n, s.nextKey ≤ n ∧ tget t.keys k = some { x with key := n }))) ∧
    -- bring-up
    (s.phase ≠ .hold → FallsThrough .pinsReleased s) ∧
    (s.phase = .hold →
      (loadImage s 1 = (u, false) → Gives .pinsReleased s { u with phase := .farrier }) ∧
      (loadImage s 1 = (u, true) → loadImage u 2 = (v, false) → Gives .pinsReleased s { v with ostler := false, phase := .farrier }) ∧
      (loadImage s 1 = (u, true) → loadImage u 2 = (v, true) → Gives .pinsReleased s { v with ostler := true, phase := .train })) ∧
    (∀ type i, tget s.flash type = some i → imageGood s i = true → leNat (toBytes ((i.header.drop 4).take 2)) = type →
      loadImage s type = ({ s with
        bootm := sha256 (s.bootm ++ sha256 i.header)
        minver := if leNat (toBytes ((i.header.drop 6).take 1)) % 2 = 1 then tset s.minver type (leNat (toBytes ((i.header.drop 8).take 4)))
          else s.minver }, true)) ∧
    (∀ hbm ports, (s.phase ≠ .train → FallsThrough (.trainComplete hbm ports) s) ∧
      (s.phase = .train → Ends (.trainComplete hbm ports) s fun t => t.phase = .clear ∧ t.identNow = s.pkgIdent ∧
        (∀ g, g ∈ t.stacksDown ↔ g < 8 ∧ hbm / 2 ^ g % 2 = 0) ∧
        (∀ p, p < 24 → portPart s p < 8 →
          (t.port p).up = (ports / 2 ^ p % 2 == 1 && s.pkgIdent.isSome) ∧ (t.port p).nextSeq = 0 ∧ (t.port p).expSeq = 0) ∧
        ∀ p, 24 ≤ p ∨ portPart s p = 8 → t.port p = s.port p)) ∧
    (s.phase ≠ .clear → FallsThrough .clearComplete s) ∧
    (s.phase = .clear → Ends .clearComplete s fun t => t.phase = .ready ∧ t.wstarted = true ∧ t.spad = [] ∧ t.acc = [] ∧ t.wbuf = [] ∧
      t.l1 = [] ∧ t.l2 = [] ∧ t.teams = [] ∧ t.mem = s.mem ∧ t.parts = s.parts ∧ t.ports = s.ports) ∧
    -- the ostler's integrity
    (s.phase ≠ .ready → FallsThrough .ostlerIntegrityError s) ∧
    (s.phase = .ready → Ends .ostlerIntegrityError s fun t => t.teams = s.teams ∧ t.blocks = s.blocks ∧
      t.graphs = s.graphs ∧ ∀ q w, tget s.wqs q = some w → w.en = true →
        -- a packet of several steps, WRITE_SIGNAL, LAUNCH_GRAPH or COLLECTIVE, is under way
        let cut := w.busy = true ∧ leNat (commandBytes w w.depth w.here 1) ∈ [2, 7, 10]
        (t.wq q).state = 6 ∧ (t.wq q).headp = w.headp ∧ (cut → (t.wq q).err = 9 ∧ (t.wq q).erradr = w.here) ∧
          (¬cut → (t.wq q).err = w.err ∧ (t.wq q).erradr = w.erradr))

/-- R393, R394, R398: an error event enters its log, counted with the newest record when it repeats it and lost when the log is full; an
uncorrectable error poisons a sector or stops every running team of its context; a power limit is logged while it is in force. -/
def Obligations.ErrorsAreLoggedAndContained : Prop :=
  ∀ (s : State) (e : RasEv) (l : RasLog), e.addr < 2 ^ 64 → e.part < 8 → (wget s.parts e.part).toNat % 2 = 1 → tget s.raslogs e.part = some l →
    let newest := tget l.recs ((l.tail - 1) % 256)
    let repeats (r : RasRec) : Prop := r.code = e.code ∧ r.inst = e.inst ∧ r.addr = BitVec.ofNat 64 e.addr
    let logged (x : RasLog) : State := { s with raslogs := tset s.raslogs e.part x }
    let rec_ : RasRec := ⟨BitVec.ofNat 64 s.clock, BitVec.ofNat 64 e.addr, 1, e.ctx, e.part, e.inst, e.code⟩
    let fresh : RasLog := { l with tail := l.tail + 1, recs := tset l.recs (l.tail % 256) rec_ }
    -- correctable and other events
    (e.code / 64 ≠ 5 →
      (∀ r, l.head < l.tail → newest = some r → repeats r → Gives (.rasEvent e) s
        (logged { l with recs := tset l.recs ((l.tail - 1) % 256) { r with count := min (r.count + 1) (2 ^ 32 - 1) } })) ∧
      (∀ r, l.head < l.tail → newest = some r → ¬repeats r → l.tail - l.head = 256 → Gives (.rasEvent e) s (logged { l with lost := l.lost + 1 })) ∧
      (∀ r, l.head < l.tail → newest = some r → ¬repeats r → l.tail - l.head ≠ 256 → Gives (.rasEvent e) s (logged fresh)) ∧
      (l.head = l.tail → Gives (.rasEvent e) s (logged fresh))) ∧
    -- uncorrectable errors
    (e.code = 321 → (∀ t ∈ s.teams, t.1 / 1024 = e.inst → t.2.status ≠ .running) →
      Gives (.rasEvent e) s (logRas s e.part e.code e.inst e.addr e.ctx)) ∧
    (e.code / 64 = 5 → e.code ≠ 321 →
      (e.code % 8 = 1 → e.code / 8 % 8 = 4 →
        Gives (.rasEvent e) s (let t := logRas s e.part e.code e.inst e.addr e.ctx; { t with memPois := insertNat (e.addr / 32) t.memPois })) ∧
      (e.code % 8 = 1 → e.code / 8 % 8 = 3 → ∀ k x, findWay s e.inst (e.addr / 128) = some k → tget s.l2 k = some x →
        Gives (.rasEvent e) s (let t := logRas s e.part e.code e.inst e.addr e.ctx
          { t with l2 := tset t.l2 k { x with pois := x.pois ||| BitVec.ofNat 4 (2 ^ (e.addr / 32 % 4)) } })) ∧
      (e.code % 8 = 2 → e.ctx < 63 → risesFrom 0 s.teams = true → risesFrom 0 s.blocks = true → Ends (.rasEvent e) s fun t =>
        (∀ k x b, tget s.teams k = some x → tget s.blocks (k / 64) = some b → b.part = e.part → b.ctx = e.ctx → b.retired = false →
          x.status = .running → ∃ y, tget t.teams k = some y ∧ y.status = .stopped ∧ y.stop.isSome = true) ∧
        (∀ k b, tget s.blocks (k / 64) = some b → b.part ≠ e.part ∨ b.ctx ≠ e.ctx → tget t.teams k = tget s.teams k) ∧
        (∀ q w, risesFrom 0 s.wqs = true → tget s.wqs q = some w → w.part = e.part → w.ctx = e.ctx → w.en = true → w.busy = false →
          w.state = 1 ∨ w.state = 2 ∨ w.state = 3 → (t.wq q).state = 6))) ∧
    -- power
    (∀ inst,
      let t := { s with power := insertNat (min inst 8) s.power }
      (inst < 8 → Gives (.powerLimit inst) s (logRas t (groupLog s inst) 356 inst 0 63)) ∧
      (8 ≤ inst → Gives (.powerLimit inst) s (logRas t 8 380 0 0 63)) ∧
      Gives (.powerLimitLifted inst) s { s with power := s.power.filter fun k => k != min inst 8 })

/-- R327 and the other worked encodings of the spec: a word printed there decodes to the instruction it stands for; the two words of R327
are also what the encoder gives. -/
def Obligations.PrintedWordsDecode : Prop :=
  decodeTableWord 32 0x010420C0 = some (.sadd 1 2 3) ∧
  decodeTableWord 64 (0x3810108C + 0x7F008000 * 2 ^ 32) = some (.faddLong ⟨4, 1, 2, 3, 0⟩ 1) ∧
  decodeTableWord 32 0x1115FFFD = some (.brc 5 1 0xFFFD) ∧
  decodeTableWord 64 (0x62287342 + 0x7F000100 * 2 ^ 32) = some (.ldg32Long ⟨10, 7, 3, 4, 2⟩ 256) ∧
  decodeTableWord 64 (0x70084380 + 0x7F1809FB * 2 ^ 32) = some (.atg ⟨2, 4, 3, 4, 0, 0, 6, 9, 15, 11⟩) ∧
  decodeTableWord 32 0x79003F28 = some (.bsyn 3 1) ∧
  decodeTableWord 32 0x7E000002 = some .eret ∧
  decodeTableWord 32 0x7E140003 = some (.tlbi 5 0) ∧ encode false (.tlbi 5 0) = [0x7E140003] ∧
  decodeTableWord 32 0x7E000043 = some (.tlbi 0 1) ∧ encode false (.tlbi 0 1) = [0x7E000043] ∧
  decodeCoachWords [0x03184480, 0x7FF0003F] = some (.mma ⟨3, 1, 2, 4, 0, 0⟩ 15 false 0 63)

/-- R57, R65, R73, R78 to R84: every instruction that a stream can hold, with every operand its encoding admits, decodes from its own words:
a team's in any slot with any words behind it, a coachman's likewise. -/
def Obligations.EncodedInstructionsDecode : Prop :=
  ∀ (i : Instr) (chain : Bool) (k : Nat) (behind : List Nat), i.wf = true →
    (∀ f x, i.enc = .team f x → (∀ y, behind.head? = some y → isExtWord y = false) → (chain = true → k = 1 → x = none) →
      encode chain i = mkWord chain f :: (x.map mkExt).toList ∧
      decodeAt k (mkWord chain f) ((x.map mkExt).toList ++ behind) =
        .ok ⟨k, (encode chain i).length, chain, f.op, mkWord chain f, i⟩ ∧
      decodeTeamWords (encode chain i) = some i) ∧
    (∀ op body pay, i.enc = .coach op body pay →
      ∃ o, o.instr = i ∧ decodeCoachWords (encode chain i) = some o ∧
        ∀ w ws, encode chain i = w :: ws → decodeCoachAt k w (ws ++ behind) = .ok ⟨k, (encode chain i).length, w, o⟩)

/-- R23, R58, R60, R68, R73, R178: one of those who may move moves and time passes. A team alone at an unchained instruction runs that
instruction and goes on behind it: of the packet in its buffer, or of a new packet fetched, checked and decoded from its image. The same
for a coachman, and for an arrival from outside.
THE MODEL'S CHOICE, not the spec's: which of several moves a step makes is a free choice (log 57). -/
def Obligations.StepRunsTheDecodedInstruction : Prop :=
  ∀ (s a x : State) (k : Nat) (ws : List Nat),
    let ends (y : State) : State := tick s.fresh (if y.fate = .stalled then y else wakeAll y)
    let behind (i : Issue) (user : Bool) : State :=
      afterIssue (i.slot + i.size) user (if x.fate = .completed ∨ x.fate = .stalled then x.modTeam fun t => { t with slot := i.slot } else x)
    -- nothing may move
    (acts s = [] → step s = .next (tick s.fresh s)) ∧
    -- a team
    (∀ core part s0 i, acts s = [.team core part] → pickTeam (s.withFate .completed) core part = some (k, s0) →
      a = ({ s0 with cur := teamUnit k }).withFate .completed →
      (a.team.ibuf = some ws → chainAt ws a.team.slot = [i] → i.slot = a.team.slot →
        exec i.instr (atSlot i.slot a) = .next x → step s = .next (ends (behind i (!a.team.priv)))) ∧
      (∀ b c d ls, a.team.ibuf = none → b = a.modTeam (fun t => { t.settle with fpnew := 0 }) → b.team.priv = false → b.team.tinj = none →
        b.team.halt = false → (b.team.skip = false → breakAt b.team 0 b.team.pkt = false) → b.team.pkt < b.block.kern.npkt →
        fetchPages b ((b.block.kern.code + b.team.pkt * 12) % 2 ^ 64) = (c, .ok ls) → d = dropMisses c (requester b.cur) →
        ws = packetWords (mread b.block.kern.image (b.team.pkt * 12) 12) → d.team.slot = 0 →
        inPool d d.team.pkt ws = false → (checkPacket d ws).isOk = true → decodeAt 0 (ws.getD 0 0) (ws.drop 1) = .ok i → i.chain = false →
        exec i.instr (atSlot 0 (d.modTeam fun t => { t with ibuf := some ws })) = .next x →
        let y := behind i (!d.team.priv)
        step s = .next (ends (if y.fate = .stalled then y.modTeam fun t => { t with blocked := true } else y)))) ∧
    -- a coachman
    (∀ is o, acts s = [.coach k] → a = ({ s.withFate .completed with cur := coachUnit k }).withFate .completed →
      a.coach.ibuf = some ws → decodeCoachFrom 3 0 ws = .ok is → is.find? (fun j => j.slot == a.coach.slot) = some o →
      exec o.op.instr a = .next x → step s = .next (ends (coachFinish (o.slot + o.size) x))) ∧
    -- an arrival
    (∀ i rest, acts s = [.input] → s.inputs = i :: rest → exec i (s.withFate .completed) = .next x → x.fate ≠ .stalled →
      step s = .next (tick s.fresh (wakeAll { x with inputs := rest })))

/-- R375: main memory keeps the one canonical form the model gives it (log 5), whatever moves.
THE MODEL'S CHOICE, not the spec's: an unlisted byte of main memory reads as zero (log 5); R390 and R391 give the zeros of the on-chip
arrays. -/
def Obligations.StepsKeepMemoryCanonical : Prop :=
  ∀ s t : State, Memory.wf s.mem = true → step s = .next t → Memory.wf t.mem = true

/-- R389: whatever moves, the owner's key hash stays the hash of the owner's key, and an unowned package has neither. -/
def Obligations.StepsKeepTheOwnersHash : Prop :=
  ∀ s t : State,
    let owner (u : State) : Prop := (u.owned = true → u.ownerKh = sha256 u.ownerKey) ∧ (u.owned = false → u.ownerKh = [] ∧ u.ownerKey = [])
    owner s → step s = .next t → owner t

/-- R380, R390, R391: after reset the package is in HOLD, nothing is resident, every array and table is empty, BOOTM is zero and no
partition has any; main memory is canonical, and the package has no owner.
THE MODEL'S CHOICE, not the spec's: the contents of the secure store, keys and flash of a package that is new (log 6). -/
def Obligations.ResetLeavesTheStatedState : Prop :=
  let s := State.reset
  s.phase = .hold ∧ s.teams = [] ∧ s.blocks = [] ∧ s.coaches = [] ∧ s.graphs = [] ∧ s.wqs = [] ∧ s.ctxs = [] ∧ s.ostler = false ∧
  s.spad = [] ∧ s.acc = [] ∧ s.wbuf = [] ∧ s.l1 = [] ∧ s.l2 = [] ∧ s.tlb = [] ∧ s.raslogs = [] ∧ s.bootm = List.replicate 32 0 ∧
  s.partm = [] ∧ Memory.wf s.mem = true ∧ s.owned = false ∧ s.ownerKh = [] ∧ s.ownerKey = []
end

