-- ==== Sys2Proof/Laws/PerInstr.lean ====
section
/-! SUPPORT. One lemma for each instruction: its encoding has an extension word exactly where the length class of its opcode asks for
or allows one (R57, R73, R80). -/

namespace Sys2Proof.Laws.LengthClass

/-- An encoding agrees with the length class of its opcode. -/
def fits : Enc → Bool
  | .team f x =>
    f.op != 0x17 && (match lenClass f.op with
      | .unassigned => false
      | .short => x.isNone
      | .long => x.isSome
      | .optional => true)
  | .coach op _ pay => decide (op < 0x0D) && coachLong op == pay.isSome
  | .nowhere => true

/-- The encoding of the instruction agrees with the length class of its opcode. -/
def Statement (i : Instr) : Prop := fits i.enc = true

theorem sadd (d : Nat) (a : Nat) (b : Nat) : Statement (.sadd d a b) := rfl
theorem ssub (d : Nat) (a : Nat) (b : Nat) : Statement (.ssub d a b) := rfl
theorem smul (d : Nat) (a : Nat) (b : Nat) : Statement (.smul d a b) := rfl
theorem smulh (d : Nat) (a : Nat) (b : Nat) : Statement (.smulh d a b) := rfl
theorem sand (d : Nat) (a : Nat) (b : Nat) : Statement (.sand d a b) := rfl
theorem sor (d : Nat) (a : Nat) (b : Nat) : Statement (.sor d a b) := rfl
theorem sxor (d : Nat) (a : Nat) (b : Nat) : Statement (.sxor d a b) := rfl
theorem sandn (d : Nat) (a : Nat) (b : Nat) : Statement (.sandn d a b) := rfl
theorem sshl (d : Nat) (a : Nat) (b : Nat) : Statement (.sshl d a b) := rfl
theorem sshr (d : Nat) (a : Nat) (b : Nat) : Statement (.sshr d a b) := rfl
theorem ssar (d : Nat) (a : Nat) (b : Nat) : Statement (.ssar d a b) := rfl
theorem smin (d : Nat) (a : Nat) (b : Nat) : Statement (.smin d a b) := rfl
theorem smax (d : Nat) (a : Nat) (b : Nat) : Statement (.smax d a b) := rfl
theorem sminu (d : Nat) (a : Nat) (b : Nat) : Statement (.sminu d a b) := rfl
theorem smaxu (d : Nat) (a : Nat) (b : Nat) : Statement (.smaxu d a b) := rfl
theorem sclz (d : Nat) (a : Nat) : Statement (.sclz d a) := rfl
theorem spopc (d : Nat) (a : Nat) : Statement (.spopc d a) := rfl
theorem smov (d : Nat) (a : Nat) : Statement (.smov d a) := rfl
theorem smad (d : Nat) (a : Nat) (b : Nat) (r : Nat) : Statement (.smad d a b r) := rfl
theorem ssel (d : Nat) (a : Nat) (b : Nat) (r : Nat) : Statement (.ssel d a b r) := rfl
theorem sbfx (d : Nat) (a : Nat) (p : Nat) (l : Nat) : Statement (.sbfx d a p l) := rfl
theorem sbfi (d : Nat) (a : Nat) (p : Nat) (l : Nat) : Statement (.sbfi d a p l) := rfl
theorem scmp (d : Nat) (a : Nat) (b : Nat) (q : Nat) : Statement (.scmp d a b q) := rfl
theorem sldi (d : Nat) (i : Nat) : Statement (.sldi d i) := rfl
theorem sldiLong (d : Nat) (i : Nat) : Statement (.sldiLong d i) := rfl
theorem saddi (d : Nat) (a : Nat) (i : Nat) : Statement (.saddi d a i) := rfl
theorem saddiLong (d : Nat) (a : Nat) (i : Nat) : Statement (.saddiLong d a i) := rfl
theorem sldl (d : Nat) (a : Nat) (i : Nat) : Statement (.sldl d a i) := rfl
theorem sldlLong (d : Nat) (a : Nat) (i : Nat) : Statement (.sldlLong d a i) := rfl
theorem sget (d : Nat) (n : Nat) : Statement (.sget d n) := rfl
theorem sgetRcv (d : Nat) (n : Nat) : Statement (.sgetRcv d n) := rfl
theorem ssetSnd (a : Nat) (n : Nat) : Statement (.ssetSnd a n) := rfl
theorem ssetSndcfg (a : Nat) (n : Nat) : Statement (.ssetSndcfg a n) := rfl
theorem ssetMask (a : Nat) : Statement (.ssetMask a) := rfl
theorem ssetFpmode (a : Nat) : Statement (.ssetFpmode a) := rfl
theorem ssetFpflags (a : Nat) : Statement (.ssetFpflags a) := rfl
theorem ssetGreedy (a : Nat) : Statement (.ssetGreedy a) := rfl
theorem bra (o : Nat) : Statement (.bra o) := rfl
theorem brc (r : Nat) (q : Nat) (o : Nat) : Statement (.brc r q o) := rfl
theorem brm (q : Nat) (o : Nat) : Statement (.brm q o) := rfl
theorem call (k : Nat) (o : Nat) : Statement (.call k o) := rfl
theorem jmp (a : Nat) : Statement (.jmp a) := rfl
theorem callr (k : Nat) (a : Nat) : Statement (.callr k a) := rfl
theorem ret (k : Nat) (a : Nat) : Statement (.ret k a) := rfl
theorem wait (m : Nat) : Statement (.wait m) := rfl
theorem trap (i : Nat) : Statement (.trap i) := rfl
theorem brk (i : Nat) : Statement (.brk i) := rfl
theorem pand (d : Nat) (a : Nat) (b : Nat) : Statement (.pand d a b) := rfl
theorem por (d : Nat) (a : Nat) (b : Nat) : Statement (.por d a b) := rfl
theorem pxor (d : Nat) (a : Nat) (b : Nat) : Statement (.pxor d a b) := rfl
theorem pandn (d : Nat) (a : Nat) (b : Nat) : Statement (.pandn d a b) := rfl
theorem pnot (d : Nat) (a : Nat) : Statement (.pnot d a) := rfl
theorem pmov (d : Nat) (a : Nat) : Statement (.pmov d a) := rfl
theorem pseti (d : Nat) (v : Nat) : Statement (.pseti d v) := rfl
theorem pany (d : Nat) (a : Nat) : Statement (.pany d a) := rfl
theorem pall (d : Nat) (a : Nat) : Statement (.pall d a) := rfl
theorem pcnt (d : Nat) (a : Nat) : Statement (.pcnt d a) := rfl
theorem pfirst (d : Nat) (a : Nat) : Statement (.pfirst d a) := rfl
theorem mpush (a : Nat) : Statement (.mpush a) := rfl
theorem msave (d : Nat) : Statement (.msave d) := rfl
theorem mload (a : Nat) : Statement (.mload a) := rfl
theorem vadd (o : V3) : Statement (.vadd o) := rfl
theorem vsub (o : V3) : Statement (.vsub o) := rfl
theorem vadds (o : V3) : Statement (.vadds o) := rfl
theorem vsubs (o : V3) : Statement (.vsubs o) := rfl
theorem vmul (o : V3) : Statement (.vmul o) := rfl
theorem vmulh (o : V3) : Statement (.vmulh o) := rfl
theorem vmad (o : V3) (r : Nat) : Statement (.vmad o r) := rfl
theorem vdot4 (o : V3) (r : Nat) (sat : Bool) : Statement (.vdot4 o r sat) := rfl
theorem vand (o : V3) : Statement (.vand o) := rfl
theorem vor (o : V3) : Statement (.vor o) := rfl
theorem vxor (o : V3) : Statement (.vxor o) := rfl
theorem vshl (o : V3) : Statement (.vshl o) := rfl
theorem vshr (o : V3) : Statement (.vshr o) := rfl
theorem vsar (o : V3) : Statement (.vsar o) := rfl
theorem vmin (o : V3) : Statement (.vmin o) := rfl
theorem vmax (o : V3) : Statement (.vmax o) := rfl
theorem vminu (o : V3) : Statement (.vminu o) := rfl
theorem vmaxu (o : V3) : Statement (.vmaxu o) := rfl
theorem vabs (o : V2) : Statement (.vabs o) := rfl
theorem vneg (o : V2) : Statement (.vneg o) := rfl
theorem vclz (o : V2) : Statement (.vclz o) := rfl
theorem vpopc (o : V2) : Statement (.vpopc o) := rfl
theorem vmov (o : V2) : Statement (.vmov o) := rfl
theorem vlane (d : Nat) (g : Nat) : Statement (.vlane d g) := rfl
theorem vbcs (o : V2) : Statement (.vbcs o) := rfl
theorem vbfx (o : V2) (p : Nat) (l : Nat) : Statement (.vbfx o p l) := rfl
theorem vbfi (o : V2) (p : Nat) (l : Nat) : Statement (.vbfi o p l) := rfl
theorem vsel (o : V3) (r : Nat) : Statement (.vsel o r) := rfl
theorem vcmp (o : V3) (q : Nat) : Statement (.vcmp o q) := rfl
theorem vldi (d : Nat) (i : Nat) : Statement (.vldi d i) := rfl
theorem vldiLong (d : Nat) (i : Nat) : Statement (.vldiLong d i) := rfl
theorem fadd (o : V3) : Statement (.fadd o) := rfl
theorem faddLong (o : V3) (rm : Nat) : Statement (.faddLong o rm) := rfl
theorem fsub (o : V3) : Statement (.fsub o) := rfl
theorem fsubLong (o : V3) (rm : Nat) : Statement (.fsubLong o rm) := rfl
theorem fmul (o : V3) : Statement (.fmul o) := rfl
theorem fmulLong (o : V3) (rm : Nat) : Statement (.fmulLong o rm) := rfl
theorem ffma (o : V3) (r : Nat) (rm : Nat) : Statement (.ffma o r rm) := rfl
theorem fmin (o : V3) : Statement (.fmin o) := rfl
theorem fmax (o : V3) : Statement (.fmax o) := rfl
theorem fminp (o : V3) : Statement (.fminp o) := rfl
theorem fmaxp (o : V3) : Statement (.fmaxp o) := rfl
theorem fabs (o : V2) : Statement (.fabs o) := rfl
theorem fneg (o : V2) : Statement (.fneg o) := rfl
theorem fcps (o : V3) : Statement (.fcps o) := rfl
theorem fcmp (o : V3) (q : Nat) : Statement (.fcmp o q) := rfl
theorem fcls (o : V2) : Statement (.fcls o) := rfl
theorem fscl (o : V3) : Statement (.fscl o) := rfl
theorem fsclLong (o : V3) (rm : Nat) : Statement (.fsclLong o rm) := rfl
theorem fcvt (o : V2) (sf : Nat) (df : Nat) (rm : Nat) (sat : Bool) : Statement (.fcvt o sf df rm sat) := rfl
theorem frnd (o : V2) : Statement (.frnd o) := rfl
theorem frndLong (o : V2) (rm : Nat) : Statement (.frndLong o rm) := rfl
theorem fcvi (o : V2) (ity : Nat) (rm : Nat) (sat : Bool) : Statement (.fcvi o ity rm sat) := rfl
theorem fciv (o : V2) (ity : Nat) (rm : Nat) : Statement (.fciv o ity rm) := rfl
theorem fdiv (o : V3) : Statement (.fdiv o) := rfl
theorem fdivLong (o : V3) (rm : Nat) : Statement (.fdivLong o rm) := rfl
theorem fsqrt (o : V2) : Statement (.fsqrt o) := rfl
theorem fsqrtLong (o : V2) (rm : Nat) : Statement (.fsqrtLong o rm) := rfl
theorem fdot2 (o : V3) (r : Nat) (rm : Nat) : Statement (.fdot2 o r rm) := rfl
theorem frcp (o : V2) : Statement (.frcp o) := rfl
theorem frsq (o : V2) : Statement (.frsq o) := rfl
theorem fexp2 (o : V2) : Statement (.fexp2 o) := rfl
theorem flog2 (o : V2) : Statement (.flog2 o) := rfl
theorem fsin (o : V2) : Statement (.fsin o) := rfl
theorem fcos (o : V2) : Statement (.fcos o) := rfl
theorem ftanh (o : V2) : Statement (.ftanh o) := rfl
theorem fsigm (o : V2) : Statement (.fsigm o) := rfl
theorem ftab (d : Nat) (a : Nat) (n : Nat) (g : Nat) : Statement (.ftab d a n g) := rfl
theorem tabld (n : Nat) (s : Nat) (f : Nat) : Statement (.tabld n s f) := rfl
theorem shfl (o : V3) : Statement (.shfl o) := rfl
theorem shfu (d : Nat) (a : Nat) (n : Nat) : Statement (.shfu d a n) := rfl
theorem shfd (d : Nat) (a : Nat) (n : Nat) : Statement (.shfd d a n) := rfl
theorem shfx (d : Nat) (a : Nat) (n : Nat) : Statement (.shfx d a n) := rfl
theorem vbcl (d : Nat) (a : Nat) (n : Nat) : Statement (.vbcl d a n) := rfl
theorem vred (o : V2) (q : Nat) : Statement (.vred o q) := rfl
theorem vscn (o : V2) (q : Nat) : Statement (.vscn o q) := rfl
theorem fred (o : V2) (q : Nat) : Statement (.fred o q) := rfl
theorem fscn (o : V2) (q : Nat) : Statement (.fscn o q) := rfl
theorem ball (d : Nat) (a : Nat) (g : Nat) : Statement (.ball d a g) := rfl
theorem vmtc (o : V2) : Statement (.vmtc o) := rfl
theorem vcpt (o : V2) : Statement (.vcpt o) := rfl
theorem vhq (o : V3) (r : Nat) (q : Nat) : Statement (.vhq o r q) := rfl
theorem vq8 (o : V2) (r : Nat) (q : Nat) (rm : Nat) (sat : Bool) : Statement (.vq8 o r q rm sat) := rfl
theorem vdq (o : V2) (r : Nat) (q : Nat) : Statement (.vdq o r q) := rfl
theorem vbsd (o : V3) (r : Nat) (q : Nat) (rm : Nat) : Statement (.vbsd o r q rm) := rfl
theorem ldg8 (o : MOp) : Statement (.ldg8 o) := rfl
theorem ldg8Long (o : MOp) (off : Nat) : Statement (.ldg8Long o off) := rfl
theorem ldg16 (o : MOp) : Statement (.ldg16 o) := rfl
theorem ldg16Long (o : MOp) (off : Nat) : Statement (.ldg16Long o off) := rfl
theorem ldg32 (o : MOp) : Statement (.ldg32 o) := rfl
theorem ldg32Long (o : MOp) (off : Nat) : Statement (.ldg32Long o off) := rfl
theorem ldg64 (o : MOp) : Statement (.ldg64 o) := rfl
theorem ldg64Long (o : MOp) (off : Nat) : Statement (.ldg64Long o off) := rfl
theorem stg8 (o : MSt) : Statement (.stg8 o) := rfl
theorem stg8Long (o : MSt) (off : Nat) : Statement (.stg8Long o off) := rfl
theorem stg16 (o : MSt) : Statement (.stg16 o) := rfl
theorem stg16Long (o : MSt) (off : Nat) : Statement (.stg16Long o off) := rfl
theorem stg32 (o : MSt) : Statement (.stg32 o) := rfl
theorem stg32Long (o : MSt) (off : Nat) : Statement (.stg32Long o off) := rfl
theorem stg64 (o : MSt) : Statement (.stg64 o) := rfl
theorem stg64Long (o : MSt) (off : Nat) : Statement (.stg64Long o off) := rfl
theorem ldl32 (o : MOp) : Statement (.ldl32 o) := rfl
theorem ldl32Long (o : MOp) (off : Nat) : Statement (.ldl32Long o off) := rfl
theorem ldl64 (o : MOp) : Statement (.ldl64 o) := rfl
theorem ldl64Long (o : MOp) (off : Nat) : Statement (.ldl64Long o off) := rfl
theorem stl32 (o : MSt) : Statement (.stl32 o) := rfl
theorem stl32Long (o : MSt) (off : Nat) : Statement (.stl32Long o off) := rfl
theorem stl64 (o : MSt) : Statement (.stl64 o) := rfl
theorem stl64Long (o : MSt) (off : Nat) : Statement (.stl64Long o off) := rfl
theorem ldx (o : MOp) : Statement (.ldx o) := rfl
theorem ldxLong (o : MOp) (off : Nat) : Statement (.ldxLong o off) := rfl
theorem stx (o : MSt) : Statement (.stx o) := rfl
theorem stxLong (o : MSt) (off : Nat) : Statement (.stxLong o off) := rfl
theorem ldk32 (d : Nat) (s : Nat) : Statement (.ldk32 d s) := rfl
theorem ldk32Long (d : Nat) (s : Nat) (off : Nat) : Statement (.ldk32Long d s off) := rfl
theorem ldk64 (d : Nat) (s : Nat) : Statement (.ldk64 d s) := rfl
theorem ldk64Long (d : Nat) (s : Nat) (off : Nat) : Statement (.ldk64Long d s off) := rfl
theorem tld (s : Nat) (f : Nat) : Statement (.tld s f) := rfl
theorem tldLong (s : Nat) (f : Nat) (off : Nat) : Statement (.tldLong s f off) := rfl
theorem tst (s : Nat) (f : Nat) : Statement (.tst s f) := rfl
theorem tstLong (s : Nat) (f : Nat) (off : Nat) : Statement (.tstLong s f off) := rfl
theorem pfg (a : Nat) (s : Nat) (g : Nat) : Statement (.pfg a s g) := rfl
theorem pfgLong (a : Nat) (s : Nat) (g : Nat) (off : Nat) : Statement (.pfgLong a s g off) := rfl
theorem xmap (s : Nat) : Statement (.xmap s) := rfl
theorem xmapLong (s : Nat) (off : Nat) : Statement (.xmapLong s off) := rfl
theorem xunmap (s : Nat) : Statement (.xunmap s) := rfl
theorem xwb (s : Nat) : Statement (.xwb s) := rfl
theorem xinv (s : Nat) : Statement (.xinv s) := rfl
theorem atg (o : AtOp) : Statement (.atg o) := rfl
theorem atl (o : AtOp) : Statement (.atl o) := rfl
theorem redg (o : RedOp) : Statement (.redg o) := rfl
theorem redl (o : RedOp) : Statement (.redl o) := rfl
theorem enq (s : Nat) (v : Nat) (f : Nat) (m : Nat) : Statement (.enq s v f m) := rfl
theorem deq (s : Nat) (v : Nat) (f : Nat) (m : Nat) : Statement (.deq s v f m) := rfl
theorem qlen (s : Nat) (v : Nat) : Statement (.qlen s v) := rfl
theorem qcls (s : Nat) : Statement (.qcls s) := rfl
theorem grab (s : Nat) (v : Nat) : Statement (.grab s v) := rfl
theorem fence (p : Nat) (m : Nat) : Statement (.fence p m) := rfl
theorem acq (s : Nat) (p : Nat) (m : Nat) : Statement (.acq s p m) := rfl
theorem rel (s : Nat) (p : Nat) : Statement (.rel s p) := rfl
theorem teth (s : Nat) (v : Nat) (p : Nat) : Statement (.teth s v p) := rfl
theorem unte (s : Nat) (v : Nat) (p : Nat) : Statement (.unte s v p) := rfl
theorem barv (s : Nat) (v : Nat) (p : Nat) : Statement (.barv s v p) := rfl
theorem bwat (s : Nat) (v : Nat) (p : Nat) : Statement (.bwat s v p) := rfl
theorem bsyn (v : Nat) (p : Nat) : Statement (.bsyn v p) := rfl
theorem bmsk (s : Nat) (v : Nat) (p : Nat) (m : Nat) : Statement (.bmsk s v p m) := rfl
theorem aini (s : Nat) (v : Nat) : Statement (.aini s v) := rfl
theorem aarv (s : Nat) (v : Nat) (p : Nat) (m : Nat) : Statement (.aarv s v p m) := rfl
theorem awat (s : Nat) (v : Nat) (p : Nat) : Statement (.awat s v p) := rfl
theorem wadr (s : Nat) (v : Nat) (p : Nat) (m : Nat) : Statement (.wadr s v p m) := rfl
theorem dcpy (o : DrOp) : Statement (.dcpy o) := rfl
theorem dcpyLong (o : DrOp) (aoff : Nat) : Statement (.dcpyLong o aoff) := rfl
theorem dgth (o : DrOp) : Statement (.dgth o) := rfl
theorem dgthLong (o : DrOp) (aoff : Nat) : Statement (.dgthLong o aoff) := rfl
theorem dsct (o : DrOp) : Statement (.dsct o) := rfl
theorem dsctLong (o : DrOp) (aoff : Nat) : Statement (.dsctLong o aoff) := rfl
theorem dmcs (o : DrOp) : Statement (.dmcs o) := rfl
theorem dmcsLong (o : DrOp) (aoff : Nat) : Statement (.dmcsLong o aoff) := rfl
theorem dcmt (o : DrOp) : Statement (.dcmt o) := rfl
theorem dcmtLong (o : DrOp) (aoff : Nat) : Statement (.dcmtLong o aoff) := rfl
theorem dfil (o : DrOp) : Statement (.dfil o) := rfl
theorem dfilLong (o : DrOp) (aoff : Nat) : Statement (.dfilLong o aoff) := rfl
theorem dcol (o : DrOp) : Statement (.dcol o) := rfl
theorem dcolLong (o : DrOp) (aoff : Nat) : Statement (.dcolLong o aoff) := rfl
theorem dsts (x : Nat) : Statement (.dsts x) := rfl
theorem dfnc (y : Nat) : Statement (.dfnc y) := rfl
theorem pdnew (x : Nat) (y : Nat) : Statement (.pdnew x y) := rfl
theorem pdatt (x : Nat) (y : Nat) (f : Nat) : Statement (.pdatt x y f) := rfl
theorem pddet (x : Nat) : Statement (.pddet x) := rfl
theorem pdevi (x : Nat) (y : Nat) : Statement (.pdevi x y) := rfl
theorem pdqry (x : Nat) : Statement (.pdqry x) := rfl
theorem csrr (d : Nat) (n : Nat) : Statement (.csrr d n) := rfl
theorem csrw (a : Nat) (n : Nat) : Statement (.csrw a n) := rfl
theorem csrwTinj (a : Nat) : Statement (.csrwTinj a) := rfl
theorem tlbi (a : Nat) (k : Nat) : Statement (.tlbi a k) := rfl
theorem sread (p : Nat) : Statement (.sread p) := rfl
theorem nop : Statement (.nop) := rfl
theorem exit : Statement (.exit) := rfl
theorem yield : Statement (.yield) := rfl
theorem melse : Statement (.melse) := rfl
theorem mpop : Statement (.mpop) := rfl
theorem eret : Statement (.eret) := rfl
theorem halt : Statement (.halt) := rfl
theorem mnop : Statement (.mnop) := rfl
theorem msetz (r : RegZ) : Statement (.msetz r) := rfl
theorem mzer (z : Nat) : Statement (.mzer z) := rfl
theorem mma (o : MmaOp) (mf : Nat) (shr : Bool) (arank : Nat) (k : Nat) : Statement (.mma o mf shr arank k) := rfl
theorem mmag (o : MmaOp) (mf : Nat) (zt : Nat) (gm : Nat) (k : Nat) : Statement (.mmag o mf zt gm k) := rfl
theorem mmat (o : MmaOp) (mf : Nat) (zm : Nat) (k : Nat) : Statement (.mmat o mf zm k) := rfl
theorem mldw (zw : Nat) (zs : Nat) (mf : Nat) : Statement (.mldw zw zs mf) := rfl
theorem mdrn (zd : Nat) (zs : Nat) (sh : Nat) (sat : Bool) (act : Bool) (tbl : Nat) (mf : Nat) (zero : Bool) : Statement (.mdrn zd zs sh sat act tbl mf zero) := rfl
theorem mbar (n : Nat) (m : Nat) : Statement (.mbar n m) := rfl
theorem mwat (k : Nat) (st : Bool) (off : Nat) : Statement (.mwat k st off) := rfl
theorem mlop (n : Nat) (cnt : Nat) : Statement (.mlop n cnt) := rfl
theorem mbra (o : Nat) : Statement (.mbra o) := rfl
theorem mbraLoop (n : Nat) (o : Nat) : Statement (.mbraLoop n o) := rfl
theorem mend : Statement (.mend) := rfl
theorem tableSwap (core : Nat) (t : Nat) : Statement (.tableSwap core t) := rfl
theorem drayJobStop (id : Nat) : Statement (.drayJobStop id) := rfl
theorem drayJobComplete (id : Nat) : Statement (.drayJobComplete id) := rfl
theorem paddockWritebackComplete (id : Nat) : Statement (.paddockWritebackComplete id) := rfl
theorem paddockFillComplete (id : Nat) : Statement (.paddockFillComplete id) := rfl
theorem arrayDispatch (id : Nat) : Statement (.arrayDispatch id) := rfl
theorem matrixOpComplete (id : Nat) : Statement (.matrixOpComplete id) := rfl
theorem loadComplete (id : Nat) : Statement (.loadComplete id) := rfl
theorem storeAck (id : Nat) : Statement (.storeAck id) := rfl
theorem atomicComplete (id : Nat) : Statement (.atomicComplete id) := rfl
theorem sliceLoad (id : Nat) : Statement (.sliceLoad id) := rfl
theorem sliceStore (id : Nat) : Statement (.sliceStore id) := rfl
theorem sliceAtomic (id : Nat) : Statement (.sliceAtomic id) := rfl
theorem sliceReduce (id : Nat) : Statement (.sliceReduce id) := rfl
theorem sliceLineFill (slice : Nat) (line : Nat) : Statement (.sliceLineFill slice line) := rfl
theorem tileLockAcquired (id : Nat) : Statement (.tileLockAcquired id) := rfl
theorem tileComplete (id : Nat) : Statement (.tileComplete id) := rfl
theorem enqAtHome (id : Nat) : Statement (.enqAtHome id) := rfl
theorem deqAtHome (id : Nat) : Statement (.deqAtHome id) := rfl
theorem deqWaitServed (id : Nat) : Statement (.deqWaitServed id) := rfl
theorem grabAtHome (id : Nat) : Statement (.grabAtHome id) := rfl
theorem queueReply (id : Nat) : Statement (.queueReply id) := rfl
theorem queueRefillMove (q : Nat) : Statement (.queueRefillMove q) := rfl
theorem prodsDecrement (q : Nat) : Statement (.prodsDecrement q) := rfl
theorem guardRequestAtHome (id : Nat) : Statement (.guardRequestAtHome id) := rfl
theorem guardGrant (id : Nat) : Statement (.guardGrant id) := rfl
theorem guardReleaseAtHome (id : Nat) : Statement (.guardReleaseAtHome id) := rfl
theorem reinFlitDeliver (unit : Nat) (ch : Nat) : Statement (.reinFlitDeliver unit ch) := rfl
theorem faultRecordEnqueue (unit : Nat) : Statement (.faultRecordEnqueue unit) := rfl
theorem pageWalkComplete (id : Nat) : Statement (.pageWalkComplete id) := rfl
theorem distributorEvaluate (core : Nat) : Statement (.distributorEvaluate core) := rfl
theorem maxbClaimReply (core : Nat) : Statement (.maxbClaimReply core) := rfl
theorem hitchRequest (cluster : Nat) : Statement (.hitchRequest cluster) := rfl
theorem hitchReserve (cluster : Nat) (core : Nat) : Statement (.hitchReserve cluster core) := rfl
theorem hitchResponse (cluster : Nat) : Statement (.hitchResponse cluster) := rfl
theorem hitchCommit (cluster : Nat) (core : Nat) : Statement (.hitchCommit cluster core) := rfl
theorem hitchCancel (cluster : Nat) (core : Nat) : Statement (.hitchCancel cluster core) := rfl
theorem blockRetire (unit : Nat) : Statement (.blockRetire unit) := rfl
theorem completionEventEnqueue (core : Nat) : Statement (.completionEventEnqueue core) := rfl
theorem launchComplete (gslot : Nat) : Statement (.launchComplete gslot) := rfl
theorem whiffletreeSample (j : Nat) : Statement (.whiffletreeSample j) := rfl
theorem whiffletreeTableWrite (drops : List Nat) : Statement (.whiffletreeTableWrite drops) := rfl
theorem sliceExpiry (part : Nat) : Statement (.sliceExpiry part) := rfl
theorem drainComplete (core : Nat) : Statement (.drainComplete core) := rfl
theorem partitionSaved (part : Nat) : Statement (.partitionSaved part) := rfl
theorem hbmAgeCapExpiry (ch : Nat) : Statement (.hbmAgeCapExpiry ch) := rfl
theorem hbmRefresh (ch : Nat) : Statement (.hbmRefresh ch) := rfl
theorem reqFrame (f : ReqFrame) : Statement (.reqFrame f) := rfl
theorem rspFrame (f : RspFrame) : Statement (.rspFrame f) := rfl
theorem fwdFrame (f : FwdFrame) : Statement (.fwdFrame f) := rfl
theorem sumFrame (f : SumFrame) : Statement (.sumFrame f) := rfl
theorem mcdFrame (f : McdFrame) : Statement (.mcdFrame f) := rfl
theorem mcrFrame (f : McrFrame) : Statement (.mcrFrame f) := rfl
theorem colFrame (f : ColFrame) : Statement (.colFrame f) := rfl
theorem collectiveComplete (id : Nat) : Statement (.collectiveComplete id) := rfl
theorem ackFrame (port : Nat) (seq : Nat) : Statement (.ackFrame port seq) := rfl
theorem nakFrame (port : Nat) (seq : Nat) (busy : Bool) : Statement (.nakFrame port seq busy) := rfl
theorem retransmitTimeout (port : Nat) : Statement (.retransmitTimeout port) := rfl
theorem routeTimeout (pkg : Nat) : Statement (.routeTimeout pkg) := rfl
theorem partnerLinkLoss (pkg : Nat) : Statement (.partnerLinkLoss pkg) := rfl
theorem sumTimer (port : Nat) : Statement (.sumTimer port) := rfl
theorem portFrameTime (port : Nat) : Statement (.portFrameTime port) := rfl
theorem heldRecordsMove (port : Nat) (idx : Nat) : Statement (.heldRecordsMove port idx) := rfl
theorem tailWrite (q : Nat) (tail : Nat) : Statement (.tailWrite q tail) := rfl
theorem flpop (q : Nat) : Statement (.flpop q) := rfl
theorem rdmaWrite (r : Rdma) : Statement (.rdmaWrite r) := rfl
theorem rdmaRead (r : Rdma) : Statement (.rdmaRead r) := rfl
theorem fetchAdd (r : Rdma) : Statement (.fetchAdd r) := rfl
theorem cmpSwap (r : Rdma) : Statement (.cmpSwap r) := rfl
theorem hostRetryExhausted (part : Nat) (qp : Nat) : Statement (.hostRetryExhausted part qp) := rfl
theorem nopPacket (p : Pkt) : Statement (.nopPacket p) := rfl
theorem write (p : Pkt) : Statement (.write p) := rfl
theorem writeSignal (p : Pkt) : Statement (.writeSignal p) := rfl
theorem waitMem (p : Pkt) : Statement (.waitMem p) := rfl
theorem waitMemRetest (q : Nat) : Statement (.waitMemRetest q) := rfl
theorem waitMemPoll (q : Nat) : Statement (.waitMemPoll q) := rfl
theorem pred (p : Pkt) : Statement (.pred p) := rfl
theorem indirect (p : Pkt) : Statement (.indirect p) := rfl
theorem loop (p : Pkt) : Statement (.loop p) := rfl
theorem launchGraph (p : Pkt) : Statement (.launchGraph p) := rfl
theorem fetchFence (p : Pkt) : Statement (.fetchFence p) := rfl
theorem link (p : Pkt) : Statement (.link p) := rfl
theorem segmentReturn (q : Nat) (seg : Nat) : Statement (.segmentReturn q seg) := rfl
theorem collective (p : Pkt) : Statement (.collective p) := rfl
theorem event (p : Pkt) : Statement (.event p) := rfl
theorem timestamp (p : Pkt) : Statement (.timestamp p) := rfl
theorem commandLineFetch (q : Nat) (level : Nat) (line : Nat) : Statement (.commandLineFetch q level line) := rfl
theorem wqConfig (m : Mgmt) : Statement (.wqConfig m) := rfl
theorem wqStop (m : Mgmt) : Statement (.wqStop m) := rfl
theorem wqResume (m : Mgmt) : Statement (.wqResume m) := rfl
theorem unitResume (m : Mgmt) : Statement (.unitResume m) := rfl
theorem unitTerminate (m : Mgmt) : Statement (.unitTerminate m) := rfl
theorem unitHalt (m : Mgmt) : Statement (.unitHalt m) := rfl
theorem graphRemove (m : Mgmt) : Statement (.graphRemove m) := rfl
theorem sliceSet (m : Mgmt) : Statement (.sliceSet m) := rfl
theorem stateRead (m : Mgmt) : Statement (.stateRead m) := rfl
theorem stateWrite (m : Mgmt) : Statement (.stateWrite m) := rfl
theorem ctxSet (m : Mgmt) : Statement (.ctxSet m) := rfl
theorem ctxDel (m : Mgmt) : Statement (.ctxDel m) := rfl
theorem imgLoad (m : Mgmt) : Statement (.imgLoad m) := rfl
theorem attest (m : Mgmt) : Statement (.attest m) := rfl
theorem keyRetain (m : Mgmt) : Statement (.keyRetain m) := rfl
theorem partSet (m : Mgmt) : Statement (.partSet m) := rfl
theorem ownXfer (m : Mgmt) : Statement (.ownXfer m) := rfl
theorem claim (m : Mgmt) : Statement (.claim m) := rfl
theorem release (m : Mgmt) : Statement (.release m) := rfl
theorem setId (m : Mgmt) : Statement (.setId m) := rfl
theorem coldReset : Statement (.coldReset) := rfl
theorem warmReset : Statement (.warmReset) := rfl
theorem pinsReleased : Statement (.pinsReleased) := rfl
theorem trainComplete (hbmMask : Nat) (ports : Nat) : Statement (.trainComplete hbmMask ports) := rfl
theorem clearComplete : Statement (.clearComplete) := rfl
theorem ostlerIntegrityError : Statement (.ostlerIntegrityError) := rfl
theorem rasEvent (e : RasEv) : Statement (.rasEvent e) := rfl
theorem powerLimit (inst : Nat) : Statement (.powerLimit inst) := rfl
theorem powerLimitLifted (inst : Nat) : Statement (.powerLimitLifted inst) := rfl
theorem connectionExchange (c : Conn) : Statement (.connectionExchange c) := rfl
theorem geldyLinkTraining (port : Nat) : Statement (.geldyLinkTraining port) := rfl
theorem congestionNotification (part : Nat) (qp : Nat) : Statement (.congestionNotification part qp) := rfl

end Sys2Proof.Laws.LengthClass
end

