-- ==== Sys2Proof/Laws/Tab.lean ====
section
/-! SUPPORT. Sparse tables and byte memories: reading after writing, and the canonical form that every memory operation keeps. -/

namespace Sys2Proof.Machine

theorem tget_tset_self {α : Type} (t : Tab α) (k : Nat) (v : α) : tget (tset t k v) k = some v := by
  induction t with
  | nil => simp [tset, tget]
  | cons p t ih =>
    simp only [tset]
    split
    · simp [tget]
    · split
      · simp [tget]
      · simp [tget, *]

theorem tget_tset_ne {α : Type} (t : Tab α) (k j : Nat) (v : α) (h : j ≠ k) : tget (tset t k v) j = tget t j := by
  induction t with
  | nil => simp [tset, tget, h]
  | cons p t ih =>
    obtain ⟨k', v'⟩ := p
    simp only [tset]
    by_cases h1 : k = k'
    · subst h1; simp [tget, h]
    · by_cases h2 : k < k'
      · simp only [h1, h2, if_true, if_false, tget, h]
      · simp only [h1, h2, if_false, tget, ih]

theorem tget_tset {α : Type} (t : Tab α) (k j : Nat) (v : α) :
    tget (tset t k v) j = if j = k then some v else tget t j := by
  by_cases h : j = k
  · simp [h, tget_tset_self]
  · simp [h, tget_tset_ne]

theorem wget_tset {n : Nat} (t : Tab (BitVec n)) (k j : Nat) (v : BitVec n) :
    wget (tset t k v) j = if j = k then v else wget t j := by
  simp only [wget, tget_tset]; split <;> rfl

@[simp] theorem wget_tset_self {n : Nat} (t : Tab (BitVec n)) (k : Nat) (v : BitVec n) : wget (tset t k v) k = v := by
  simp [wget_tset]

/-- A table written with pairs under keys made by an injective numbering reads as the last pair says. -/
theorem wget_foldl_tset_not_mem {n : Nat} (g : Nat → Nat) (xs : List (Nat × BitVec n)) (t : Tab (BitVec n)) (j : Nat)
    (h : ∀ x ∈ xs, j ≠ g x.1) : wget (xs.foldl (fun v x => tset v (g x.1) x.2) t) j = wget t j := by
  induction xs generalizing t with
  | nil => rfl
  | cons x xs ih =>
    rw [List.foldl_cons, ih _ fun y hy => h y (List.mem_cons_of_mem x hy), wget_tset]
    exact if_neg (h x (List.mem_cons_self))

theorem wget_foldl_tset_map {n : Nat} (g : Nat → Nat) (f : Nat → BitVec n) (ls : List Nat) (t : Tab (BitVec n)) (i : Nat)
    (hg : ∀ k ∈ ls, g i = g k → k = i) (hi : i ∈ ls) :
    wget ((ls.map fun k => (k, f k)).foldl (fun v x => tset v (g x.1) x.2) t) (g i) = f i := by
  induction ls generalizing t with
  | nil => cases hi
  | cons k ls ih =>
    simp only [List.map_cons, List.foldl_cons]
    by_cases h : i ∈ ls
    · exact ih _ (fun k hk => hg k (List.mem_cons_of_mem _ hk)) h
    · rw [wget_foldl_tset_not_mem]
      · have hik : i = k := by
          rcases List.mem_cons.1 hi with h' | h'
          · exact h'
          · exact absurd h' h
        subst hik
        simp
      · intro x hx hgx
        obtain ⟨k', hk', rfl⟩ := List.mem_map.1 hx
        have : k' = i := hg k' (List.mem_cons_of_mem _ hk') hgx
        subst this
        exact h hk'

/-! ## Rising keys -/

theorem risesFrom_mono {α : Type} {t : Tab α} {a b : Nat} (h : risesFrom b t = true) (hab : a ≤ b) : risesFrom a t = true := by
  cases t with
  | nil => rfl
  | cons p t =>
    obtain ⟨k, v⟩ := p
    simp only [risesFrom, Bool.and_eq_true, decide_eq_true_eq] at *
    exact ⟨by omega, h.2⟩

theorem risesFrom_tset {α : Type} (t : Tab α) (lo k : Nat) (v : α) (h : risesFrom lo t = true) (hk : lo ≤ k) :
    risesFrom lo (tset t k v) = true := by
  induction t generalizing lo with
  | nil => simp [tset, risesFrom, hk]
  | cons p t ih =>
    obtain ⟨k', v'⟩ := p
    simp only [risesFrom, Bool.and_eq_true, decide_eq_true_eq] at h
    simp only [tset]
    by_cases h1 : k = k'
    · subst h1; simp [risesFrom, h]
    · by_cases h2 : k < k'
      · simp only [h1, h2, if_true, if_false, risesFrom, Bool.and_eq_true, decide_eq_true_eq]
        exact ⟨hk, by omega, h.2⟩
      · simp only [h1, h2, if_false, risesFrom, Bool.and_eq_true, decide_eq_true_eq]
        exact ⟨h.1, ih _ h.2 (by omega)⟩

theorem risesFrom_tdel {α : Type} (t : Tab α) (lo k : Nat) (h : risesFrom lo t = true) : risesFrom lo (tdel t k) = true := by
  induction t generalizing lo with
  | nil => rfl
  | cons p t ih =>
    obtain ⟨k', v'⟩ := p
    simp only [risesFrom, Bool.and_eq_true, decide_eq_true_eq] at h
    simp only [tdel]
    split
    · exact risesFrom_mono (ih _ h.2) (by omega)
    · simp only [risesFrom, Bool.and_eq_true, decide_eq_true_eq]
      exact ⟨h.1, ih _ h.2⟩

theorem risesFrom_filter {α : Type} (t : Tab α) (lo : Nat) (p : Nat × α → Bool) (h : risesFrom lo t = true) :
    risesFrom lo (t.filter p) = true := by
  induction t generalizing lo with
  | nil => rfl
  | cons x t ih =>
    obtain ⟨k, v⟩ := x
    simp only [risesFrom, Bool.and_eq_true, decide_eq_true_eq] at h
    rw [List.filter_cons]
    split
    · simp only [risesFrom, Bool.and_eq_true, decide_eq_true_eq]
      exact ⟨h.1, ih _ h.2⟩
    · exact risesFrom_mono (ih _ h.2) (by omega)

theorem tget_tdel {α : Type} (t : Tab α) (k j : Nat) : tget (tdel t k) j = if j = k then none else tget t j := by
  induction t with
  | nil => simp [tdel, tget]
  | cons p t ih =>
    obtain ⟨k', v'⟩ := p
    simp only [tdel]
    by_cases h1 : k = k'
    · subst h1
      rw [if_pos rfl, ih]
      by_cases hj : j = k <;> simp [hj, tget]
    · rw [if_neg h1]
      simp only [tget, ih]
      by_cases hj : j = k
      · subst hj; simp [h1]
      · simp [hj]

theorem tget_filter {α : Type} (t : Tab α) (j : Nat) (p : Nat → Bool) :
    tget (t.filter fun x => p x.1) j = if p j then tget t j else none := by
  induction t with
  | nil => simp [tget]
  | cons x t ih =>
    obtain ⟨k, v⟩ := x
    rw [List.filter_cons]
    by_cases hk : p k = true
    · simp only [hk, if_true, tget, ih]
      by_cases h1 : j = k
      · subst h1; simp [hk]
      · simp [h1]
    · rw [if_neg hk, ih]
      by_cases h1 : j = k
      · subst h1; simp [hk]
      · simp [tget, h1]

theorem tget_map {α β : Type} (t : Tab α) (f : Nat → α → β) (j : Nat) :
    tget (t.map fun x => (x.1, f x.1 x.2)) j = (tget t j).map (f j) := by
  induction t with
  | nil => rfl
  | cons x t ih =>
    simp only [List.map_cons, tget, ih]
    by_cases h : j = x.1
    · subst h; simp
    · simp [h]

/-! ## The canonical form of a memory -/

theorem Memory.wf_iff (m : List Host.Cell) :
    Memory.wf m = true ↔ risesFrom 0 m = true ∧ ∀ c ∈ m, c.2 ≠ unlistedByte := by
  simp [Memory.wf]

theorem mem_of_mem_tset {α : Type} {t : Tab α} {k : Nat} {v : α} {c : Nat × α} (h : c ∈ tset t k v) : c = (k, v) ∨ c ∈ t := by
  induction t with
  | nil => simpa [tset] using h
  | cons p t ih =>
    obtain ⟨k', v'⟩ := p
    simp only [tset] at h
    split at h
    · rcases List.mem_cons.1 h with h | h
      · exact .inl h
      · exact .inr (List.mem_cons_of_mem _ h)
    · split at h
      · rcases List.mem_cons.1 h with h | h
        · exact .inl h
        · exact .inr h
      · rcases List.mem_cons.1 h with h | h
        · exact .inr (h ▸ List.mem_cons_self)
        · rcases ih h with h | h
          · exact .inl h
          · exact .inr (List.mem_cons_of_mem _ h)

theorem mem_of_mem_tdel {α : Type} {t : Tab α} {k : Nat} {c : Nat × α} (h : c ∈ tdel t k) : c ∈ t := by
  induction t with
  | nil => exact h
  | cons p t ih =>
    obtain ⟨k', v'⟩ := p
    simp only [tdel] at h
    split at h
    · exact List.mem_cons_of_mem _ (ih h)
    · rcases List.mem_cons.1 h with h | h
      · exact h ▸ List.mem_cons_self
      · exact List.mem_cons_of_mem _ (ih h)

theorem Memory.wf_mset {m : List Host.Cell} (h : Memory.wf m = true) (a : Nat) (b : Byte) : Memory.wf (mset m a b) = true := by
  rw [Memory.wf_iff] at *
  unfold mset
  split
  · exact ⟨risesFrom_tdel _ _ _ h.1, fun c hc => h.2 c (mem_of_mem_tdel hc)⟩
  · refine ⟨risesFrom_tset _ _ _ _ h.1 (Nat.zero_le _), fun c hc => ?_⟩
    rcases mem_of_mem_tset hc with rfl | hc
    · assumption
    · exact h.2 c hc

theorem Memory.wf_mwrite {m : List Host.Cell} (h : Memory.wf m = true) (a : Nat) (bs : List Byte) :
    Memory.wf (mwrite m a bs) = true := by
  induction bs generalizing m a with
  | nil => exact h
  | cons b bs ih => exact ih (Memory.wf_mset h a b) (a + 1)

theorem Memory.wf_filter {m : List Host.Cell} (h : Memory.wf m = true) (p : Host.Cell → Bool) :
    Memory.wf (m.filter p) = true := by
  rw [Memory.wf_iff] at *
  exact ⟨risesFrom_filter _ _ _ h.1, fun c hc => h.2 c (List.mem_filter.1 hc).1⟩

theorem Memory.wf_mzero {m : List Host.Cell} (h : Memory.wf m = true) (a n : Nat) : Memory.wf (mzero m a n) = true :=
  Memory.wf_filter h _

theorem mget_mset (m : List Host.Cell) (a x : Nat) (b : Byte) : mget (mset m a b) x = if x = a then b else mget m x := by
  unfold mset mget
  split
  · rename_i hb
    rw [tget_tdel]
    split <;> simp [hb]
  · rw [tget_tset]
    split <;> rfl

theorem mget_mwrite (m : List Host.Cell) (a : Nat) (bs : List Byte) (x : Nat) :
    mget (mwrite m a bs) x = if a ≤ x then (bs[x - a]?).getD (mget m x) else mget m x := by
  induction bs generalizing m a with
  | nil => simp [mwrite]
  | cons b bs ih =>
    rw [mwrite, ih, mget_mset]
    by_cases h1 : x = a
    · subst h1; simp [show ¬ (x + 1 ≤ x) by omega]
    · by_cases h2 : a ≤ x
      · have h3 : a + 1 ≤ x := by omega
        have h4 : x - a = (x - (a + 1)) + 1 := by omega
        simp [h1, h2, h3, h4]
      · have h3 : ¬ a + 1 ≤ x := by omega
        simp [h1, h2, h3]

theorem mget_mzero (m : List Host.Cell) (a n x : Nat) : mget (mzero m a n) x = if a ≤ x ∧ x < a + n then 0 else mget m x := by
  have := tget_filter m x fun k => !(decide (a ≤ k) && decide (k < a + n))
  simp only [mzero, tcut, mget, this]
  by_cases hx : a ≤ x ∧ x < a + n
  · simp [hx, unlistedByte]
  · rw [if_pos, if_neg hx]
    simp; omega

end Sys2Proof.Machine
end

