-- ==== Sys2Proof/Laws/State.lean ====
section
/-! SUPPORT. Field lemmas of the updates of State, and what a write of the current team, its block or its coachman leaves. -/

namespace Sys2Proof.Machine

namespace State

@[simp] theorem setTeam_cur (s : State) (t : Team) : (s.setTeam t).cur = s.cur := rfl
@[simp] theorem setTeam_fate (s : State) (t : Team) : (s.setTeam t).fate = s.fate := rfl
@[simp] theorem setTeam_snap (s : State) (t : Team) : (s.setTeam t).snap = s.snap := rfl
@[simp] theorem setTeam_fresh (s : State) (t : Team) : (s.setTeam t).fresh = s.fresh := rfl
@[simp] theorem setTeam_blocks (s : State) (t : Team) : (s.setTeam t).blocks = s.blocks := rfl
@[simp] theorem setTeam_ctxs (s : State) (t : Team) : (s.setTeam t).ctxs = s.ctxs := rfl
@[simp] theorem setTeam_mem (s : State) (t : Team) : (s.setTeam t).mem = s.mem := rfl
@[simp] theorem setTeam_spad (s : State) (t : Team) : (s.setTeam t).spad = s.spad := rfl
@[simp] theorem setTeam_teams (s : State) (t : Team) : (s.setTeam t).teams = tset s.teams (teamKey s.cur) t := rfl
@[simp] theorem setTeam_block (s : State) (t : Team) : (s.setTeam t).block = s.block := rfl
@[simp] theorem setTeam_coach (s : State) (t : Team) : (s.setTeam t).coach = s.coach := rfl
@[simp] theorem setTeam_myCtx (s : State) (t : Team) : (s.setTeam t).myCtx = s.myCtx := rfl

@[simp] theorem setTeam_team (s : State) (t : Team) : (s.setTeam t).team = t := by
  simp [team, tget_tset_self]

theorem setTeam_src (s : State) (t : Team) : (s.setTeam t).src = s.snap.getD t := by simp [src]

@[simp] theorem modTeam_cur (s : State) (f : Team → Team) : (s.modTeam f).cur = s.cur := rfl
@[simp] theorem modTeam_fate (s : State) (f : Team → Team) : (s.modTeam f).fate = s.fate := rfl
@[simp] theorem modTeam_snap (s : State) (f : Team → Team) : (s.modTeam f).snap = s.snap := rfl
@[simp] theorem modTeam_fresh (s : State) (f : Team → Team) : (s.modTeam f).fresh = s.fresh := rfl
@[simp] theorem modTeam_blocks (s : State) (f : Team → Team) : (s.modTeam f).blocks = s.blocks := rfl
@[simp] theorem modTeam_ctxs (s : State) (f : Team → Team) : (s.modTeam f).ctxs = s.ctxs := rfl
@[simp] theorem modTeam_mem (s : State) (f : Team → Team) : (s.modTeam f).mem = s.mem := rfl
@[simp] theorem modTeam_spad (s : State) (f : Team → Team) : (s.modTeam f).spad = s.spad := rfl
@[simp] theorem modTeam_block (s : State) (f : Team → Team) : (s.modTeam f).block = s.block := rfl
@[simp] theorem modTeam_coach (s : State) (f : Team → Team) : (s.modTeam f).coach = s.coach := rfl
@[simp] theorem modTeam_myCtx (s : State) (f : Team → Team) : (s.modTeam f).myCtx = s.myCtx := rfl
@[simp] theorem modTeam_team (s : State) (f : Team → Team) : (s.modTeam f).team = f s.team := by simp [modTeam]

@[simp] theorem withFate_cur (s : State) (f : Fate) : (s.withFate f).cur = s.cur := rfl
@[simp] theorem withFate_fate (s : State) (f : Fate) : (s.withFate f).fate = f := rfl
@[simp] theorem withFate_snap (s : State) (f : Fate) : (s.withFate f).snap = s.snap := rfl
@[simp] theorem withFate_fresh (s : State) (f : Fate) : (s.withFate f).fresh = s.fresh := rfl
@[simp] theorem withFate_team (s : State) (f : Fate) : (s.withFate f).team = s.team := rfl
@[simp] theorem withFate_src (s : State) (f : Fate) : (s.withFate f).src = s.src := rfl
@[simp] theorem withFate_block (s : State) (f : Fate) : (s.withFate f).block = s.block := rfl
@[simp] theorem withFate_coach (s : State) (f : Fate) : (s.withFate f).coach = s.coach := rfl
@[simp] theorem withFate_mem (s : State) (f : Fate) : (s.withFate f).mem = s.mem := rfl
@[simp] theorem withFate_spad (s : State) (f : Fate) : (s.withFate f).spad = s.spad := rfl
@[simp] theorem withFate_teams (s : State) (f : Fate) : (s.withFate f).teams = s.teams := rfl
@[simp] theorem withFate_blocks (s : State) (f : Fate) : (s.withFate f).blocks = s.blocks := rfl
@[simp] theorem withFate_myCtx (s : State) (f : Fate) : (s.withFate f).myCtx = s.myCtx := rfl

@[simp] theorem modCoach_cur (s : State) (f : Coach → Coach) : (s.modCoach f).cur = s.cur := rfl
@[simp] theorem modCoach_teams (s : State) (f : Coach → Coach) : (s.modCoach f).teams = s.teams := rfl
@[simp] theorem modCoach_block (s : State) (f : Coach → Coach) : (s.modCoach f).block = s.block := rfl
@[simp] theorem modCoach_mem (s : State) (f : Coach → Coach) : (s.modCoach f).mem = s.mem := rfl
@[simp] theorem modCoach_fate (s : State) (f : Coach → Coach) : (s.modCoach f).fate = s.fate := rfl
@[simp] theorem modCoach_coach (s : State) (f : Coach → Coach) : (s.modCoach f).coach = f s.coach := by
  simp [modCoach, coach, tget_tset_self]

@[simp] theorem modBlock_cur (s : State) (f : Block → Block) : (s.modBlock f).cur = s.cur := rfl
@[simp] theorem modBlock_teams (s : State) (f : Block → Block) : (s.modBlock f).teams = s.teams := rfl
@[simp] theorem modBlock_team (s : State) (f : Block → Block) : (s.modBlock f).team = s.team := rfl
@[simp] theorem modBlock_mem (s : State) (f : Block → Block) : (s.modBlock f).mem = s.mem := rfl
@[simp] theorem modBlock_fate (s : State) (f : Block → Block) : (s.modBlock f).fate = s.fate := rfl
@[simp] theorem modBlock_block (s : State) (f : Block → Block) : (s.modBlock f).block = f s.block := by
  simp [modBlock, block, tget_tset_self]

@[simp] theorem modCore_cur (s : State) (c : Nat) (f : Core → Core) : (s.modCore c f).cur = s.cur := rfl
@[simp] theorem modCore_teams (s : State) (c : Nat) (f : Core → Core) : (s.modCore c f).teams = s.teams := rfl
@[simp] theorem modCore_team (s : State) (c : Nat) (f : Core → Core) : (s.modCore c f).team = s.team := rfl
@[simp] theorem modCore_src (s : State) (c : Nat) (f : Core → Core) : (s.modCore c f).src = s.src := rfl
@[simp] theorem modCore_block (s : State) (c : Nat) (f : Core → Core) : (s.modCore c f).block = s.block := rfl
@[simp] theorem modCore_mem (s : State) (c : Nat) (f : Core → Core) : (s.modCore c f).mem = s.mem := rfl
@[simp] theorem modCore_fate (s : State) (c : Nat) (f : Core → Core) : (s.modCore c f).fate = s.fate := rfl
@[simp] theorem modCore_core (s : State) (c : Nat) (f : Core → Core) : (s.modCore c f).core c = f (s.core c) := by
  simp [modCore, core, tget_tset_self]

theorem modCore_core_ne (s : State) (c d : Nat) (f : Core → Core) (h : d ≠ c) : (s.modCore c f).core d = s.core d := by
  simp [modCore, core, tget_tset_ne _ _ _ _ h]

end State

theorem onlyTeam_refl (s : State) : OnlyTeam s s := ⟨rfl, fun _ _ => rfl⟩

theorem OnlyTeam.trans {s t u : State} (h : OnlyTeam s t) (g : OnlyTeam t u) : OnlyTeam s u := by
  have hc : t.cur = s.cur := (congrArg State.cur h.1 :)
  refine ⟨?_, fun k hk => ?_⟩
  · have : { u with teams := s.teams } = { { u with teams := t.teams } with teams := s.teams } := rfl
    rw [this, g.1, h.1]
  · rw [g.2 k (hc ▸ hk), h.2 k hk]

theorem onlyTeam_setTeam (s : State) (t : Team) : OnlyTeam s (s.setTeam t) :=
  ⟨rfl, fun k hk => by simp [tget_tset_ne _ _ _ _ hk]⟩

theorem onlyTeam_modTeam (s : State) (f : Team → Team) : OnlyTeam s (s.modTeam f) := onlyTeam_setTeam s _

/-! ## Reset -/

theorem reset_mem_wf : Memory.wf State.reset.mem = true := rfl
theorem reset_spad_wf : Memory.wf State.reset.spad = true := rfl

end Sys2Proof.Machine
end

