-- ==== Sys2Proof/Laws/Team.lean ====
section
/-! SUPPORT. What a write of a scalar, of lanes of a vector register or of a predicate does to everything a team holds. -/

namespace Sys2Proof.Machine

/-! ## Unspecified values (R70) -/

theorem getLsbD_foldl_or {α : Type} (l : List α) (p : α → Bool) (g : α → Lanes) (m : Lanes) (i : Nat) :
    (l.foldl (fun m x => if p x then m ||| g x else m) m).getLsbD i = (m.getLsbD i || l.any fun x => p x && (g x).getLsbD i) := by
  induction l generalizing m with
  | nil => simp
  | cons x l ih =>
    rw [List.foldl_cons, ih, List.any_cons]
    cases hp : p x <;> simp [Bool.or_assoc]

theorem getLsbD_unknown (t : Team) (c r i : Nat) :
    (t.unknown c r).getLsbD i =
      ((t.pend.any fun p => p.cls == c && p.reg == r && (p.lanes ||| p.spoiled).getLsbD i) ||
        t.unspec.any fun u => u.cls == c && u.reg == r && u.lanes.getLsbD i) := by
  simp only [Team.unknown]
  rw [getLsbD_foldl_or t.unspec (fun u => u.cls == c && u.reg == r) UnspecDest.lanes,
    getLsbD_foldl_or t.pend (fun p => p.cls == c && p.reg == r) fun p => p.lanes ||| p.spoiled]
  simp

theorem inFlight_touch (t : Team) (c r : Nat) (ls : Lanes) (c' r' : Nat) :
    (t.touch c r ls).inFlight c' r' = t.inFlight c' r' := by
  simp only [Team.inFlight, Team.touch, List.any_map]
  congr 1
  funext p
  simp only [Function.comp]
  split <;> rfl

/-- The destinations of operations in flight after a write: all lanes of the register written are unspecified. -/
theorem any_pend_touch (t : Team) (c r : Nat) (ls : Lanes) (hls : ls ≠ 0) (c' r' i : Nat) (hi : i < 1024) :
    ((t.touch c r ls).pend.any fun p => p.cls == c' && p.reg == r' && (p.lanes ||| p.spoiled).getLsbD i) =
      if c' = c ∧ r' = r then t.inFlight c r
      else t.pend.any fun p => p.cls == c' && p.reg == r' && (p.lanes ||| p.spoiled).getLsbD i := by
  have hn : (ls != 0) = true := by simpa using hls
  have h1 : (-1 : Lanes).getLsbD i = true := by
    rw [show (-1 : Lanes) = BitVec.allOnes 1024 from BitVec.neg_one_eq_allOnes, BitVec.getLsbD_allOnes]
    exact decide_eq_true hi
  simp only [Team.touch, List.any_map, Team.inFlight, hn, Bool.and_true]
  by_cases h : c' = c ∧ r' = r
  · obtain ⟨rfl, rfl⟩ := h
    simp only [and_self, if_true]
    congr 1
    funext p
    simp only [Function.comp]
    cases hp : (p.cls == c' && p.reg == r')
    · simp [hp]
    · simp only [if_true, hp, Bool.true_and, BitVec.getLsbD_or, h1, Bool.or_true]
  · rw [if_neg h]
    congr 1
    funext p
    simp only [Function.comp]
    cases hp : (p.cls == c && p.reg == r)
    · simp
    · have hq : p.cls = c ∧ p.reg = r := by simpa using hp
      have : (p.cls == c' && p.reg == r') = false := by
        cases hb : (p.cls == c' && p.reg == r')
        · rfl
        · have hb' : p.cls = c' ∧ p.reg = r' := by simpa using hb
          exact absurd ⟨hb'.1 ▸ hq.1, hb'.2 ▸ hq.2⟩ h
      simp [this]

theorem any_touched (l : List UnspecDest) (c r : Nat) (ls : Lanes) (c' r' i : Nat) (hi : i < 1024) :
    (((l.map fun u => if u.cls == c && u.reg == r then { u with lanes := u.lanes &&& ~~~ls } else u).filter
        fun u => u.lanes != 0).any fun u => u.cls == c' && u.reg == r' && u.lanes.getLsbD i) =
      if c' = c ∧ r' = r ∧ ls.getLsbD i = true then false
      else l.any fun u => u.cls == c' && u.reg == r' && u.lanes.getLsbD i := by
  induction l with
  | nil => simp
  | cons u l ih =>
    rw [List.map_cons, List.filter_cons]
    have drop : ∀ v : UnspecDest, (v.lanes != 0) = false → (v.cls == c' && v.reg == r' && v.lanes.getLsbD i) = false := by
      intro v hv
      have : v.lanes = 0 := by simpa using hv
      simp [this]
    have step : ∀ v : UnspecDest,
        ((if (v.lanes != 0) = true then v :: ((l.map fun u => if u.cls == c && u.reg == r then
            { u with lanes := u.lanes &&& ~~~ls } else u).filter fun u => u.lanes != 0)
          else ((l.map fun u => if u.cls == c && u.reg == r then
            { u with lanes := u.lanes &&& ~~~ls } else u).filter fun u => u.lanes != 0)).any
            fun u => u.cls == c' && u.reg == r' && u.lanes.getLsbD i) =
          ((v.cls == c' && v.reg == r' && v.lanes.getLsbD i) ||
            if c' = c ∧ r' = r ∧ ls.getLsbD i = true then false
            else l.any fun u => u.cls == c' && u.reg == r' && u.lanes.getLsbD i) := by
      intro v
      cases hv : (v.lanes != 0)
      · rw [drop v hv, ← ih]; simp
      · rw [← ih]; simp
    rw [step]
    by_cases hm : c' = c ∧ r' = r ∧ ls.getLsbD i = true
    · obtain ⟨rfl, rfl, hl⟩ := hm
      cases hu : (u.cls == c' && u.reg == r')
      · simp [hu, hl]
      · simp [hl]
    · rw [if_neg hm, if_neg hm, List.any_cons]
      cases hu : (u.cls == c && u.reg == r)
      · simp
      · have hu' : u.cls = c ∧ u.reg = r := by simpa using hu
        by_cases hc : c' = c ∧ r' = r
        · have hl : ls.getLsbD i = false := by
            cases hb : ls.getLsbD i
            · rfl
            · exact absurd ⟨hc.1, hc.2, hb⟩ hm
          simp only [if_true, BitVec.getLsbD_and, BitVec.getLsbD_not, hl, hi, decide_true, Bool.not_false, Bool.and_true]
        · have : (u.cls == c' && u.reg == r') = false := by
            cases hb : (u.cls == c' && u.reg == r')
            · rfl
            · have hb' : u.cls = c' ∧ u.reg = r' := by simpa using hb
              exact absurd ⟨hb'.1 ▸ hu'.1, hb'.2 ▸ hu'.2⟩ hc
          simp [this]

theorem touch_zero (t : Team) (c r c' r' i : Nat) (hi : i < 1024) :
    ((t.touch c r 0).unknown c' r').getLsbD i = (t.unknown c' r').getLsbD i := by
  have hu : (t.touch c r 0).unspec = ((t.unspec.map fun u => if u.cls == c && u.reg == r then
    { u with lanes := u.lanes &&& ~~~(0 : Lanes) } else u).filter fun u => u.lanes != 0) := rfl
  rw [getLsbD_unknown, getLsbD_unknown, hu, any_touched _ _ _ _ _ _ _ hi]
  simp [Team.touch]

/-- A written register's lanes are unspecified where an operation in flight has it as a destination, else known where written. -/
theorem getLsbD_unknown_touch (t : Team) (c r : Nat) (ls : Lanes) (c' r' i : Nat) (hi : i < 1024) :
    ((t.touch c r ls).unknown c' r').getLsbD i =
      if c' = c ∧ r' = r ∧ t.inFlight c r = true ∧ ls ≠ 0 then true
      else if c' = c ∧ r' = r ∧ ls.getLsbD i = true then false else (t.unknown c' r').getLsbD i := by
  by_cases hls : ls = 0
  · subst hls
    rw [touch_zero _ _ _ _ _ _ hi]
    simp
  have hu : (t.touch c r ls).unspec = ((t.unspec.map fun u => if u.cls == c && u.reg == r then
    { u with lanes := u.lanes &&& ~~~ls } else u).filter fun u => u.lanes != 0) := rfl
  rw [getLsbD_unknown, any_pend_touch t c r ls hls _ _ _ hi, hu, any_touched _ _ _ _ _ _ _ hi]
  by_cases h : c' = c ∧ r' = r
  · obtain ⟨rfl, rfl⟩ := h
    cases hf : t.inFlight c' r'
    · have hz : (t.pend.any fun p => p.cls == c' && p.reg == r' && (p.lanes ||| p.spoiled).getLsbD i) = false := by
        simp only [Team.inFlight, List.any_eq_false] at hf ⊢
        intro p hp
        have := hf p hp
        cases hb : (p.cls == c' && p.reg == r') <;> simp_all
      rw [getLsbD_unknown, hz]
      simp
    · have hne : ls ≠ 0 := hls
      simp only [and_self, if_true, hne, ne_eq, not_false_eq_true, Bool.true_or]
  · have h1 : ¬(c' = c ∧ r' = r ∧ ls.getLsbD i = true) := fun x => h ⟨x.1, x.2.1⟩
    have h2 : ¬(c' = c ∧ r' = r ∧ t.inFlight c r = true ∧ ls ≠ 0) := fun x => h ⟨x.1, x.2.1⟩
    rw [if_neg h, if_neg h1, if_neg h2, if_neg h1, getLsbD_unknown]

theorem rest_touch (t : Team) (c r : Nat) (ls : Lanes) : (t.touch c r ls).rest = t.rest := by
  simp only [Team.rest, Team.touch, List.map_map]
  congr 1
  apply List.map_congr_left
  intro p _
  simp only [Function.comp]
  split <;> rfl

/-! ## Writing -/

theorem rest_putS (t : Team) (p : Nat) (v : DWord) : (t.putS p v).rest = t.rest := rest_touch t 1 p 1

theorem unknown_with_sregs (t : Team) (x : Tab DWord) (c r : Nat) : ({ t with sregs := x } : Team).unknown c r = t.unknown c r := rfl
theorem unknown_with_vregs (t : Team) (x : Tab Word) (c r : Nat) : ({ t with vregs := x } : Team).unknown c r = t.unknown c r := rfl
theorem unknown_with_pregs (t : Team) (x : Tab Lanes) (c r : Nat) : ({ t with pregs := x } : Team).unknown c r = t.unknown c r := rfl

theorem scalarAt_putS (t : Team) (p q : Nat) (v : DWord) :
    (t.putS p v).scalarAt q = if q = p then landed (t.inFlight 1 p) v else t.scalarAt q := by
  have h1 : (1 : Lanes).getLsbD 0 = true := by simp
  simp only [Team.scalarAt, Team.putS, unknown_with_sregs, getLsbD_unknown_touch _ _ _ _ _ _ 0 (by omega), wget_tset]
  have hne : (1 : Lanes) ≠ 0 := fun h => by rw [h] at h1; simp at h1
  by_cases h : q = p
  · subst h
    cases hf : t.inFlight 1 q
    · simp only [h1, landed, Bool.false_eq_true, false_and, and_false, and_self, if_false, if_true]
    · simp only [hne, landed, ne_eq, not_false_eq_true, and_self, if_true]
  · simp only [h, and_false, false_and, if_false, Team.touch]

theorem laneAt_putS (t : Team) (p : Nat) (v : DWord) (r i : Nat) (hi : i < 1024) : (t.putS p v).laneAt r i = t.laneAt r i := by
  simp only [Team.laneAt, Team.putS, unknown_with_sregs, getLsbD_unknown_touch _ _ _ _ _ _ i hi]
  simp [Team.touch]

theorem predAt_putS (t : Team) (p : Nat) (v : DWord) (r i : Nat) (hi : i < 1024) : (t.putS p v).predAt r i = t.predAt r i := by
  simp only [Team.predAt, Team.putS, unknown_with_sregs, getLsbD_unknown_touch _ _ _ _ _ _ i hi]
  simp [Team.touch]

theorem rest_putP (t : Team) (p : Nat) (m v : Lanes) : (t.putP p m v).rest = t.rest := rest_touch t 2 p m

theorem predAt_putP (t : Team) (p : Nat) (m v : Lanes) (q i : Nat) (hi : i < 1024) :
    (t.putP p m v).predAt q i =
      if q = p then
        if t.inFlight 2 p = true ∧ m ≠ 0 then none else if m.getLsbD i = true then some (v.getLsbD i) else t.predAt p i
      else t.predAt q i := by
  simp only [Team.predAt, Team.putP, unknown_with_pregs, getLsbD_unknown_touch _ _ _ _ _ _ i hi, wget_tset]
  by_cases h : q = p
  · subst h
    by_cases hf : t.inFlight 2 q = true ∧ m ≠ 0
    · simp only [true_and, if_true, if_pos hf]
    · cases hm : m.getLsbD i
      · simp only [Team.touch, true_and, if_neg hf, if_true, hm, BitVec.getLsbD_or, BitVec.getLsbD_and, BitVec.getLsbD_not, hi,
          decide_true, Bool.not_false, Bool.and_true, Bool.and_false, Bool.or_false, Bool.false_eq_true, if_false]
      · simp only [true_and, if_neg hf, if_true, hm, BitVec.getLsbD_or, BitVec.getLsbD_and, BitVec.getLsbD_not, hi, decide_true,
          Bool.not_true, Bool.and_false, Bool.and_true, Bool.false_or, Bool.false_eq_true, if_false]
  · simp only [h, and_false, false_and, if_false, Team.touch]

theorem scalarAt_putP (t : Team) (p : Nat) (m v : Lanes) (q : Nat) : (t.putP p m v).scalarAt q = t.scalarAt q := by
  simp only [Team.scalarAt, Team.putP, unknown_with_pregs, getLsbD_unknown_touch _ _ _ _ _ _ 0 (by omega)]
  simp [Team.touch]

theorem laneAt_putP (t : Team) (p : Nat) (m v : Lanes) (r i : Nat) (hi : i < 1024) : (t.putP p m v).laneAt r i = t.laneAt r i := by
  simp only [Team.laneAt, Team.putP, unknown_with_pregs, getLsbD_unknown_touch _ _ _ _ _ _ i hi]
  simp [Team.touch]

theorem rest_putV (t : Team) (r : Nat) (xs : List (Nat × Word)) : (t.putV r xs).rest = t.rest := rest_touch t 0 r _

theorem getLsbD_maskOf (ls : List Nat) (i : Nat) (hi : i < 1024) : (maskOf ls).getLsbD i = decide (i ∈ ls) := by
  have key : ∀ (l : List Nat) (m : Lanes), (l.foldl (fun m i => m ||| BitVec.ofNat 1024 (2 ^ i)) m).getLsbD i =
      (m.getLsbD i || decide (i ∈ l)) := by
    intro l
    induction l with
    | nil => simp
    | cons x l ih =>
      intro m
      rw [List.foldl_cons, ih]
      simp only [BitVec.getLsbD_or, BitVec.getLsbD_ofNat, hi, decide_true, Bool.true_and, Nat.testBit_two_pow, List.mem_cons]
      by_cases hx : x = i
      · subst hx; simp
      · simp [hx, Ne.symm hx]
  rw [maskOf, key]
  simp

theorem scalarAt_putV (t : Team) (r : Nat) (xs : List (Nat × Word)) (q : Nat) : (t.putV r xs).scalarAt q = t.scalarAt q := by
  simp only [Team.scalarAt, Team.putV, Team.storeV, unknown_with_vregs, getLsbD_unknown_touch _ _ _ _ _ _ 0 (by omega)]
  simp [Team.touch]

theorem predAt_putV (t : Team) (r : Nat) (xs : List (Nat × Word)) (q i : Nat) (hi : i < 1024) :
    (t.putV r xs).predAt q i = t.predAt q i := by
  simp only [Team.predAt, Team.putV, Team.storeV, unknown_with_vregs, getLsbD_unknown_touch _ _ _ _ _ _ i hi]
  simp [Team.touch]

theorem maskOf_ne_zero {ls : List Nat} (hl : ∀ k ∈ ls, k < 1024) : maskOf ls ≠ 0 ↔ ls ≠ [] := by
  constructor
  · rintro h rfl
    exact h rfl
  · intro h hz
    obtain ⟨k, hk⟩ := List.exists_mem_of_ne_nil ls h
    have := getLsbD_maskOf ls k (hl k hk)
    rw [hz] at this
    simp [hk] at this

/-- A vector write of one value per lane of a list of lanes below 1 024. -/
theorem laneAt_putV (t : Team) (r : Nat) (ls : List Nat) (f : Nat → Word) (hl : ∀ k ∈ ls, k < 1024) (q i : Nat) (hi : i < 1024) :
    (t.putV r (ls.map fun k => (k, f k))).laneAt q i =
      if q = r then landedAt (t.inFlight 0 r) ls i (f i) (t.laneAt r i) else t.laneAt q i := by
  have hf : (ls.map fun k => (k, f k)).map Prod.fst = ls := by
    rw [List.map_map]; exact List.map_id' ls
  simp only [Team.laneAt, Team.putV, Team.storeV, unknown_with_vregs, getLsbD_unknown_touch _ _ _ _ _ _ i hi, hf,
    getLsbD_maskOf ls i hi, decide_eq_true_eq, maskOf_ne_zero hl]
  have hnot : ∀ (h : ¬(i ∈ ls ∧ q = r)),
      wget ((ls.map fun k => (k, f k)).foldl (fun v x => tset v (r * 1024 + x.1) x.2) (t.touch 0 r (maskOf ls)).vregs)
        (q * 1024 + i) = wget t.vregs (q * 1024 + i) := by
    intro h
    refine wget_foldl_tset_not_mem (fun k => r * 1024 + k) _ _ _ ?_
    intro x hx he
    obtain ⟨k, hk, rfl⟩ := List.mem_map.1 hx
    have := hl k hk
    simp only at he
    have h1 : q = r := by omega
    have h2 : i = k := by omega
    exact h ⟨h2 ▸ hk, h1⟩
  by_cases hq : q = r
  · subst hq
    have he : (!ls.isEmpty) = decide (ls ≠ []) := by cases ls <;> simp
    simp only [true_and, if_true, landedAt, he, Bool.and_eq_true, decide_eq_true_eq, List.contains_eq_mem]
    by_cases hp : t.inFlight 0 q = true ∧ ls ≠ []
    · rw [if_pos hp, if_pos hp]
      rfl
    · rw [if_neg hp, if_neg hp]
      by_cases h1 : i ∈ ls
      · simp only [h1, if_true, Bool.false_eq_true, if_false]
        rw [show ((t.touch 0 q (maskOf ls)).vregs) = t.vregs from rfl,
          wget_foldl_tset_map (fun k => q * 1024 + k) f ls t.vregs i (fun k _ h => Nat.add_left_cancel h.symm) h1]
      · rw [if_neg h1, if_neg h1, hnot fun h => h1 h.1]
  · simp only [hq, and_false, false_and, if_false, hnot fun h => hq h.2]

theorem mem_lanesOf {m : Lanes} {n i : Nat} : i ∈ lanesOf m n ↔ i < n ∧ m.getLsbD i = true := by
  simp [lanesOf]

theorem lanesOf_lt {m : Lanes} {n i : Nat} (h : i ∈ lanesOf m n) : i < 1024 := by
  have := (mem_lanesOf.1 h).2
  exact BitVec.lt_of_getLsbD this

theorem active_lt {s : State} {g i : Nat} (h : i ∈ active s g) : i < 1024 := lanesOf_lt h

end Sys2Proof.Machine
end

