-- ==== Sys2Proof/Laws/Write.lean ====
section
/-! SUPPORT. One lemma for each shared way an instruction ends: a scalar written, lanes written, a predicate written, the team
changed, a cause raised. -/

namespace Sys2Proof.Machine

theorem ends_next {i : Instr} {s t : State} {P : State → Prop} (h : exec i s = .next t) (p : P t) : Ends i s P := ⟨t, h, p⟩

/-! ## Scalars -/

theorem writesScalar_of {i : Instr} {s : State} {d : Nat} {v : DWord} (h : exec i s = .next (writeS s d v)) :
    WritesScalar i s d v := by
  refine ⟨_, h, onlyTeam_modTeam _ _, ?_⟩
  simp only [writeS, State.modTeam_team]
  exact ⟨rest_putS _ _ _, fun r i hi => laneAt_putS _ _ _ _ _ hi, fun r i hi => predAt_putS _ _ _ _ _ hi,
    by rw [scalarAt_putS]; simp, fun p hp => by rw [scalarAt_putS]; simp [hp]⟩

/-! ## Lanes -/

theorem rest_fpflags_zero (t : Team) : ({ t.rest with fpflags := t.fpflags ||| BitVec.ofNat 32 0 } : Team) = t.rest := by
  simp [Team.rest]

/-- What `writeN` does to a team: the pair is written when wide. -/
theorem writeN_team (s : State) (wide : Bool) (d : Nat) (ls : List Nat) (f : Nat → Nat) (hl : ∀ k ∈ ls, k < 1024) :
    OnlyTeam s (writeN s wide d (ls.map fun i => (i, f i))) ∧
    (writeN s wide d (ls.map fun i => (i, f i))).team.rest = s.team.rest ∧
    SameScalars s.team (writeN s wide d (ls.map fun i => (i, f i))).team ∧
    SamePreds s.team (writeN s wide d (ls.map fun i => (i, f i))).team ∧
    ∀ r k, k < 1024 → (writeN s wide d (ls.map fun i => (i, f i))).team.laneAt r k =
      if wide = true ∧ r = logV s d + 1 then
        landedAt (s.team.inFlight 0 (logV s d + 1)) ls k (BitVec.ofNat 32 (f k / 2 ^ 32)) (s.team.laneAt (logV s d + 1) k)
      else if r = logV s d then landedAt (s.team.inFlight 0 (logV s d)) ls k (BitVec.ofNat 32 (f k)) (s.team.laneAt (logV s d) k)
      else s.team.laneAt r k := by
  cases wide
  · simp only [writeN, Bool.false_eq_true, if_false, false_and, List.map_map, Function.comp_def, writeV, State.modTeam_team]
    exact ⟨onlyTeam_modTeam _ _, rest_putV _ _ _, fun p => scalarAt_putV _ _ _ _, fun p i hi => predAt_putV _ _ _ _ _ hi,
      fun r k hk => laneAt_putV _ _ ls (fun k => BitVec.ofNat 32 (f k)) hl _ _ hk⟩
  · have hv : (ls.map fun i => (i, f i)).map (fun (x : Nat × Nat) => (x.1, BitVec.ofNat 64 x.2)) =
        ls.map fun i => (i, BitVec.ofNat 64 (f i)) := by simp [List.map_map, Function.comp_def]
    simp only [writeN, if_true, hv, writeV64, List.map_map, Function.comp_def]
    have hlog : logV (writeV s d (ls.map fun i => (i, BitVec.truncate 32 (BitVec.ofNat 64 (f i))))) (d + 1) = logV s d + 1 := by
      have hw : (writeV s d (ls.map fun i => (i, BitVec.truncate 32 (BitVec.ofNat 64 (f i))))).src.winbase = s.src.winbase := by
        simp only [writeV, State.modTeam, State.setTeam_src]
        show (s.snap.getD _).winbase = (s.snap.getD s.team).winbase
        cases s.snap
        · rfl
        · rfl
      simp only [logV, hw, Nat.add_assoc]
    refine ⟨OnlyTeam.trans (onlyTeam_modTeam _ _) (onlyTeam_modTeam _ _), ?_, fun p => ?_, fun p i hi => ?_, fun r k hk => ?_⟩
    · simp only [writeV, State.modTeam_team, rest_putV]
    · simp only [writeV, State.modTeam_team, scalarAt_putV]
    · simp only [writeV, State.modTeam_team, predAt_putV _ _ _ _ _ hi]
    · rw [writeV, State.modTeam_team, hlog]
      rw [laneAt_putV _ _ ls _ hl _ _ hk]
      have e1 : BitVec.truncate 32 (BitVec.ofNat 64 (f k) >>> 32) = BitVec.ofNat 32 (f k / 2 ^ 32) := by
        apply BitVec.eq_of_toNat_eq
        simp [Nat.shiftRight_eq_div_pow]
        omega
      have e2 : BitVec.truncate 32 (BitVec.ofNat 64 (f k)) = BitVec.ofNat 32 (f k) := by
        apply BitVec.eq_of_toNat_eq
        simp
      have hf : (writeV s d (ls.map fun i => (i, BitVec.truncate 32 (BitVec.ofNat 64 (f i))))).team.inFlight 0 (logV s d + 1) =
          s.team.inFlight 0 (logV s d + 1) := by
        simp only [writeV, State.modTeam_team, Team.putV, Team.storeV]
        exact inFlight_touch _ _ _ _ _ _
      have hold : ∀ q, (writeV s d (ls.map fun i => (i, BitVec.truncate 32 (BitVec.ofNat 64 (f i))))).team.laneAt q k =
          if q = logV s d then landedAt (s.team.inFlight 0 (logV s d)) ls k (BitVec.ofNat 32 (f k)) (s.team.laneAt (logV s d) k)
          else s.team.laneAt q k := by
        intro q
        rw [writeV, State.modTeam_team, laneAt_putV _ _ ls _ hl _ _ hk, e2]
      rw [e1, hf]
      simp only [true_and, hold]
      by_cases h : r = logV s d + 1
      · have hne : ¬(logV s d + 1 = logV s d) := by omega
        rw [if_pos h, if_pos h, if_neg hne]
      · rw [if_neg h, if_neg h]

theorem writesLanes_of_writeN {i : Instr} {s : State} {wide : Bool} {d : Nat} {ls : List Nat} {f : Nat → Nat}
    (hl : ∀ k ∈ ls, k < 1024) (h : exec i s = .next (writeN s wide d (ls.map fun i => (i, f i)))) :
    WritesLanes i s wide d ls f 0 := by
  obtain ⟨h1, h2, h3, h4, h5⟩ := writeN_team s wide d ls f hl
  refine ⟨_, h, h1, by rw [h2, rest_fpflags_zero], h3, h4, fun k hk => ?_, fun hw k hk => ?_, fun r k hk hd hn => ?_⟩
  · rw [h5 _ _ hk]
    simp
  · rw [h5 _ _ hk]
    simp [hw]
  · rw [h5 _ _ hk, if_neg hn, if_neg hd]

theorem writesLanes_of_laneSet {i : Instr} {s : State} {g : Nat} {wide : Bool} {d : Nat} {f : Nat → Nat}
    (h : exec i s = .next (laneSet s g wide d f)) : WritesLanes i s wide d (active s g) f 0 :=
  writesLanes_of_writeN (fun _ => active_lt) h

/-- The same for an instruction that writes one word a lane with `writeV`. -/
theorem writesLanes_of_writeV {i : Instr} {s : State} {d : Nat} {ls : List Nat} {f : Nat → Nat}
    (hl : ∀ k ∈ ls, k < 1024) (h : exec i s = .next (writeV s d (ls.map fun i => (i, BitVec.ofNat 32 (f i))))) :
    WritesLanes i s false d ls f 0 := by
  refine writesLanes_of_writeN hl ?_
  rw [h]
  simp [writeN, List.map_map, Function.comp_def]

/-! ## Flags -/

theorem land_bit_ne_zero {en fl f : Nat} (h : Nat.land en fl = 0) (hf : Nat.land en f ≠ 0) (hp : ∃ k, f = 2 ^ k) :
    Nat.land fl f = 0 := by
  obtain ⟨k, rfl⟩ := hp
  have h' : ∀ j, (en &&& fl).testBit j = false := fun j => by rw [show en &&& fl = 0 from h]; exact Nat.zero_testBit j
  have he : en.testBit k = true := by
    cases hb : en.testBit k
    · exfalso
      apply hf
      apply Nat.eq_of_testBit_eq
      intro j
      rw [show Nat.land en (2 ^ k) = en &&& 2 ^ k from rfl, Nat.testBit_and, Nat.testBit_two_pow, Nat.zero_testBit]
      by_cases hj : k = j
      · subst hj; simp [hb]
      · simp [hj]
    · rfl
  have hk := h' k
  rw [Nat.testBit_and, he, Bool.true_and] at hk
  apply Nat.eq_of_testBit_eq
  intro j
  rw [show Nat.land fl (2 ^ k) = fl &&& 2 ^ k from rfl, Nat.testBit_and, Nat.testBit_two_pow, Nat.zero_testBit]
  by_cases hj : k = j
  · subst hj; simp [hk]
  · simp [hj]

theorem firstLane_none {f : Nat} {out : List LaneOut} (h : ∀ x ∈ out, Nat.land x.2.2 f = 0) : firstLane f out = none := by
  induction out with
  | nil => rfl
  | cons x out ih =>
    obtain ⟨i, r, fl⟩ := x
    have := h _ List.mem_cons_self
    simp only at this
    simp only [firstLane, this, if_true]
    exact ih fun y hy => h y (List.mem_cons_of_mem _ hy)

/-- Where no lane raises an enabled flag nothing traps (R46, R48). -/
theorem firstTrap_none {en : Nat} {out : List LaneOut} (h : ∀ x ∈ out, Nat.land en x.2.2 = 0) :
    firstTrap en out trapOrder = none := by
  have key : ∀ l : List (Nat × Nat), (∀ p ∈ l, ∃ k, p.1 = 2 ^ k) → firstTrap en out l = none := by
    intro l
    induction l with
    | nil => intro _; rfl
    | cons p l ih =>
      intro hp
      obtain ⟨f, k⟩ := p
      have hf := hp _ List.mem_cons_self
      simp only at hf
      have := ih fun q hq => hp q (List.mem_cons_of_mem _ hq)
      simp only [firstTrap]
      split
      · exact this
      · rename_i hne
        rw [firstLane_none fun x hx => land_bit_ne_zero (h x hx) hne hf]
        exact this
  apply key
  intro p hp
  simp only [trapOrder, List.mem_cons, List.not_mem_nil, or_false] at hp
  rcases hp with rfl | rfl | rfl | rfl | rfl | rfl | rfl
  · exact ⟨5, rfl⟩
  · exact ⟨0, rfl⟩
  · exact ⟨1, rfl⟩
  · exact ⟨2, rfl⟩
  · exact ⟨3, rfl⟩
  · exact ⟨4, rfl⟩
  · exact ⟨6, rfl⟩

theorem rest_with_fpflags (t : Team) (f n : BitVec 32) :
    ({ t with fpflags := f, fpnew := n } : Team).rest = { t.rest with fpflags := f } := rfl

theorem writesLanes_of_finish {i : Instr} {s : State} {unit : Nat} {wide : Bool} {d : Nat} {ls : List Nat} {f : Nat → Nat × Nat}
    {out : List LaneOut} (hl : ∀ k ∈ ls, k < 1024)
    (ho : ∀ x ∈ out, Nat.land (enables s) x.2.2 = 0)
    (h : exec i s = .next (finish s unit out fun s => writeN s wide d (ls.map fun i => (i, (f i).1)))) :
    WritesLanes i s wide d ls (fun i => (f i).1) (allFlags out) := by
  rw [finish, firstTrap_none ho] at h
  obtain ⟨h1, h2, h3, h4, h5⟩ := writeN_team s wide d ls (fun i => (f i).1) hl
  have hfl : (writeN s wide d (ls.map fun i => (i, (f i).1))).team.fpflags = s.team.fpflags := (congrArg Team.fpflags h2 :)
  refine ⟨_, h, OnlyTeam.trans h1 (onlyTeam_modTeam _ _), ?_⟩
  simp only [orFlags, State.modTeam_team, rest_with_fpflags, h2, hfl]
  refine ⟨trivial, fun p => h3 p, fun p i hi => h4 p i hi, fun k hk => ?_, fun hw k hk => ?_, fun r k hk hd hn => ?_⟩
  · refine (h5 (logV s d) k hk).trans ?_
    simp
  · refine (h5 (logV s d + 1) k hk).trans ?_
    simp [hw]
  · refine (h5 r k hk).trans ?_
    rw [if_neg hn, if_neg hd]

/-- The flags that some lane of ls raises. -/
theorem allFlags_map (ls : List Nat) (f : Nat → Nat × Nat) :
    allFlags (ls.map fun i => (i, f i)) = ls.foldl (fun a i => orNat a (f i).2) 0 := by
  simp [allFlags, List.foldl_map]

theorem writesLanes_of_laneOp {i : Instr} {s : State} {unit g : Nat} {wide : Bool} {d : Nat} {f : Nat → Nat × Nat}
    (ho : ∀ k ∈ active s g, Nat.land (enables s) (f k).2 = 0) (h : exec i s = .next (laneOp s unit g wide d f)) :
    WritesLanes i s wide d (active s g) (fun i => (f i).1) ((active s g).foldl (fun a i => orNat a (f i).2) 0) := by
  rw [← allFlags_map]
  refine writesLanes_of_finish (unit := unit) (fun _ => active_lt) ?_ ?_
  · intro x hx
    obtain ⟨k, hk, rfl⟩ := List.mem_map.1 hx
    exact ho k hk
  · rw [h, laneOp]
    simp only [resultsOf, List.map_map, Function.comp_def]

/-! ## Elements (R106) -/

theorem buildElems_lt (w : Nat) (f : Nat → Nat × Nat) (n : Nat) : (buildElems w f n).1 < 2 ^ (w * n) := by
  induction n with
  | zero => simp [buildElems]
  | succ n ih =>
    simp only [buildElems]
    have h1 : (f n).1 % 2 ^ w + 1 ≤ 2 ^ w := Nat.mod_lt _ (Nat.two_pow_pos w)
    have h2 : ((f n).1 % 2 ^ w + 1) * 2 ^ (w * n) ≤ 2 ^ w * 2 ^ (w * n) := Nat.mul_le_mul_right _ h1
    have h3 : 2 ^ (w * (n + 1)) = 2 ^ w * 2 ^ (w * n) := by rw [Nat.mul_succ, Nat.add_comm, Nat.pow_add]
    rw [Nat.add_mul, Nat.one_mul] at h2
    omega

theorem buildElems_eq {w : Nat} {f : Nat → Nat × Nat} {n r : Nat} (hr : r < 2 ^ (w * n))
    (he : ∀ e, e < n → elem w r e = (f e).1 % 2 ^ w) : (buildElems w f n).1 = r := by
  induction n generalizing r with
  | zero => simp only [Nat.mul_zero, Nat.pow_zero] at hr; simp only [buildElems]; omega
  | succ n ih =>
    have hp : 0 < 2 ^ (w * n) := Nat.two_pow_pos _
    have h3 : 2 ^ (w * (n + 1)) = 2 ^ (w * n) * 2 ^ w := by rw [Nat.mul_succ, Nat.pow_add]
    have hlow : (buildElems w f n).1 = r % 2 ^ (w * n) := by
      apply ih (Nat.mod_lt _ hp)
      intro e hen
      rw [← he e (by omega)]
      simp only [elem]
      have hsplit : w * n = w * e + w + w * (n - e - 1) := by
        have : n = e + 1 + (n - e - 1) := by omega
        conv => lhs; rw [this]
        simp [Nat.mul_add]
      rw [hsplit, Nat.pow_add, Nat.pow_add, Nat.mul_assoc, Nat.mod_mul_right_div_self, Nat.mod_mul_right_mod]
    have hhigh : r / 2 ^ (w * n) = (f n).1 % 2 ^ w := by
      rw [← he n (Nat.lt_succ_self n), elem, Nat.mod_eq_of_lt]
      rw [Nat.div_lt_iff_lt_mul hp, Nat.mul_comm]
      omega
    simp only [buildElems]
    rw [hlow, ← hhigh, Nat.mul_comm (r / 2 ^ (w * n))]
    exact Nat.mod_add_div r (2 ^ (w * n))

theorem buildElems_flags (w : Nat) (f : Nat → Nat × Nat) (n : Nat) :
    (buildElems w f n).2 = (List.range n).foldl (fun a e => orNat a (f e).2) 0 := by
  induction n with
  | zero => rfl
  | succ n ih => simp only [buildElems, List.range_succ, List.foldl_append, List.foldl_cons, List.foldl_nil, ih]

theorem landedAt_congr {α : Type} {b : Bool} {ls : List Nat} {k : Nat} {v w : α} {old : Option α} (h : k ∈ ls → v = w) :
    landedAt b ls k v old = landedAt b ls k w old := by
  by_cases hm : k ∈ ls
  · rw [h hm]
  · simp [landedAt, hm]

theorem WritesLanes.congr {i : Instr} {s : State} {wide : Bool} {d : Nat} {ls : List Nat} {f g : Nat → Nat} {fl fl' : Nat}
    (h : WritesLanes i s wide d ls f fl) (hf : ∀ k ∈ ls, f k = g k) (hfl : fl = fl') : WritesLanes i s wide d ls g fl' := by
  subst hfl
  obtain ⟨t, h1, h2, h3, h4, h5, h6, h7, h8⟩ := h
  exact ⟨t, h1, h2, h3, h4, h5, fun k hk => by rw [h6 k hk]; exact landedAt_congr fun hm => by rw [hf k hm],
    fun hw k hk => by rw [h7 hw k hk]; exact landedAt_congr fun hm => by rw [hf k hm], h8⟩

theorem foldl_or_congr {ls : List Nat} {f g : Nat → Nat} (h : ∀ k ∈ ls, f k = g k) (a : Nat) :
    ls.foldl (fun a k => orNat a (f k)) a = ls.foldl (fun a k => orNat a (g k)) a := by
  induction ls generalizing a with
  | nil => rfl
  | cons x ls ih =>
    simp only [List.foldl_cons, h x List.mem_cons_self]
    exact ih (fun k hk => h k (List.mem_cons_of_mem _ hk)) _

/-- An elementwise instruction built with `laneOp`. -/
theorem laneResults_of_laneOp {i : Instr} {s : State} {unit g : Nat} {wide : Bool} {d w n : Nat} {f : Nat → Nat → Nat × Nat}
    (h : operandCause i s = none → exec i s = .next (laneOp s unit g wide d fun k => buildElems w (f k) n)) :
    LaneResults i s g wide d w n f := by
  intro hc r fl hr hfl hen
  have hflag : ∀ k ∈ active s g, (buildElems w (f k) n).2 = fl k := fun k hk => by rw [buildElems_flags, hfl k hk]
  refine WritesLanes.congr (writesLanes_of_laneOp (unit := unit) ?_ (h hc)) ?_ ?_
  · intro k hk; rw [hflag k hk]; exact hen k hk
  · intro k hk; exact buildElems_eq (hr k hk).1 (hr k hk).2
  · exact foldl_or_congr hflag 0

/-- An elementwise instruction that raises no flag. -/
theorem laneResults_of_laneSet {i : Instr} {s : State} {g : Nat} {wide : Bool} {d w n : Nat} {f : Nat → Nat → Nat}
    (h : operandCause i s = none → exec i s = .next (laneSet s g wide d fun k => (buildElems w (fun e => (f k e, 0)) n).1)) :
    LaneResults i s g wide d w n fun k e => (f k e, 0) := by
  intro hc r fl hr hfl _
  have hz : ∀ k ∈ active s g, fl k = 0 := by
    intro k hk
    rw [hfl k hk]
    have : ∀ l : List Nat, l.foldl (fun a (_ : Nat) => orNat a 0) 0 = 0 := by
      intro l; induction l with
      | nil => rfl
      | cons x l ih => rw [List.foldl_cons]; exact ih
    exact this _
  refine WritesLanes.congr (writesLanes_of_laneSet (h hc)) ?_ ?_
  · intro k hk; exact buildElems_eq (hr k hk).1 (hr k hk).2
  · rw [foldl_or_congr hz 0]
    generalize active s g = l
    induction l with
    | nil => rfl
    | cons x l ih => rw [List.foldl_cons]; exact ih

/-! ## Predicates -/

theorem getLsbD_lanesBelow {n k : Nat} (hk : k < 1024) : (lanesBelow n).getLsbD k = decide (k < n) := by
  rw [lanesBelow, BitVec.getLsbD_ofNat, Nat.testBit_two_pow_sub_one, decide_eq_true hk, Bool.true_and]

theorem mem_lanesOf_iff {m : Lanes} {n k : Nat} (hk : k < 1024) : k ∈ lanesOf m n ↔ (m &&& lanesBelow n).getLsbD k = true := by
  rw [mem_lanesOf, BitVec.getLsbD_and, getLsbD_lanesBelow hk]
  simp [and_comm]

/-- A predicate write spoils its destination where some lane of the team is written. -/
theorem predAt_writeP (s : State) (d : Nat) (m v : Lanes) (k : Nat) (hk : k < 1024) :
    (writeP s d m v).team.predAt d k =
      landedAt (s.team.inFlight 2 d) (lanesOf m s.block.lanes) k (v.getLsbD k) (s.team.predAt d k) := by
  rw [writeP, State.modTeam_team, predAt_putP _ _ _ _ _ _ hk, if_pos rfl, landedAt]
  have hz : m &&& lanesBelow s.block.lanes ≠ 0 ↔ (!(lanesOf m s.block.lanes).isEmpty) = true := by
    constructor
    · intro h
      rw [Bool.not_eq_true', List.isEmpty_eq_false_iff]
      intro he
      apply h
      apply BitVec.eq_of_getLsbD_eq
      intro i hi
      have : ¬ i ∈ lanesOf m s.block.lanes := by rw [he]; exact List.not_mem_nil
      rw [mem_lanesOf_iff hi] at this
      simpa using this
    · intro h hz
      rw [Bool.not_eq_true', List.isEmpty_eq_false_iff] at h
      obtain ⟨j, hj⟩ := List.exists_mem_of_ne_nil _ h
      rw [mem_lanesOf_iff (lanesOf_lt hj), hz] at hj
      simp at hj
  by_cases hp : s.team.inFlight 2 d = true ∧ m &&& lanesBelow s.block.lanes ≠ 0
  · rw [if_pos hp, if_pos]
    rw [hp.1, hz.1 hp.2]
    rfl
  · rw [if_neg hp, if_neg (fun h => hp ⟨(Bool.and_eq_true_iff.1 h).1, hz.2 (Bool.and_eq_true_iff.1 h).2⟩)]
    by_cases h : k ∈ lanesOf m s.block.lanes
    · rw [if_pos ((mem_lanesOf_iff hk).1 h), if_pos (by simpa using h)]
    · rw [if_neg (fun x => h ((mem_lanesOf_iff hk).2 x)), if_neg (by simpa using h)]

theorem predAt_writeP_ne (s : State) (d : Nat) (m v : Lanes) (p k : Nat) (hk : k < 1024) (hp : p ≠ d) :
    (writeP s d m v).team.predAt p k = s.team.predAt p k := by
  rw [writeP, State.modTeam_team, predAt_putP _ _ _ _ _ _ hk, if_neg hp]

theorem writesPred_of_writeP {i : Instr} {s : State} {d : Nat} {m v : Lanes} (h : exec i s = .next (writeP s d m v)) :
    WritesPred i s d (lanesOf m s.block.lanes) (fun k => v.getLsbD k) 0 := by
  refine ⟨_, h, onlyTeam_modTeam _ _, ?_, ?_, ?_, fun k hk => predAt_writeP _ _ _ _ _ hk, fun p k hk hp => predAt_writeP_ne _ _ _ _ _ _ hk hp⟩
  · simp only [writeP, State.modTeam_team, rest_putP, rest_fpflags_zero]
  · simp only [writeP, State.modTeam_team]; exact fun p => scalarAt_putP _ _ _ _ _
  · simp only [writeP, State.modTeam_team]; exact fun r i hi => laneAt_putP _ _ _ _ _ _ hi

theorem writesPred_of_lanePred {i : Instr} {s : State} {unit g d : Nat} {f : Nat → Bool × Nat}
    (ho : ∀ k ∈ active s g, Nat.land (enables s) (f k).2 = 0) (h : exec i s = .next (lanePred s unit g d f)) :
    WritesPred i s d (active s g) (fun k => (f k).1) ((active s g).foldl (fun a i => orNat a (f i).2) 0) := by
  have ht : firstTrap (enables s) ((active s g).map fun i => (i, (if (f i).1 = true then 1 else 0), (f i).2)) trapOrder = none := by
    apply firstTrap_none
    intro x hx
    obtain ⟨k, hk, rfl⟩ := List.mem_map.1 hx
    exact ho k hk
  have hv : ∀ k ∈ active s g, (maskOf (((((active s g).map fun i => (i, (if (f i).1 = true then 1 else 0), (f i).2)).filter
      fun x => x.2.1 == 1)).map fun x => x.1)).getLsbD k = (f k).1 := by
    intro k hk
    rw [getLsbD_maskOf _ _ (active_lt hk)]
    cases hf : (f k).1
    · simp only [decide_eq_false_iff_not]
      intro hm
      obtain ⟨x, hx, rfl⟩ := List.mem_map.1 hm
      obtain ⟨hx, h1⟩ := List.mem_filter.1 hx
      obtain ⟨j, _, rfl⟩ := List.mem_map.1 hx
      simp only at hf h1
      simp [hf] at h1
    · simp only [decide_eq_true_eq]
      exact List.mem_map.2 ⟨_, List.mem_filter.2 ⟨List.mem_map.2 ⟨k, hk, rfl⟩, by simp [hf]⟩, rfl⟩
  have hfl : allFlags ((active s g).map fun i => (i, (if (f i).1 = true then 1 else 0), (f i).2)) =
      (active s g).foldl (fun a i => orNat a (f i).2) 0 := by simp [allFlags, List.foldl_map]
  rw [lanePred, finish, ht] at h
  simp only at h
  generalize maskOf (((((active s g).map fun i => (i, (if (f i).1 = true then 1 else 0), (f i).2)).filter
      fun x => x.2.1 == 1)).map fun x => x.1) = v at hv h
  refine ⟨_, h, OnlyTeam.trans (onlyTeam_modTeam _ _) (onlyTeam_modTeam _ _), ?_, ?_, ?_, fun k hk => ?_, fun p k hk hp => ?_⟩
  · simp only [orFlags, writeP, State.modTeam_team, rest_with_fpflags, rest_putP, hfl]
    rfl
  · simp only [orFlags, writeP, State.modTeam_team]; exact fun p => scalarAt_putP s.team d _ v p
  · simp only [orFlags, writeP, State.modTeam_team]; exact fun r i hi => laneAt_putP s.team d _ v r i hi
  · simp only [orFlags, State.modTeam_team]
    refine (predAt_writeP s d (guarded s g) v k hk).trans ?_
    simp only [active, landedAt, List.contains_eq_mem, decide_eq_true_eq]
    split
    · rfl
    · split
      · rename_i hm
        rw [hv k hm]
      · rfl
  · simp only [orFlags, State.modTeam_team]
    exact predAt_writeP_ne s d (guarded s g) v p k hk hp

/-! ## The team -/

theorem sameRegs_refl (t : Team) : SameRegs t t := ⟨fun _ => rfl, fun _ _ _ => rfl, fun _ _ _ => rfl⟩

theorem changesTeam_of {i : Instr} {s : State} {f : Team → Team} (h : exec i s = .next (s.modTeam f))
    (hr : ∀ t : Team, SameRegs t (f t)) : ChangesTeam i s f :=
  ⟨_, h, onlyTeam_modTeam _ _, by simp, by rw [State.modTeam_team]; exact hr _⟩

theorem transfersTo_of {i : Instr} {s : State} {p : Nat} (h : exec i s = .next (jumpTo s p)) : TransfersTo i s p :=
  ⟨_, h, onlyTeam_modTeam s fun t => { t with pkt := p, slot := 0, ibuf := none, waits := [] }, rfl,
    by simp only [jumpTo, State.withFate_team, State.modTeam_team]; exact sameRegs_refl _,
    by simp [jumpTo]⟩

/-! ## Checks -/

theorem checked_none {chk : Option Nat} {s : State} {k : State → State} (h : chk = none) : checked chk s k = k s := by
  rw [h]; rfl

theorem checked_some {chk : Option Nat} {s : State} {k : State → State} {c : Nat} (h : chk = some c) :
    checked chk s k = raiseCode c s := by
  rw [h]; rfl

theorem need_true {b : Bool} {c : Nat} (h : b = true) : need b c = none := by simp [need, h]
theorem need_false {b : Bool} {c : Nat} (h : b = false) : need b c = some c := by simp [need, h]

end Sys2Proof.Machine
end

