-- ==== Sys2Proof/Tests/Slice0.lean ====
section
/-! SUPPORT. The model's own tests: words of the spec that decode, ill-formed instructions refused, one step of an instruction on a small
state with the result the spec states, and for every statement a state that meets its hypotheses. -/

namespace Sys2Proof.Tests

-- one test after the other: kernel evaluations that wait for each other would each hold a thread
set_option Elab.async false
open Sys2Proof.Machine

/-! ## Small states -/

/-- One resident team of 16 lanes and 64 registers in front of a NOP at address 0 (log 12). -/
def base : State := State.reset.withFetchWord 32 0

/-- The same with its team changed. -/
def withTeam (f : Team → Team) : State := base.modTeam f

/-- The same with some scalars. -/
def withS (l : List (Nat × DWord)) : State := withTeam fun t => { t with sregs := l }

/-- The team in the handler's mode. -/
def withP (f : Team → Team) : State := withTeam fun t => f { t with priv := true }

/-- The context with a handler installed at packet 0 (TVEC.EN). -/
def handled (s : State) : State := { s with ctxs := [(0, ⟨0, 0, 2 ^ 63, 0, 0, 0, 0⟩)] }

/-- The state an instruction leaves. -/
def after (i : Instr) (s : State) : State :=
  match exec i s with
  | .next t => t
  | .fault _ => s
  | .refused _ => s

/-- The state a step leaves. -/
def stepped (s : State) : State :=
  match step s with
  | .next t => t
  | .fault _ => s
  | .refused _ => s

/-! ## Words of the spec (R65 and its worked encodings) -/

-- 05, the packet of R85's example
theorem test_decode_scalar : decodeTableWord 32 0x010420C0 = some (.sadd 1 2 3) := by decide
theorem test_decode_float : decodeTableWord 64 (0x3810108C + 0x7F008000 * 2 ^ 32) = some (.faddLong ⟨4, 1, 2, 3, 0⟩ 1) := by decide
-- 06 R93
theorem test_decode_branch : decodeTableWord 32 0x1115FFFD = some (.brc 5 1 0xFFFD) := by decide
theorem test_decode_call : decodeTableWord 32 0x1410001E = some (.call 4 30) := by decide
-- 07 R110, R114
theorem test_decode_dot : decodeTableWord 64 (0x271820FE + 0x7F204000 * 2 ^ 32) = some (.vdot4 ⟨6, 2, 3, 15, 2⟩ 8 true) := by decide
theorem test_decode_fma : decodeTableWord 64 (0x3B2810BC + 0x7F0F8000 * 2 ^ 32) = some (.ffma ⟨10, 1, 2, 15, 0⟩ 3 7) := by decide
-- 08 R134
theorem test_decode_vhq : decodeTableWord 64 (0x5C20417C + 0x7F500004 * 2 ^ 32) = some (.vhq ⟨8, 4, 5, 15, 0⟩ 20 4) := by decide
-- 09 R143, R152
theorem test_decode_load : decodeTableWord 64 (0x62287342 + 0x7F000100 * 2 ^ 32) = some (.ldg32Long ⟨10, 7, 3, 4, 2⟩ 256) := by decide
theorem test_decode_tile : decodeTableWord 32 0x6F07F41F = some (.tst 4 1) := by decide
-- 10 R161, R172; 16, 17
theorem test_decode_atomic : decodeTableWord 64 (0x70084380 + 0x7F1809FB * 2 ^ 32) = some (.atg ⟨2, 4, 3, 4, 0, 0, 6, 9, 15, 11⟩) := by decide
theorem test_decode_reduce : decodeTableWord 64 (0x7117FFA2 + 0x7F0C0020 * 2 ^ 32) = some (.redg ⟨5, 63, 5, 0, 2, 3, 2, 0⟩) := by decide
theorem test_decode_queue : decodeTableWord 32 0x75203201 = some (.deq 8 3 2 1) ∧ decodeTableWord 32 0x74303000 = some (.enq 12 3 0 0) := by decide
-- 12 R197, R208, R213; 18
theorem test_decode_barrier : decodeTableWord 32 0x79003F28 = some (.bsyn 3 1) := by decide
theorem test_decode_guard : decodeTableWord 32 0x78180F85 = some (.acq 6 4 1) := by decide
theorem test_decode_arrival : decodeTableWord 32 0x7A287F2D = some (.wadr 10 7 1 1) := by decide
theorem test_decode_paddock : decodeTableWord 32 0x7D20121F = some (.pdatt 8 1 2) := by decide
-- 13
theorem test_decode_dray : decodeTableWord 64 (0x7C20410F + 0x7F001F00 * 2 ^ 32) = some (.dcpyLong ⟨8, 4, 1, 15⟩ 0x1F00) := by decide
-- 19, 21 R327, 26
theorem test_decode_csr : decodeTableWord 32 0x7EE20240 = some (.csrr 56 0x809) ∧ decodeTableWord 32 0x7E000002 = some .eret := by decide
theorem test_decode_system : decodeTableWord 32 0x7E140003 = some (.tlbi 5 0) ∧ decodeTableWord 32 0x7E500004 = some (.sread 20) := by decide
-- 14, the coachman's stream
theorem test_decode_matrix : decodeCoachWords [0x0114838E, 0x7F000012] = some (.msetz ⟨2, 2, 4, 7, 7, 0, 0, 18⟩) ∧
    decodeCoachWords [0x03184480, 0x7FF0003F] = some (.mma ⟨3, 1, 2, 4, 0, 0⟩ 15 false 0 63) ∧
    decodeCoachWords [0x02180000] = some (.mzer 3) ∧ decodeCoachWords [0x08100000] = some (.mbar 1 0) ∧
    decodeCoachWords [0x0C000000] = some .mend := by decide

-- R85: an extension word where an instruction is expected, a reserved sub-op, a reserved bit, a pool marker
theorem test_decode_rejects : decodeTeamWords [0xFF008000] = none ∧ decodeTeamWords [0x7F000000] = none ∧
    decodeTeamWords [0x0100003C] = none ∧ decodeTeamWords [0x01000001] = none ∧ decodeTeamWords [0x17000000] = none ∧
    decodeTeamWords [0x7C20410E] = some (.dcpy ⟨8, 4, 1, 14⟩) ∧ decodeTeamWords [0x7C24410F] = none := by decide

/-! ## Ill-formed instructions: one for each check -/

theorem test_wf_fields : Instr.wf (.sadd 64 0 0) = false ∧ Instr.wf (.sadd 0 64 0) = false ∧ Instr.wf (.sadd 0 0 64) = false ∧
    Instr.wf (.smad 0 0 0 64) = false ∧ Instr.wf (.sbfx 0 0 32 32) = false ∧ Instr.wf (.scmp 0 0 0 6) = false ∧
    Instr.wf (.sldi 0 4096) = false ∧ Instr.wf (.sldiLong 0 4294967296) = false ∧ Instr.wf (.sread 1) = false ∧
    Instr.wf (.sread 64) = false ∧ Instr.wf (.mpush 64) = false := by decide
theorem test_wf_vector : Instr.wf (.vadd ⟨64, 0, 0, 0, 0⟩) = false ∧ Instr.wf (.vadd ⟨0, 64, 0, 0, 0⟩) = false ∧
    Instr.wf (.vadd ⟨0, 0, 64, 0, 0⟩) = false ∧ Instr.wf (.vadd ⟨0, 0, 0, 16, 0⟩) = false ∧ Instr.wf (.vadd ⟨0, 0, 0, 0, 4⟩) = false ∧
    Instr.wf (.fabs ⟨64, 0, 0, 0⟩) = false ∧ Instr.wf (.fabs ⟨0, 64, 0, 0⟩) = false ∧ Instr.wf (.fabs ⟨0, 0, 16, 0⟩) = false ∧
    Instr.wf (.fabs ⟨0, 0, 0, 4⟩) = false ∧ Instr.wf (.faddLong ⟨0, 0, 0, 0, 0⟩ 5) = false ∧
    Instr.wf (.ffma ⟨0, 0, 0, 0, 0⟩ 64 7) = false ∧ Instr.wf (.ffma ⟨0, 0, 0, 0, 0⟩ 0 6) = false := by decide
theorem test_wf_memory : Instr.wf (.ldg32 ⟨64, 0, 0, 15, 0⟩) = false ∧ Instr.wf (.ldg32 ⟨0, 64, 0, 15, 0⟩) = false ∧
    Instr.wf (.ldg32 ⟨0, 0, 16, 15, 0⟩) = false ∧ Instr.wf (.ldg32 ⟨0, 0, 0, 12, 0⟩) = false ∧ Instr.wf (.ldg32 ⟨0, 0, 0, 15, 16⟩) = false ∧
    Instr.wf (.stg32 ⟨64, 0, 0, 0⟩) = false ∧ Instr.wf (.stg32 ⟨0, 64, 0, 0⟩) = false ∧ Instr.wf (.stg32 ⟨0, 0, 16, 0⟩) = false ∧
    Instr.wf (.stg32 ⟨0, 0, 0, 16⟩) = false ∧ Instr.wf (.atg ⟨64, 0, 15, 4, 0, 0, 0, 0, 0, 0⟩) = false ∧
    Instr.wf (.atg ⟨0, 0, 15, 4, 0, 0, 0, 0, 0, 16⟩) = false ∧
    Instr.wf (.atg ⟨0, 0, 15, 4, 2, 0, 0, 0, 0, 0⟩) = false ∧ Instr.wf (.atg ⟨0, 0, 15, 4, 1, 0, 0, 0, 0, 14⟩) = false ∧
    Instr.wf (.redg ⟨0, 0, 4, 0, 0, 0, 0, 10⟩) = false ∧ Instr.wf (.redg ⟨0, 0, 4, 0, 1, 0, 0, 0⟩) = false ∧
    Instr.wf (.redg ⟨0, 0, 7, 0, 0, 0, 0, 0⟩) = false := by decide
theorem test_wf_engines : Instr.wf (.bsyn 16 1) = false ∧ Instr.wf (.bsyn 8 2) = false ∧ Instr.wf (.bsyn 4 3) = false ∧
    Instr.wf (.bsyn 4 4) = false ∧ Instr.wf (.bsyn 0 5) = false ∧ Instr.wf (.dcpy ⟨1, 0, 15, 0⟩) = false ∧
    Instr.wf (.dcpy ⟨64, 0, 15, 0⟩) = false ∧ Instr.wf (.dcpy ⟨0, 64, 15, 0⟩) = false ∧ Instr.wf (.dcpy ⟨0, 0, 14, 0⟩) = false ∧
    Instr.wf (.dcpy ⟨0, 0, 15, 16⟩) = false ∧ Instr.wf (.csrr 0 4) = false ∧ Instr.wf (.csrr 64 0) = false ∧
    Instr.wf (.csrw 0 0x801) = false ∧ Instr.wf (.sget 0 14) = false ∧ Instr.wf (.tlbi 0 2) = false := by decide
theorem test_wf_matrix : Instr.wf (.mma ⟨32, 0, 0, 0, 0, 0⟩ 15 false 0 0) = false ∧ Instr.wf (.mma ⟨0, 32, 0, 0, 0, 0⟩ 15 false 0 0) = false ∧
    Instr.wf (.mma ⟨0, 0, 0, 16, 0, 0⟩ 15 false 0 0) = false ∧ Instr.wf (.mma ⟨0, 0, 0, 0, 0, 0⟩ 8 false 0 0) = false ∧
    Instr.wf (.mma ⟨0, 0, 0, 0, 0, 0⟩ 15 false 8 0) = false ∧ Instr.wf (.mma ⟨0, 0, 0, 0, 0, 0⟩ 15 false 0 512) = false ∧
    Instr.wf (.mmat ⟨0, 0, 0, 0, 0, 0⟩ 15 1 0) = false ∧ Instr.wf (.msetz ⟨0, 3, 0, 0, 0, 0, 0, 0⟩) = false ∧
    Instr.wf (.msetz ⟨0, 0, 14, 0, 0, 0, 0, 0⟩) = false ∧ Instr.wf (.msetz ⟨0, 0, 0, 64, 0, 0, 0, 0⟩) = false ∧
    Instr.wf (.mbar 16 0) = false ∧ Instr.wf (.mbar 0 3) = false ∧ Instr.wf (.mwat 0 false 1) = false ∧ Instr.wf (.mlop 0 0) = false := by decide

/-! ## Steps and witnesses: scalars, control, exceptions -/

-- R86: 2^64 − 1 + 2 wraps to 1; the whole step: the word is fetched, decoded and run, and the packet goes on at slot 1
theorem test_sadd_wraps : (after (.sadd 1 2 3) (withS [(2, -1), (3, 2)])).team.scalarAt 1 = some 1 := by decide +kernel
theorem test_smulh_signed : (after (.smulh 1 2 3) (withS [(2, -1), (3, 2)])).team.scalarAt 1 = some (-1) := by decide +kernel
theorem test_ssar_sign : (after (.ssar 1 2 3) (withS [(2, 0x8000000000000000), (3, 63)])).team.scalarAt 1 = some (-1) := by decide +kernel
theorem test_step_runs_word : (stepped (State.reset.withFetchWord 32 0x0840_0FFF)).team.slot = 1 := by decide +kernel

/-! ## Witnesses: each theorem shows states and operands that meet the hypotheses of a statement, clause by clause -/

/-- a partition entry for partition 0 with core 0 (R389) -/
def withPart (s : State) : State := { s with parts := [(0, 1 + 3 * 2 ^ 5 + 1 * 2 ^ 8 + 16 * 2 ^ 16 + 4096 * 2 ^ 48)] }

theorem witness_ScalarCounts :
    (∀ j, j < 64 → 64 - 63 ≤ j → (readS (withS [(2, 1)]) 2).getLsbD j = false) ∧ (readS (withS [(2, 1)]) 2).getLsbD (63 - 63) = true ∧
    (∀ j, j < 64 → 64 - 64 ≤ j → (readS base 2).getLsbD j = false) := by decide +kernel

theorem witness_ScalarBitFields :
    60 + (3 + 1) ≤ 64 ∧
    (∀ j, j < 64 → (5 : DWord).getLsbD j = (decide (j ≤ 3) && (readS (withS [(2, 0x5000000000000000)]) 2).getLsbD (60 + j))) ∧
    (∀ j, j < 64 → (0x5000000000000007 : DWord).getLsbD j =
      if 60 ≤ j ∧ j ≤ 60 + 3 then (readS (withS [(1, 7), (2, 5)]) 2).getLsbD (j - 60) else (readS (withS [(1, 7), (2, 5)]) 1).getLsbD j) ∧
    64 < 61 + (3 + 1) := by decide +kernel

theorem witness_Sget :
    63 < min base.block.nreg 64 ∧ { base with identNow := some 4095 }.identNow = some 4095 ∧ base.identNow = none ∧
    tget (withTeam fun t => { t with pendw := [(4096, 5)] }).src.pendw 4096 = some 5 ∧ tget base.src.pendw 4096 = none := by decide +kernel

theorem witness_Sget_mask : ∀ j, j < 64 → ((1 : DWord).getLsbD j = true ↔
    j < base.block.lanes / base.block.w ∧
      ∃ i, base.src.mask.getLsbD i = true ∧ j * base.block.w ≤ i ∧ i < (j + 1) * base.block.w) := by
  have h : ∀ j, j < 64 → ((1 : DWord).getLsbD j = true ↔ j < base.block.lanes / base.block.w ∧
      ∃ i, i < (j + 1) * base.block.w ∧ base.src.mask.getLsbD i = true ∧ j * base.block.w ≤ i) := by decide +kernel
  intro j hj
  rw [h j hj]
  exact and_congr_right fun _ => ⟨fun ⟨i, a, b, c⟩ => ⟨i, b, c, a⟩, fun ⟨i, a, b, c⟩ => ⟨i, c, a, b⟩⟩

theorem witness_Sset :
    (∀ i, i < 1024 → (0x5 : Lanes).getLsbD i =
      ((withTeam fun t => { t with mask := 5, sregs := [(2, 1)] }).src.mask.getLsbD i &&
        decide (i < (withTeam fun t => { t with mask := 5, sregs := [(2, 1)] }).block.lanes) &&
        (readS (withTeam fun t => { t with mask := 5, sregs := [(2, 1)] }) 2).getLsbD (i / base.block.w))) ∧
    (readS (withS [(2, 2 ^ 32 - 1)]) 2).toNat < 2 ^ 32 ∧ 2 ^ 32 ≤ (readS (withS [(2, 2 ^ 32)]) 2).toNat ∧
    ((readS (withS [(2, 0x7F04)]) 2).toNat % 8 < 5 ∧ (readS (withS [(2, 0x7F04)]) 2).toNat / 8 % 32 = 0 ∧
      (readS (withS [(2, 0x7F04)]) 2).toNat < 2 ^ 15) ∧
    5 ≤ (readS (withS [(2, 5)]) 2).toNat % 8 ∧ (readS (withS [(2, 8)]) 2).toNat / 8 % 32 ≠ 0 ∧
    2 ^ 15 ≤ (readS (withS [(2, 2 ^ 15)]) 2).toNat := by decide +kernel

theorem witness_ReinFlits :
    (let s := withPart (withS [(2, 0x8300)])
     let v := (readS s 2).toNat
     v / 2 ^ 16 = 0 ∧ v / 2 ^ 10 % 32 = 0 ∧ v % 256 < 192 ∧ coreInPart s s.block.part (v % 256) = true ∧ tget s.team.snd 3 = none) ∧
    (let s := withPart (withTeam fun t => { t with sregs := [(2, 0x8300)], snd := [(3, 7)] })
     tget s.team.snd 3 = some 7) ∧
    (readS (withS [(2, 2 ^ 16)]) 2).toNat / 2 ^ 16 ≠ 0 ∧ (readS (withS [(2, 2 ^ 10)]) 2).toNat / 2 ^ 10 % 32 ≠ 0 ∧
    192 ≤ (readS (withS [(2, 192)]) 2).toNat % 256 ∧ coreInPart { base with parts := [(0, 1)] } 0 24 = false ∧
    (wget (withTeam fun t => { t with sndcfg := [(3, 0x8000)] }).src.sndcfg 3).getLsbD 15 = true ∧
    (wget base.src.sndcfg 3).getLsbD 15 = false ∧
    (let s := withTeam fun t => { t with sndcfg := [(3, 0x8300)], snd := [(3, 7)] }
     let t := s.team
     tget s.teams 0 = some t ∧ tget t.snd 3 = some 7 ∧
      ((tget (s.core ((wget t.sndcfg 3).toNat % 256)).rcv ((wget t.sndcfg 3).toNat / 256 % 4)).getD []).length < 16) ∧
    (let s := base.modCore 0 fun c => { c with rcv := [(1, [7, 8])], readers := [(1, [base.cur])] }
     (tget (s.core s.cur.core).rcv 1).getD [] = 7 :: [8] ∧ (tget (s.core s.cur.core).readers 1).getD [] = s.cur :: []) ∧
    (tget (base.core base.cur.core).rcv 1).getD [] = [] := by
  decide +kernel

theorem witness_Branches :
    ((base.src.pkt : Int) + (BitVec.ofNat 16 3).toInt = (3 : Nat) ∧ 3 < imagePackets base) ∧
    (readS base 2 = 0 ∧ readS (withS [(2, 1)]) 2 ≠ 0 ∧ (readS (withS [(2, -1)]) 2).toInt < 0 ∧ 0 ≤ (readS base 2).toInt) ∧
    ((withTeam fun t => { t with mask := 0 }).src.mask = 0 ∧ base.src.mask ≠ 0 ∧ base.src.mask = lanesBelow base.block.lanes ∧
      (withTeam fun t => { t with mask := 5 }).src.mask ≠ lanesBelow base.block.lanes) ∧
    (base.src.pkt : Int) + (BitVec.ofNat 16 0xFFFF).toInt < 0 ∧ (imagePackets base : Int) ≤ (base.src.pkt : Int) + (BitVec.ofNat 16 4).toInt ∧
    (readS (withS [(2, 36)]) 2).toNat = 12 * 3 ∧ (readS (withS [(2, 37)]) 2).toNat % 12 ≠ 0 ∧
    12 * imagePackets base ≤ (readS (withS [(2, 48)]) 2).toNat := by decide +kernel

theorem witness_Predicates :
    (0 ∈ activeAll base ∧ (readP (withTeam fun t => { t with pregs := [(1, 1)] }) 1).getLsbD 0 = true) ∧
    (∀ i, i ∈ activeAll base → (readP base 1).getLsbD i = false) ∧
    15 ∈ activeAll base ∧ (readP (withTeam fun t => { t with pregs := [(1, 0x8000)] }) 1).getLsbD 15 = true ∧
    (∀ j, j ∈ activeAll (withTeam fun t => { t with pregs := [(1, 0x8000)] }) →
      (readP (withTeam fun t => { t with pregs := [(1, 0x8000)] }) 1).getLsbD j = true → 15 ≤ j) := by decide +kernel

theorem witness_MaskStack :
    (withTeam fun t => { t with mstack := List.replicate 15 ⟨3, 0⟩ }).src.mstack.length < 16 ∧
    16 ≤ (withTeam fun t => { t with mstack := List.replicate 16 ⟨3, 0⟩ }).src.mstack.length ∧
    (withTeam fun t => { t with mstack := [⟨3, 0⟩] }).src.mstack = ⟨3, 0⟩ :: [] ∧ base.src.mstack = [] ∧ base.block.lanes ≤ 1024 := by
  decide +kernel

/-- a team whose window is nearly out of registers, with spill groups: floor 8 g of N = 64 -/
def spilling (f : Team → Team) (g : Nat) : State :=
  { withTeam f with blocks := [(0, { base.block with nreg := 64, spillGroups := g })] }

theorem witness_Calls :
    (3 < imagePackets base ∧ base.src.winbase + 8 * 0 + min base.block.nreg 64 ≤ base.src.lo + base.block.nreg ∧
      (base.src.pkt : Int) + (BitVec.ofNat 16 3).toInt = (3 : Nat) ∧ groupsBusy base (groupsFrom (base.src.lo / 8) (0 / 8)) = false) ∧
    (let s := spilling (fun t => { t with sregs := [(2, 36)] }) 2
     ((0 + 8 * 1 + 64 - 64 + 7) / 8 * 8) / 8 ≤ s.block.spillGroups ∧ (readS s 2).toNat = 12 * 3 ∧
      groupsBusy s (groupsFrom (s.src.lo / 8) (8 / 8)) = false ∧
      s.block.spillGroups < ((0 + 8 * 3 + 64 - 64 + 7) / 8 * 8) / 8) ∧
    (let s := { spilling (fun t => { t with sregs := [(2, 36)], pend := [⟨0, 7, 1, 0, 1, 0⟩] }) 1 with
        ops := [(1, ⟨⟨0, 0, 0, false⟩, 0, 0, 0, 0, 0, 0, 0, .tlbi, none, []⟩)] }
     groupsBusy s (groupsFrom (s.src.lo / 8) (8 / 8)) = true) ∧
    (12 * imagePackets base ≤ (readS (withS [(2, 48)]) 2).toNat) ∧
    ((readS (withS [(2, 36)]) 2).toNat = 12 * 3 ∧ (withS [(2, 36)]).src.winbase < 8 * 1) ∧
    (let s := withTeam fun t => { t with sregs := [(2, 36)], winbase := 16, lo := 8 }
     8 * 1 ≤ s.src.winbase ∧ s.src.lo ≤ s.src.winbase - 8 * 1) := by decide +kernel

theorem witness_ReturnRefills :
    let s := spilling (fun t => { t with sregs := [(2, 36)], winbase := 8, lo := 8 }) 1
    (readS s 2).toNat = 12 * 3 ∧ 3 < imagePackets s ∧ 8 * 1 ≤ s.src.winbase ∧ s.src.lo = 8 * (0 + 1) ∧ s.src.winbase - 8 * 1 = 8 * 0 ∧
    s.snap = none ∧ s.team.unspec = [] ∧ s.team.pend = [] ∧ 0 < s.block.nreg / 8 ∧ s.block.lanes ≤ 1024 ∧ spillPoisoned s [0] = false := by
  decide +kernel

theorem witness_Wait :
    (∃ f, f < 12 ∧ 0x800 / 2 ^ f % 2 = 1 ∧ ((withTeam fun t => { t with flags := [(11, ⟨1, none⟩)] }).team.flag f).count ≠ 0) ∧
    (∀ f, f < 12 → 0xFFF / 2 ^ f % 2 = 1 → (base.team.flag f).count = 0) ∧ (withP id).team.priv = true ∧
    (∀ f, f < 12 → 0xFFF / 2 ^ f % 2 = 1 → (base.team.flag f).record = none) ∧ (base.team.flag 15).record = none := by decide +kernel

theorem witness_Exit :
    base.cur.coach = false ∧ (∀ id, myWait base ≠ .op id) ∧ (∀ f, f < 12 → (base.team.flag f).count = 0) ∧
    (∀ f, f < 12 → (base.team.flag f).record = none) ∧ (base.team.flag 15).record = none ∧ base.team.guards = [] ∧ base.barriers = [] := by
  have h : myWait base = .none := by decide +kernel
  refine ⟨rfl, fun id => by rw [h]; exact Wait.noConfusion, ?_, ?_, ?_, ?_, ?_⟩ <;> decide +kernel

theorem witness_Handler :
    let s := handled base
    4095 < 4096 ∧ s.cur.coach = false ∧ s.team.priv = false ∧ s.myCtx.tvec / 2 ^ 63 % 2 = 1 ∧ s.team.pendw = [] ∧
    (causeOf 3).code < 512 ∧ (causeOf 3).lane < 1024 := by decide +kernel

theorem witness_Raises : Raises (.csrr 0 0x800) (handled base) (causeOf 5) ∧ Raises (.csrr 0 0x800) base (causeOf 5) :=
  ⟨rfl, rfl⟩

theorem witness_Escalation :
    base.cur.coach = false ∧ base.myCtx.tvec / 2 ^ 63 % 2 = 0 ∧ (withP id).src.priv = true ∧ (withP id).team.priv = true := by decide +kernel

theorem witness_Eret :
    (let s := withP fun t => { t with epc := 2 ^ 37 + 36 }
     s.src.priv = true ∧ s.src.winbase = s.src.swin ∧ s.src.epc.toNat / 2 ^ 36 % 4 ≠ 3 ∧ s.src.epc.toNat % 2 ^ 36 % 12 = 0 ∧
     s.src.epc.toNat % 2 ^ 36 / 12 < s.block.kern.npkt ∧ s.team.epc = s.src.epc) ∧
    (withP fun t => { t with swin := 8 }).src.winbase ≠ (withP fun t => { t with swin := 8 }).src.swin ∧
    (withP fun t => { t with epc := 3 * 2 ^ 36 }).src.epc.toNat / 2 ^ 36 % 4 = 3 ∧
    (withP fun t => { t with epc := 13 }).src.epc.toNat % 2 ^ 36 % 12 ≠ 0 ∧
    base.block.kern.npkt ≤ (withP fun t => { t with epc := 48 }).src.epc.toNat % 2 ^ 36 / 12 := by decide +kernel

theorem witness_UserMode : base.src.priv = false ∧ 0x800 ≤ 0x800 := by decide +kernel

theorem witness_Csrs :
    (withP id).src.priv = true ∧ (withP fun t => { t with sregs := [(63, 9), (71, 8)] }).src.scalarAt (56 + 7) = some 9 ∧
    csrRefuses 0x838 (readS (withP fun t => { t with sregs := [(2, 16)], wpc := [(0, 4)] }) 2).toNat
      (watchLen (withP fun t => { t with sregs := [(2, 16)], wpc := [(0, 4)] }).src 0x838) = false ∧
    (readS (withP fun t => { t with sregs := [(2, 7)] }) 2).toNat < 8 ∧ (withP id).team.pendw = [] ∧
    8 ≤ (readS (withP fun t => { t with sregs := [(2, 8)] }) 2).toNat ∧
    ((readS (withP fun t => { t with sregs := [(2, 0x3000000024)] }) 2).toNat / 2 ^ 38 = 0 ∧
      (readS (withP fun t => { t with sregs := [(2, 0x3000000024)] }) 2).toNat % 2 ^ 36 % 12 = 0) ∧
    (readS (withP fun t => { t with sregs := [(2, 0x4000000000)] }) 2).toNat / 2 ^ 38 ≠ 0 ∧
    (readS (withP fun t => { t with sregs := [(2, 13)] }) 2).toNat % 2 ^ 36 % 12 ≠ 0 := by decide +kernel

theorem witness_InjectReadShoot :
    (let s := withP fun t => { t with sregs := [(2, 383)] }
     let v := (readS s 2).toNat
     v < 2 ^ 20 ∧ v / 2 ^ 9 % 2 = 0 ∧ v % 2 ^ 9 < 384 ∧ tget s.blocks (s.cur.core * 16 + v / 2 ^ 10 % 16) = some s.block ∧
     tget s.teams (s.cur.core * 1024 + v / 2 ^ 10 % 16 * 64 + v / 2 ^ 14 % 64) = some s.team ∧ s.team.status = .running) ∧
    tget (withP fun t => { t with sregs := [(2, 2 ^ 14)] }).teams (0 * 1024 + 2 ^ 14 / 2 ^ 10 % 16 * 64 + 2 ^ 14 / 2 ^ 14 % 64) = none ∧
    (let s := withP fun t => { t with sregs := [(2, 2 ^ 63)] }
     mapRead s (readS s 2).toNat = none) ∧
    (62 < 64 ∧ 63 % 2 = 1) ∧
    (let s : State := { withP (fun t => { t with waits := [(0, .op 1)] }) with
        ops := [(1, ⟨⟨0, 0, 0, false⟩, 0, 0, 0, 0, 0, 0, 0, .tlbi, none, []⟩)] }
     myWait s = .op 1 ∧ (tget s.ops 1).isSome = true ∧ olderAccess s s.block.part s.block.ctx 0 1 = false) ∧
    (base.block.stash = [] ∧ base.l1 = [] ∧ base.reqs = [] ∧ base.ops = [] ∧ base.jobs = [] ∧ base.mops = [] ∧ base.remotes = [] ∧
      (∀ b ∈ base.blocks, b.2.stash = []) ∧ base.cur.coach = false) := by decide +kernel

theorem witness_ReinFlits_saved :
    (let s : State := { base.modCore 0 fun c => { c with flits := [(1, 2, 9)] } with cur := base.cur }
     (s.core 0).flits[0]? = some (1, 2, 9) ∧ (s.core 1).phase ≠ .idle ∧ ((tget (s.core 1).rcv 2).getD []).length < 16) ∧
    (let v : Saved := ⟨[], [], [], [], [], [], [], [], [], [], [], [], [], [], [], [], [], [], []⟩
     let s : State := { withPart ((withTeam fun t => { t with sndcfg := [(3, 0x8300)], snd := [(3, 7)] }).modCore 0
       fun c => { c with phase := .idle }) with running := [(0, 5)], saved := [(5, v)] }
     (s.core 0).phase = .idle ∧ partOfCore s 0 = some 0 ∧ tget s.running 0 = some 5 ∧ tget s.saved (0 * 512 + 0 * 64 + 5) = some v) ∧
    (let s := base.modCore 0 fun c => { c with rcv := [(1, [7])], readers := [(1, [⟨0, 0, 1, false⟩])] }
     ∃ u us, (tget (s.core s.cur.core).readers 1).getD [] = u :: us ∧ u ≠ s.cur) := by
  refine ⟨?_, ?_, ⟨0, 0, 1, false⟩, [], ?_⟩ <;> decide +kernel

theorem witness_Calls_poison :
    (let s := spilling (fun t => { t with sregs := [(2, 36)] }) 2
     spillPoisoned s (groupsFrom (s.src.lo / 8) (8 / 8)) = false ∧
     spillPoisoned { s with spadPois := [0] } (groupsFrom (s.src.lo / 8) (8 / 8)) = true) := by decide +kernel

theorem witness_Wait_delivers :
    (let s := withTeam fun t => { t with flags := [(3, ⟨0, some ⟨92, 0, 0, 0, false⟩⟩)] }
     (s.src.flag 3).record = some ⟨92, 0, 0, 0, false⟩ ∧ ∀ g, g < 3 → (s.src.flag g).record = none) ∧
    (let s := withTeam fun t => { t with flags := [(15, ⟨0, some ⟨92, 0, 0, 0, false⟩⟩)] }
     (s.src.flag 15).record = some ⟨92, 0, 0, 0, false⟩ ∧ ∀ g, g < 12 → (s.src.flag g).record = none) := by decide +kernel

theorem witness_Halt_Eret :
    ((withP fun t => { t with ibuf := some [0x7E000004, 0, 0] }).team.ibuf = some [0x7E000004, 0, 0]) ∧
    (let s := withP fun t => { t with epc := 2 ^ 37 + 36, dlv := some (3, 3, 2) }
     ((3, 2) = (if s.src.ecause.getLsbD 15 then
        behindChain (packetWords (mread s.block.kern.image 36 12)) (36 / 12) (s.src.epc.toNat / 2 ^ 36 % 4)
      else (36 / 12, s.src.epc.toNat / 2 ^ 36 % 4))) ∧ s.team.dlv = some (3, 3, 2)) := by decide +kernel

theorem witness_Sread :
    (let s := withPart (withP fun t => { t with sregs := [(2, 0x102)] })
     mapRead s (readS s 2).toNat = some (s.block.part, some s.block.ctx, 0x102)) ∧
    (let s := withPart (withP fun t => { t with sregs := [(2, BitVec.ofNat 64 (7 * 2 ^ 44 + 0x11000))] })
     (mapRead s (readS s 2).toNat).isSome = true ∧
      (mapRead s (readS s 2).toNat).map (fun x => (x.1, x.2.1)) ≠ some (s.block.part, some s.block.ctx)) ∧
    (releaseStep (withP id) 4 0).2 = true ∧
    (releaseStep { withP id with ops := [(1, ⟨base.cur, 0, 0, 3, 0, 0, 0, 0, .tile true [] [] 0 false, none, []⟩)] } 4 0).2 = false ∧
    (let s : State := { withP (fun t => { t with waits := [(0, .op 1)] }) with
        ops := [(0, ⟨⟨0, 1, 0, false⟩, 0, 0, 3, 0, 0, 0, 0, .tile true [] [] 0 false, none, []⟩), (1, ⟨⟨0, 0, 0, false⟩, 0, 0, 0, 0, 0, 5, 0, .tlbi, none, []⟩)] }
     olderAccess s s.block.part s.block.ctx 5 1 = true) := by decide +kernel

/-! ### Vector integers and floats -/

/-- vector registers by register and lane -/
def withV (l : List (Nat × Word)) : State := withTeam fun t => { t with vregs := l }

/-- an addition of packed bytes under no guard in 16 lanes: V[2] = 0x80FF7F01 in lane 0, V[3] = 0x80010101 -/
theorem witness_LaneResults_int :
    let s := withV [(2 * 1024, 0x80FF7F01), (3 * 1024, 0x80010101)]
    operandCause (.vadd ⟨1, 2, 3, 15, 2⟩) s = none ∧
    (∀ k ∈ active s 15, (if k = 0 then 0x00008002 else 0) < 2 ^ (8 * 4) ∧ ∀ e, e < 4 →
      elem 8 (if k = 0 then 0x00008002 else 0) e = (elem 8 (readN s false 2 k) e + elem 8 (readN s false 3 k) e) % 2 ^ 8) ∧
    (∀ k ∈ active s 15, Nat.land (enables s) ((fun _ : Nat => 0) k) = 0) := by decide +kernel

theorem witness_LaneResults_float :
    let s := withV [(2 * 1024, 0x3F800000), (3 * 1024, 0x33000000)]
    let f := fun k => ffF32.add 0 (readN s false 2 k) (readN s false 3 k)
    operandCause (.fadd ⟨1, 2, 3, 15, 0⟩) s = none ∧
    (∀ k ∈ active s 15, (if k = 0 then 0x3F800000 else 0) < 2 ^ (32 * 1) ∧ (if k = 0 then 0x3F800000 else 0) = (f k).1 % 2 ^ 32) ∧
    (∀ k ∈ active s 15, (if k = 0 then 16 else 0) = (f k).2) ∧ (∀ k ∈ active s 15, Nat.land (enables s) (f k).2 = 0) := by decide +kernel

theorem readN_base (r k : Nat) : readN base false r k = 0 := by
  have h : base.src.unknown 0 = fun _ => 0 := by
    funext r
    rfl
  simp [readN, readV, h, wget, show base.src.vregs = [] from rfl, tget]

theorem witness_VectorIntegerOneSource :
    (3 < 4 ∧ 60 + (3 + 1) ≤ 64 ∧ 28 + (3 + 1) ≤ 32 ∧ 32 < 29 + (3 + 1) ∧ 64 < 61 + (3 + 1)) ∧
    (∀ k e, (fun _ _ : Nat => 8) k e ≤ 8 ∧
      (∀ j, j < 8 → 8 - 8 ≤ j → (BitVec.ofNat 8 (elem 8 (readN base false 2 k) e)).getLsbD j = false) ∧
      (8 < 8 → (BitVec.ofNat 8 (elem 8 (readN base false 2 k) e)).getLsbD (8 - 1 - 8) = true)) ∧
    (∀ k j, (0 : Nat).testBit j =
      if 28 ≤ j ∧ j ≤ 28 + 3 then (readN base false 2 k).testBit (j - 28) else (readN base false 1 k).testBit j) := by
  have h : ∀ r k, readN base false r k = 0 := readN_base
  refine ⟨by decide, fun k e => ⟨Nat.le_refl 8, fun j _ _ => ?_, fun h => absurd h (by decide)⟩, fun k j => ?_⟩
  · rw [h]; simp [elem]
  · rw [h, h]; simp

theorem witness_VectorCompares :
    10 ≤ 10 ∧ operandCause (.vcmp ⟨1, 2, 3, 15, 0⟩ 9) base = none ∧ operandCause (.vcmp ⟨1, 2, 4, 15, 3⟩ 0) base = none ∧
    8 ≤ 8 ∧ operandCause (.fcmp ⟨1, 2, 3, 15, 0⟩ 7) base = none ∧
    (∀ k ∈ active base 15, Nat.land (enables base) ((ffOf 0).cmp 7 (readN base false 2 k) (readN base false 3 k)).2 = 0) := by decide +kernel

/-- 1 + 2^-24 in F32, half-way between two neighbours -/
theorem witness_Rounding : ffF32 ∈ [ffF32, ffF16, ffBF16, ffF64, ffE5M2, ffE4M3] ∧ 4 < 5 ∧ (⟨0x1000001, -24⟩ : Dy).m ≠ 0 ∧
    (ffF32.round 4 false false ⟨0x1000001, -24⟩).2.testBit 2 = false ∧
    (0x7F7FFFFF < 2 ^ ffF32.width ∧ ffF32.isNaN 0x7F7FFFFF = false ∧ ffF32.isInf 0x7F7FFFFF = false) := by decide +kernel

theorem witness_EnabledFlags :
    let s := withTeam fun t => { t with vregs := [(2 * 1024 + 1, 0x3F800000), (3 * 1024 + 1, 0x33000000)], fpmode := 0x1000 }
    let v := fun k => ffF32.add (s.src.fpmode.toNat % 8) (readV s 2 k).toNat (readV s 3 k).toNat
    operandCause (.fadd ⟨1, 2, 3, 15, 0⟩) s = none ∧ (16, 4) ∈ [(1, 0), (2, 1), (4, 2), (8, 3), (16, 4)] ∧ 1 ∈ active s 15 ∧
    Nat.land (v 1).2 16 ≠ 0 ∧ Nat.land (enables s) 16 ≠ 0 ∧
    (∀ j ∈ active s 15, Nat.land (Nat.land (v j).2 (16 - 1)) (enables s) = 0 ∧ (j < 1 → Nat.land (v j).2 16 = 0)) := by decide +kernel

/-! ### Cross-lane, quantising, tables, memory -/

theorem witness_Shuffles :
    0 < base.block.w ∧ (∀ k j, (0 : Nat).testBit j = (decide (j < base.block.w ∧ k / base.block.w * base.block.w + j < base.block.lanes) &&
      (guarded base 15 &&& readP base 1).getLsbD (k / base.block.w * base.block.w + j))) ∧
    operandCause (.vcpt ⟨1, 2, 15, 0⟩) base = none := by
  have h : guarded base 15 &&& readP base 1 = 0 := by decide +kernel
  refine ⟨by decide +kernel, fun k j => ?_, by decide +kernel⟩
  rw [h]
  simp

theorem witness_Matching :
    let s := withTeam fun t => { t with mask := 0 }
    ∀ k j, (0 : Nat).testBit j = (decide (j < s.block.w ∧ k / s.block.w * s.block.w + j < s.block.lanes) &&
      (guarded s 15).getLsbD (k / s.block.w * s.block.w + j) &&
      readN s false 2 (k / s.block.w * s.block.w + j) == readN s false 2 k) := by
  intro s k j
  have h : guarded s 15 = 0 := by decide +kernel
  rw [h]
  simp

theorem witness_Reductions : 0 < base.block.w ∧ 7 < 8 ∧ 2 < 3 ∧ operandCause (.vred ⟨1, 2, 15, 0⟩ 7) base = none ∧
    operandCause (.fscn ⟨1, 2, 15, 0⟩ 2) base = none := by decide +kernel

/-- a team of one section of 32 lanes, all in the mask -/
def wide32 (f : Team → Team) : State :=
  { withTeam (fun t => f { t with mask := 0xFFFFFFFF }) with blocks := [(0, { base.block with w := 32, lanes := 32 })] }

theorem witness_Quantising :
    let s := wide32 id
    s.block.lanes % 8 = 0 ∧ s.block.lanes % 32 = 0 ∧ operandCause (.vhq ⟨1, 2, 3, 15, 0⟩ 2 0) s = none ∧
    operandCause (.vbsd ⟨1, 2, 4, 15, 0⟩ 6 0 0) s = none ∧ enables s = 0 := by
  decide +kernel

theorem witness_Quantising_flags (x : Nat) : Nat.land 0 x = 0 := Nat.zero_and x

theorem witness_Hadamard : (List.replicate 32 Dy.zero).length = 32 ∧ 31 < 32 := by decide +kernel

/-- table 3 of core 0 loaded with two entries; in the window the bytes of such a table at offset 16 -/
def tabled : State :=
  { withS [(2, 16)] with
    tables := [(6, ⟨2, 0, 0, [0, 0x3F800000]⟩)]
    spad := [(22, 2)] }

theorem witness_Tables :
    (tableNow tabled 0 3).isSome = true ∧ tableNow base 0 3 = none ∧ operandCause (.ftab 1 2 3 15) base = none ∧
    (myWait tabled = .none ∧ flagRoom tabled 0 = true ∧ (readS tabled 2).toNat % 16 = 0 ∧ inWindow tabled.block 16 16 = true ∧
      windowBusy tabled (winFoot tabled.block 16 16 false) = false ∧ winPoisoned tabled 16 16 = false ∧
      headerOk (leNat (readWin tabled 16 16)) = true ∧ inWindow tabled.block 16 (16 + 4 * fld (leNat (readWin tabled 16 16)) 48 16) = true ∧
      tableBusy tabled 0 3 = false ∧
      windowBusy tabled (winFoot tabled.block 16 (16 + 4 * fld (leNat (readWin tabled 16 16)) 48 16) false) = false) ∧
    (readS (withS [(2, 8)]) 2).toNat % 16 ≠ 0 ∧ inWindow base.block 4096 16 = false ∧ headerOk (leNat (readWin (withS [(2, 16)]) 16 16)) = false := by
  decide +kernel

/-- the same with the load of the table under way -/
def tabling : State :=
  { tabled with ops := [(1, ⟨⟨0, 0, 0, false⟩, 0, 0, 0, 0, 0, 0, 0, .tabld 3 16 2 (readWin tabled 16 16), none, [⟨0, 16, 24, false⟩]⟩)] }

theorem witness_TableSwap :
    tableBusy tabling 0 3 = true ∧
    (tabling.ops.find? fun x => x.2.unit.core == 0 && (match x.2.kind with | .tabld m _ _ _ => m == 3 | _ => false)) = tabling.ops.head? ∧
    tget tabling.ops 1 = tabling.ops.head?.map Prod.snd ∧
    ((footOffsets [⟨0, 16, 24, false⟩]).drop 16).any (fun w => poisoned tabling 0 0 w 1) = false ∧
    ((footOffsets [⟨0, 16, 24, false⟩]).drop 16).any (fun w => poisoned { tabling with spadPois := [39] } 0 0 w 1) = true := by decide +kernel

theorem witness_TableSwap_banks : ∀ m, (tget tabling.tabCur (tableKey 0 m)).getD 0 ≤ 1 := fun m => by
  simp [show tabling.tabCur = [] from rfl, tget]

/-! The page of `base` at address 0 is NORMAL, readable, writable. -/

def page0 (a : Nat) : Loc := ⟨0, 0, a, 0, 0, 0, 0⟩

theorem witness_Translation :
    canonical (2 ^ 63) = false ∧ canonical 0xFFFF = true ∧
    base.tlb.find? (fun x => x.covers base.cur.core base.block.part base.block.ctx 0xFFFC) = some ⟨0, 0, 0, 0, 16, 0x1B⟩ ∧ fld 0x1B 1 2 = 1 ∧
    0xFFFF % 4 ≠ 0 ∧ 0xFFFC % 4 = 0 ∧ (0x3B : Nat).testBit 5 = true ∧ (0x13 : Nat).testBit 3 = false ∧ (0xB : Nat).testBit 4 = false ∧
    (0x1B : Nat).testBit 5 = false ∧ (0x1B : Nat).testBit 3 = true ∧ (0x1B : Nat).testBit 4 = true := by decide +kernel

/-- An access through it reaches it: what the load and store statements ask of translation. -/
theorem witness_Reaches : Reaches base 64 4 ⟨true, false, false⟩ (page0 64) ∧ Reaches base 0xFFF8 8 ⟨false, true, false⟩ (page0 0xFFF8) := by
  refine ⟨⟨?_, ?_⟩, ?_, ?_⟩ <;> decide +kernel

/-! ### Loads, stores, stash, tiles: one lane, base address in s2 -/

def lane0 (l : List (Nat × DWord)) : State := withTeam fun t => { t with mask := 1, sregs := l }

theorem witness_GlobalLoads :
    let s := lane0 [(2, 0xFFFC)]
    let i := Instr.ldg32 ⟨1, 63, 2, 15, 15⟩
    s.cur.coach = false ∧ operandCause i s = none ∧ myWait s = .none ∧ flagRoom s 15 = true ∧ s.block.stash = [] ∧ s.reqs = [] ∧
    active s 15 = [0] ∧ eaOf s 2 63 0 0 = 0xFFFC ∧ l1Read s 0 0 (page0 0xFFFC) 4 = (0, 0, false) ∧
    Reaches s 0xFFFC 4 ⟨true, false, false⟩ (page0 0xFFFC) ∧ watchHit s true false 0xFFFC 4 = false := by
  repeat' first | decide +kernel | refine And.intro ?_ ?_ | intro

/-- the same with the sector in L1 -/
theorem witness_GlobalLoads_hit :
    let s := { lane0 [(2, 0xFFFC)] with
      l1 := [⟨0, { page0 0xFFE0 with addr := 0xFFE0 }, true, 5, 0, false, 0, ⟨0, 0, 0, false⟩, 0, 0⟩] }
    (l1Read s 0 (s.owner s.block.part) (page0 0xFFFC) 4).1 = 2 ^ 4 - 1 ∧ (l1Read s 0 (s.owner s.block.part) (page0 0xFFFC) 4).2.2 = false ∧
    Reaches s 0xFFFC 4 ⟨true, false, false⟩ (page0 0xFFFC) := by
  repeat' first | decide +kernel | refine And.intro ?_ ?_ | intro

theorem witness_GlobalStores :
    let s := lane0 [(2, 0xFFFC)]
    operandCause (.stg32 ⟨1, 63, 2, 15⟩) s = none ∧ s.block.stash = [] ∧ s.l1 = [] ∧ active s 15 = [0] ∧ eaOf s 2 63 0 0 = 0xFFFC ∧
    Reaches s 0xFFFC 4 ⟨false, true, false⟩ (page0 0xFFFC) ∧ (page0 0xFFFC).addr % 4 = 0 ∧ watchHit s false true 0xFFFC 4 = false := by
  repeat' first | decide +kernel | refine And.intro ?_ ?_ | intro

theorem witness_Scratchpad :
    (let s := lane0 [(2, 4092)]
     operandCause (.ldl32 ⟨1, 63, 2, 15, 15⟩) s = none ∧ operandCause (.stl32 ⟨1, 63, 2, 15⟩) s = none ∧ active s 15 = [0] ∧
     eaOf s 2 63 0 0 = 4092 ∧ winOk s.block 4092 4 = true ∧ 4092 % 4 = 0 ∧ windowBusy s (winFoot s.block 4092 4 false) = false ∧
     windowBusy s (winFoot s.block 4092 4 true) = false ∧ winPoisoned s 4092 4 = false ∧ flagRoom s 11 = true ∧ Memory.wf s.spad = true ∧
     s.team.inFlight 0 (logV s 1) = false ∧ winByte s.block 4095 = some 4095 ∧ winPoisoned { s with spadPois := [4095] } 4092 4 = true) ∧
    (winOk base.block 4093 4 = false ∧ winOk base.block 4090 4 = true ∧ 4090 % 4 ≠ 0) ∧
    (let s := { lane0 [(2, 0)] with ops := [(1, ⟨⟨0, 0, 0, false⟩, 0, 0, 0, 0, 0, 0, 0, .tlbi, none, [⟨0, 0, 4, true⟩]⟩)] }
     windowBusy s (winFoot s.block 0 4 false) = true) := by decide +kernel

/-- a graph of slot 16 with 16 parameter bytes -/
def withParams (s : State) : State :=
  { s with graphs := [(s.block.gslot, ⟨0, 0, 0, 0, [], [], [], [], [], List.replicate 16 7, 0, 0, 0, 0, [], [], [], false⟩)] }

theorem witness_ScalarLoads :
    (let s := withParams (withS [(2, 8)])
     (match tget s.graphs s.block.gslot with | some g => g.params | none => []).length = 16 ∧ (readS s 2).toNat + 8 ≤ 16 ∧ (readS s 2).toNat % 8 = 0) ∧
    (readS (withS [(2, 9)]) 2).toNat + 8 > 16 ∧ (readS (withS [(2, 4)]) 2).toNat + 8 ≤ 16 ∧ (readS (withS [(2, 4)]) 2).toNat % 8 ≠ 0 ∧
    (readS (withS [(2, 40)]) 2).toNat % 8 = 0 ∧ 40 + 8 ≤ imagePackets base * 12 ∧ imagePackets base * 12 < 48 + 8 ∧ base.src.priv = false ∧
    (withP id).src.priv = true ∧ imageBase (withP id) = 0 ∧ Reaches (withP id) 40 8 ⟨true, false, true⟩ (page0 40) := by
  repeat' first | decide +kernel | refine And.intro ?_ ?_ | intro

/-- slot 3 maps [0, 128) at window offset 3 968, its line filled -/
def stashed (s : State) : State := { s with blocks := [(0, { s.block with stash := [(3, ⟨0, 128, 3968, [(0, page0 0)], [0], [], [], []⟩)] })] }

theorem witness_Stash_map :
    let s := withS [(2, 0), (3, 0x03000080_00000F80)]
    let w := (readS s 3).toNat
    fld w 59 5 = 0 ∧ fld w 53 3 = 0 ∧ fld w 20 12 = 0 ∧ fld w 0 20 % 128 = 0 ∧ fld w 32 21 % 128 = 0 ∧ 128 ≤ fld w 32 21 ∧ fld w 32 21 ≤ 1048576 ∧
    (readS s 2).toNat % 128 = 0 ∧ tget s.block.stash (fld w 56 3) = none ∧ (tget s.blocks (blockKey s.cur)).isSome = true ∧ s.block.stash = [] ∧
    inWindow s.block (fld w 0 20) (fld w 32 21) = true ∧ pageStarts 0 128 = [0] ∧ Reaches s 0 1 ⟨false, true, false⟩ (page0 0) := by
  repeat' first | decide +kernel | refine And.intro ?_ ?_ | intro

theorem witness_Stash_use :
    (8 ≤ (readS (withS [(2, 8)]) 2).toNat) ∧
    (let s := stashed (withS [(2, 3)])
     (readS s 2).toNat < 8 ∧ (tget s.block.stash (readS s 2).toNat).isSome = true ∧ (tget s.blocks (blockKey s.cur)).isSome = true ∧
     risesFrom 0 s.block.stash = true) ∧
    (let s := stashed (lane0 [(2, 124)])
     let e : StashSlot := ⟨0, 128, 3968, [(0, page0 0)], [0], [], [], []⟩
     s.cur.coach = false ∧ operandCause (.stx ⟨1, 63, 2, 15⟩) s = none ∧ operandCause (.ldx ⟨1, 63, 2, 15, 15⟩) s = none ∧
     operandCause (.pfg 63 2 15) s = none ∧ tget s.block.stash 3 = some e ∧
     active s 15 = [0] ∧ eaOf s 2 63 0 0 = 124 ∧ stashFind s.block 124 = some (3, e, 124) ∧ 124 % 4 = 0 ∧ 124 / 128 ∈ e.filled ∧ 124 / 128 ∉ e.pois ∧
     myWait s = .none ∧ s.reqs = [] ∧ watchHit s false true 124 4 = false ∧ watchHit s true false 124 4 = false ∧
     windowBusy s (winFoot s.block (3968 + 124) 4 true) = false ∧ windowBusy s (winFoot s.block (3968 + 124) 4 false) = false ∧
     Reaches s 124 1 ⟨false, true, false⟩ (page0 124) ∧ Reaches s 124 1 ⟨true, false, false⟩ (page0 124)) := by
  repeat' first | decide +kernel | refine And.intro ?_ ?_ | intro

/-- a tile of two rows of 16 bytes, 32 bytes apart, at window offset 4 064 -/
theorem witness_Tiles :
    (let s := withS [(2, 0x40), (3, 0x00000002_00100FE0)]
     let w := (readS s 3).toNat
     fld w 59 5 = 0 ∧ w.testBit 31 = false ∧ (fld w 20 6 + 1) * ((fld w 26 5 + 1) * 16) ≤ 16384 ∧ fld w 56 3 < 6 ∧
     (fld w 26 5 + 1) * 16 ≤ fld w 32 24 * 16 ∧ s.cur.coach = false ∧ myWait s = .none ∧ flagRoom s 15 = true ∧ fld w 0 20 % 16 = 0 ∧
     winOk s.block (fld w 0 20) 32 = true ∧ fld w 20 6 + 1 = 2 ∧ (fld w 26 5 + 1) * 16 = 16 ∧ fld w 32 24 * 16 = 32 ∧ fld w 56 3 ≠ 5 ∧
     0x40 % 16 = 0 ∧ 0x40 / 65536 = (0x40 + (2 - 1) * 32 + 16 - 1) / 65536 ∧
     (∀ r, r < 2 → watchHit s true false (0x40 + r * 32) 16 = false ∧ watchHit s false true (0x40 + r * 32) 16 = false) ∧
     windowBusy s (winFoot s.block (fld w 0 20) 32 true) = false ∧ windowBusy s (winFoot s.block (fld w 0 20) 32 false) = false ∧
     winPoisoned s (fld w 0 20) 32 = false ∧ Reaches s 0x40 1 ⟨true, false, true⟩ (page0 0x40) ∧ Reaches s 0x40 1 ⟨false, true, true⟩ (page0 0x40)) ∧
    fld (readS (withS [(3, 0x06000000_00000000)]) 3).toNat 56 3 ≥ 6 ∧ fld (readS (withS [(3, 8)]) 3).toNat 0 20 % 16 ≠ 0 ∧
    winOk base.block 4096 16 = false := by
  repeat' first | decide +kernel | refine And.intro ?_ ?_ | intro

theorem witness_GlobalStores_room :
    let s := lane0 [(2, 0xFFFC)]
    (l1Lines s s.cur.core ++ (active s 15).map fun _ => lineLoc (page0 0xFFFC)).eraseDups.length ≤ 1024 ∧
    l1Get s s.cur.core (page0 0xFFFC) = none ∧ stashLines s.block (page0 0xFFFC) = [] ∧
    (l1Read s 0 (s.owner s.block.part) (page0 0xFFFC) 4).1 ≠ 2 ^ 4 - 1 := by decide +kernel

/-- the stashed line not filled, and lanes outside every slot or misaligned -/
theorem witness_Stash_miss :
    let s := stashed (lane0 [(2, 124)])
    let u : State := { s with blocks := [(0, { s.block with stash := [(3, ⟨0, 128, 3968, [(0, page0 0)], [], [], [], []⟩)] })] }
    (∃ p e, stashFind u.block 124 = some (3, e, p) ∧ p / 128 ∉ e.filled) ∧
    windowBusy u (winFoot u.block (3968 + 124) 4 false ++ stashFills u.block [(0, 124)]) = false ∧
    windowBusy s (winFoot s.block (3968 + 124) 4 false ++ stashFills s.block [(0, 124)]) = false ∧
    dropMisses s (requester s.cur) = s ∧ stashFind s.block 128 = none ∧ (stashFind s.block 126).isSome = true ∧ 126 % 4 ≠ 0 ∧
    inWindow s.block 4096 128 = false ∧ (∀ e ∈ s.block.stash, overlaps e.2.off e.2.len 0 128 = false ∧ overlaps e.2.base e.2.len 256 128 = false) := by
  refine ⟨⟨124, ⟨0, 128, 3968, [(0, page0 0)], [], [], [], []⟩, ?_⟩, ?_⟩ <;> decide +kernel

/-! ### Atomics, requests at their home, queues -/

theorem witness_AtomicValues : 1 < 2 ∧ 2 ^ 64 - 1 < 2 ^ (8 * kindSize 1) ∧ (3, ffF16) ∈ [(2, ffBF16), (3, ffF16)] ∧ 65535 < 65536 := by
  decide +kernel

theorem witness_GlobalAtomics :
    let s := lane0 [(2, 0xFFFC)]
    s.cur.coach = false ∧ s.misses = [] ∧ 1 < 2 ∧ operandCause (.atg ⟨2, 63, 0, 2, 0, 1, 3, 1, 15, 0⟩) s = none ∧
    operandCause (.redg ⟨2, 63, 2, 0, 1, 3, 15, 0⟩) s = none ∧ myWait s = .none ∧ flagRoom s 0 = true ∧ active s 15 = [0] ∧
    eaOf s 2 63 0 0 = 0xFFFC ∧ Reaches s 0xFFFC (kindSize 0) ⟨true, true, true⟩ (page0 0xFFFC) ∧ watchHit s true true 0xFFFC (kindSize 0) = false := by
  repeat' first | decide +kernel | refine And.intro ?_ ?_ | intro

theorem witness_LocalAtomics :
    let s := lane0 [(2, 4092)]
    let u := withTeam fun t => { t with mask := 3, sregs := [(2, 4092)] }
    Memory.wf s.spad = true ∧ operandCause (.atl ⟨2, 63, 15, 0, 0, 0, 3, 1, 15, 0⟩) s = none ∧
    operandCause (.redl ⟨2, 63, 0, 0, 0, 3, 15, 0⟩) s = none ∧ active s 15 = [0] ∧ eaOf s 2 63 0 0 = 4092 ∧
    winOk s.block 4092 (kindSize 0) = true ∧ 4092 % kindSize 0 = 0 ∧ winPoisoned s 4092 (kindSize 0) = false ∧
    windowBusy s (winFoot s.block 4092 (kindSize 0) true) = false ∧ 4092 + kindSize 0 ≤ s.block.winSize ∧
    active u 15 = [0, 1] ∧ eaOf u 2 63 0 0 = eaOf u 2 63 0 1 := by decide +kernel

/-- a line of zeros for owner 0, at its home -/
def zeroLine (n : Nat) (x : LineData) : Line := ⟨n, 0, 0, 0, 0, 15, false, false, false, x⟩
def withLine (s : State) (l : Loc) (x : LineData) : State := { s with l2 := [(setBase (homeSlice s l) (l.addr / 128), zeroLine (l.addr / 128) x)] }

def reqOf (k : ReqKind) (st : ReqStage) : Req := ⟨1, 0, ⟨0, 0, 0, false⟩, page0 0xFF80, k, st, 0, 0, true, 0, 5, 0, 0, 0⟩
def requested (k : ReqKind) (st : ReqStage) : State := { base with reqs := [(1, reqOf k st)] }
def atom0 : LaneAtom := ⟨0, page0 0xFFFC, 0xFFFC, 1, 0, 0, false⟩

theorem witness_Requests :
    (∀ k ∈ ([.load 8, .store [(127, 1)], .atomic 0 0 0 [atom0], .reduce 0 0 0 [atom0] false] : List ReqKind),
      let s := withLine (requested k .sent) (page0 0xFF80) 0
      tget s.reqs 1 = some (reqOf k .sent) ∧ reqReady s 1 (reqOf k .sent) = true ∧
      findWay s (homeSlice s (page0 0xFF80)) (0xFF80 / 128) = some (setBase (homeSlice s (page0 0xFF80)) (0xFF80 / 128)) ∧
      tget s.l2 (setBase (homeSlice s (page0 0xFF80)) (0xFF80 / 128)) = some (zeroLine (0xFF80 / 128) 0) ∧
      redAt s (homeSlice s (page0 0xFF80)) = [] ∧
      findWay (requested k .sent) (homeSlice s (page0 0xFF80)) (0xFF80 / 128) = none ∧ reqReady (requested k .sent) 1 (reqOf k .sent) = true) ∧
    (∀ a ∈ ((zeroLine 511 0).atoms 0 0 0 [atom0]).2, a.pois = false) := by decide +kernel

theorem witness_LineFill :
    let s := requested (.load 8) .filling
    tget s.reqs 1 = some (reqOf (.load 8) .filling) ∧ homeSlice s (page0 0xFF80) = homeSlice s (reqOf (.load 8) .filling).loc ∧
    fillWaiters s (homeSlice s (page0 0xFF80)) 511 = [1] ∧ cappedOut s (homeSlice s (page0 0xFF80)) 511 = false ∧
    redAt s (homeSlice s (page0 0xFF80)) = [] ∧ findWay s (homeSlice s (page0 0xFF80)) 511 = none := by decide +kernel

def opOf (f : Nat) (k : OpKind) : Op := ⟨⟨0, 0, 0, false⟩, 0, 0, f, 0, 0, 1, 0, k, none, []⟩

theorem witness_Replies :
    (∀ f ∈ [0, 15],
      let o := opOf f (.load 1 false [⟨0, page0 0xFFFC, 0xFFFC, 4, 0, 0, false⟩] 0)
      let s := { requested (.load 8) .performed with ops := [(1, o)] }
      let r := reqOf (.load 8) .performed
      tget s.reqs 1 = some r ∧ risesFrom 0 s.reqs = true ∧ risesFrom 0 s.ops = true ∧ tget s.teams (teamKey r.unit) = some s.team ∧
      r.unit.coach = false ∧ tget s.ops r.op = some o ∧ o.unit = r.unit ∧ replied r = true ∧ r.loc.kind = 0 ∧ r.stage = .performed ∧
      replyInOrder s r = true ∧ o.fault = none ∧ r.nofill = true ∧ lineLoc (page0 0xFFFC) = lineLoc r.loc ∧ 0xFFFC % 128 + 4 ≤ 128 ∧
      (∀ j, j < 4 → r.pois.getLsbD j = false)) ∧
    (let o := opOf 0 (.atomic 1 false [atom0] false)
     let s := { requested (.atomic 0 0 0 [atom0]) .performed with ops := [(1, o)] }
     let r := reqOf (.atomic 0 0 0 [atom0]) .performed
     tget s.ops r.op = some o ∧ replied r = true ∧ replyInOrder s r = true ∧ atom0.pois = false) ∧
    (replied (reqOf (.store []) .performed) = true ∧ replyCode base (reqOf (.store []) .performed) = none ∧
      replyCode base (reqOf (.store []) (.failed 68)) = some 68 ∧ replied (reqOf (.store []) (.failed 68)) = true ∧
      (base.team.flag 15).record = none) := by decide +kernel

theorem witness_Replies_only (k : ReqKind) (st : ReqStage) : ∀ j q, tget (requested k st).reqs j = some q → q.op = 1 → j = 1 := by
  intro j q h _
  simp only [requested, tget] at h
  split at h
  · assumption
  · simp at h

theorem witness_TilesAndWalks :
    (let o := opOf 0 (.tile true [(page0 0x40, 16, 0x40)] (List.replicate 16 7) 2 false)
     let s := { base with ops := [(1, o)] }
     tget s.ops 1 = some o ∧ tileReady s o [(page0 0x40, 16, 0x40)] = true) ∧
    (let o := opOf 0 (.tile true [(page0 0x40, 16, 0x40)] [] 2 true)
     let s := { base with ops := [(1, o)] }
     tget s.ops 1 = some o ∧ risesFrom 0 s.ops = true ∧ o.unit.coach = false ∧ o.flag < 12 ∧ tget s.teams (teamKey o.unit) = some s.team ∧
     o.fault = none) ∧
    (let w : Walk := ⟨0, [(0, 0)], 0, 0, 0x10000⟩
     let s := { base with walks := [(1, w)] }
     tget s.walks 1 = some w ∧ risesFrom 0 s.walks = true ∧ (walk { s with walks := [] } 0 0 0 0x10000).2 = none) := by decide +kernel

/-! A queue page at 0, a descriptor at 0x1000. -/

def queued (d : Nat) (l : List (Nat × DWord)) : State :=
  withLine { lane0 l with tlb := [⟨0, 0, 0, 0, 16, 0x3B⟩] } (page0 0x1000) (BitVec.ofNat 1024 d)

/-- a queue of 16-byte records, CAP 4, with two records in its ring; a manger of 4 × 4 with 15 taken -/
def ring2 : Nat := 3 * 2 ^ 160 + 2 * 2 ^ 248
def manger1 : Nat := 1 * 2 ^ 200 + 4 * 2 ^ 336 + 4 * 2 ^ 368 + 15 * 2 ^ 400 + 16 * 2 ^ 440

theorem queueAt_of {s : State} {va e b d : Nat} {write : Bool} {kinds : List Nat} {q : Loc} (h1 : canonical va = true)
    (h2 : lookPage s s.cur.core (requester s.cur) s.block.part s.block.ctx va = (s, .leaf e b)) (h3 : dropMisses s (requester s.cur) = s)
    (h4 : leafLoc s.block.part s.block.ctx e b va = q) (h5 : ¬(q.kind = 0 ∧ (leafR e = false ∨ (write = true ∧ leafW e = false))))
    (h6 : ¬(va % 64 ≠ 0 ∨ q.kind ≠ 0 ∨ leafQ e = false)) (h7 : readDesc s q = (s, d)) (h8 : qBad d = false)
    (h9 : inList (qKind d) kinds = true) : QueueAt s va write kinds q d := by
  intro k
  simp only [withQueue, h1, h2, h3, h4, h7, h8, h9, Bool.not_true, Bool.false_eq_true, if_false, if_neg h5, if_neg h6]

theorem witness_QueueAt :
    QueueAt (queued ring2 [(2, 0x1000)]) 0x1000 true [0, 2] (page0 0x1000) ring2 ∧
    QueueAt (queued manger1 [(2, 0x1000)]) 0x1000 true [1] (page0 0x1000) manger1 ∧
    QueueAt (queued ring2 [(2, 0x1000)]) 0x1000 false [0, 1, 2, 3] (page0 0x1000) ring2 := by
  refine ⟨queueAt_of (e := 0x3B) (b := 16) ?_ ?_ ?_ ?_ ?_ ?_ ?_ ?_ ?_, queueAt_of (e := 0x3B) (b := 16) ?_ ?_ ?_ ?_ ?_ ?_ ?_ ?_ ?_,
    queueAt_of (e := 0x3B) (b := 16) ?_ ?_ ?_ ?_ ?_ ?_ ?_ ?_ ?_⟩ <;> decide +kernel

theorem witness_QueueInstructions :
    (let s := queued ring2 [(2, 0x1000), (3, 4080)]
     s.cur.coach = false ∧ myWait s = .none ∧ flagRoom s 0 = true ∧ 4080 % 16 = 0 ∧ activeAll s = [0] ∧ qRec ring2 = 16 ∧ winOk s.block 4080 16 = true ∧
     windowBusy s (winFoot s.block 4080 16 true) = false ∧ windowBusy s (winFoot s.block 4080 16 false) = false ∧
     winPoisoned s 4080 16 = false ∧ queueBehind s (page0 0x1000) = false ∧ operandCause (.grab 2 4) s = none ∧
     ring2.testBit 204 = false ∧ (ring2 + 2 ^ 204).testBit 204 = true ∧ readDesc s (page0 0x1000) = (s, ring2) ∧ ring2 < 2 ^ 512 ∧ 0x1000 % 64 = 0) ∧
    (canonical (2 ^ 63) = false ∧ canonical 0x1020 = true ∧ base.misses = [] ∧
      base.tlb.find? (fun x => x.covers base.cur.core base.block.part base.block.ctx 0x1020) = some ⟨0, 0, 0, 0, 16, 0x1B⟩ ∧
      (0x1B : Nat).testBit 3 = true ∧ (0x1B : Nat).testBit 4 = true ∧ fld 0x1B 1 2 = 1 ∧ 0x1020 % 64 ≠ 0 ∧ (0x1B : Nat).testBit 5 = false ∧
      (0x3B : Nat).testBit 5 = true ∧ 3 < fld (4 * 2 ^ 200) 200 4 ∧ fld (2 ^ 480) 480 32 ≠ 0 ∧
      (let s := queued (4 * 2 ^ 200) [(2, 0x1000)]
       readDesc s (leafLoc s.block.part s.block.ctx 0x3B 16 0x1000) = (s, 4 * 2 ^ 200))) := by decide +kernel

def queueOp (k : OpKind) (d : Nat) : State := { queued d [] with ops := [(1, opOf 0 k)] }

theorem witness_QueueAnswers :
    (∀ k ∈ ([.enq (page0 0x1000) true 1 4 [(0, List.replicate 16 7)] 1 none, .deq (page0 0x1000) true 1 4 16 1 false none,
        .grab (page0 0x1000) 4 1 1 false none] : List OpKind),
      let s := queueOp k ring2
      tget s.ops 1 = some (opOf 0 k) ∧ queueReady s 1 (opOf 0 k) (page0 0x1000) = true ∧ (readDesc s (page0 0x1000)).2 = ring2 ∧
      budgetLeft s (blockKey (opOf 0 k).unit) = none ∧ (∀ y ∈ s.ops, heldDeq (page0 0x1000) y.2 = false) ∧ risesFrom 0 s.ops = true) ∧
    (qScnt ring2 = 0 ∧ qClosed ring2 = false ∧ qClosed (ring2 + 2 ^ 204) = true ∧ qCap ring2 - qRcnt ring2 + (qSpcap ring2 - qScnt ring2) = 2 ∧
      qRcnt ring2 ≤ qCap ring2 ∧ 2 < [0, 1, 2].length ∧ 0 < min (laneCount 1) (qRcnt ring2) ∧ min (laneCount 1) (qRcnt (3 * 2 ^ 160)) = 0 ∧
      qClosed (3 * 2 ^ 160) = false) := by decide +kernel

theorem witness_QueueReplies :
    (∀ k ∈ ([.enq (page0 0x1000) true 1 4 [] 1 (some (1, 0)), .deq (page0 0x1000) true 1 4 16 1 false (some ([List.replicate 16 7], 0)),
        .grab (page0 0x1000) 4 1 1 false (some ([(3, 3, 0)], 0))] : List OpKind),
      let s := queueOp k ring2
      tget s.ops 1 = some (opOf 0 k) ∧ risesFrom 0 s.ops = true ∧ (opOf 0 k).unit.coach = false ∧ (opOf 0 k).fault = none ∧
      tget s.teams (teamKey (opOf 0 k).unit) = some s.team) ∧ lanesOf 1 1024 = [0] ∧
    (let o := { opOf 0 (.deq (page0 0x1000) true 1 4 16 1 false none) with arrive := 3 }
     let s := { queued ring2 [] with ops := [(1, o)] }
     o.arrive ≠ 0 ∧ (∀ y ∈ s.ops, heldDeq (page0 0x1000) y.2 = true → o.arrive ≤ y.2.arrive) ∧
     0 < min (laneCount 1) (qRcnt (readDesc s (page0 0x1000)).2)) := by decide +kernel

/-- one record spilled -/
def spilled : Nat := ring2 + 8 * 2 ^ 128 + 1 * 2 ^ 304

theorem witness_Refills :
    (let s := { queued ring2 [] with refills := [(1, page0 0x1000)] }
     tget s.refills 1 = some (page0 0x1000) ∧ readDesc s (page0 0x1000) = (s, ring2) ∧ qScnt ring2 = 0 ∧ risesFrom 0 s.refills = true) ∧
    (let s := { queued spilled [] with refills := [(1, page0 0x1000)] }
     readDesc s (page0 0x1000) = (s, spilled) ∧ qScnt spilled ≠ 0 ∧ qRcnt spilled < qCap spilled) ∧
    (let d := ring2 + 2 ^ 207
     let s := { queued d [] with prodMsgs := [(1, page0 0x1000)] }
     let u := { s with prodMsgs := tdel s.prodMsgs 1 }
     tget s.prodMsgs 1 = some (page0 0x1000) ∧ readDesc u (page0 0x1000) = (u, d) ∧ 0x1000 % 64 = 0 ∧ fld d 200 4 ≠ 1 ∧ 0 < fld d 207 9 ∧
     risesFrom 0 s.prodMsgs = true ∧ redAt s (homeSlice s (page0 0x1000)) = []) := by decide +kernel

theorem witness_Requests_turns :
    (let r := reqOf (.load 8) .sent
     let s := withLine (requested (.load 8) .sent) (page0 0xFF80) 0
     let there := modReq { s with nextStamp := s.nextStamp + 1 } 1 fun r => { r with stage := .filling, arrive := s.nextStamp }
     r.stage = .sent ∧ arrivesNext s 1 r = true ∧ reqReady there 1 { r with stage := .filling, arrive := s.nextStamp } = true) ∧
    (∀ k ∈ ([.load 8, .store [(127, 1)], .atomic 0 0 0 [atom0, atom0], .reduce 0 0 0 [atom0, atom0] false] : List ReqKind),
      ∀ st ∈ [ReqStage.filling, .applying 1],
      let s := withLine (requested k st) (page0 0xFF80) 0
      (reqOf k st).atSlice = true ∧ reqReady s 1 (reqOf k st) = true ∧ heldWays s (homeSlice s (page0 0xFF80)) 511 < 12) ∧
    [atom0, atom0][(reqOf (.load 8) (.applying 1)).applied]? = some atom0 ∧ arrivesNext (requested (.load 8) .sent) 1 (reqOf (.load 8) .sent) = true := by
  decide +kernel

theorem witness_LineFill_channel :
    let s : State := { requested (.load 8) .filling with
      channels := [(channelOf (511 * 128), ⟨[fillKey (homeSlice base (page0 0xFF80)) 511], false⟩)] }
    ∃ c, tget s.channels (channelOf (511 * 128)) = some c ∧ fillKey (homeSlice s (page0 0xFF80)) 511 ∈ c.queue := by
  refine ⟨⟨[fillKey (homeSlice base (page0 0xFF80)) 511], false⟩, ?_⟩
  decide +kernel

theorem witness_Atomics_order :
    (releaseStep (lane0 []) 4 0).2 = true ∧ readsLeft (lane0 []) = false ∧
    (let s : State := { lane0 [] with ops := [(1, { opOf 3 (.tile true [(page0 0x40, 16, 0x40)] [] 2 false) with unit := base.cur })] }
     (releaseStep s 4 0).2 = false) ∧
    (let s : State := { lane0 [] with ops := [(1, { opOf 3 (.tile false [(page0 0x40, 16, 0x40)] [] 2 false) with unit := base.cur })] }
     readsLeft s = true) ∧
    myWait (withTeam fun t => { t with waits := [(0, .done none)] }) = .done none ∧
    myWait (withTeam fun t => { t with waits := [(0, .op 7)] }) = .op 7 ∧
    myWait (withTeam fun t => { t with waits := [(0, .done (some ⟨92, 4, 0, 3, false⟩))] }) = .done (some ⟨92, 4, 0, 3, false⟩) ∧
    operandCause (.ldg32 ⟨1, 63, 2, 15, 15⟩) base = none := by decide +kernel

theorem witness_Tiles_lock :
    (let o := opOf 0 (.tile false [(page0 0x40, 16, 0x40)] [] 2 false)
     let s := { withLine base (page0 0x40) 7 with ops := [(1, { o with foot := [⟨0, 32, 16, true⟩] })] }
     tileReady s o [(page0 0x40, 16, 0x40)] = true ∧ (footOffsets [⟨0, 32, 16, true⟩]).Nodup ∧
     (homeMarked s (page0 0x40) (s.owner 0) 16).1 = s) ∧
    (let s := withLine base (page0 0x40) 7
     (List.replicate 16 (7 : Byte)).length = 16 ∧ (page0 0x40).addr % 128 + 16 ≤ 128 ∧
     Resident s (page0 0x40) 0 (setBase (homeSlice s (page0 0x40)) 0) (zeroLine 0 7)) := by
  refine ⟨?_, by decide, by decide, ?_, ?_, ?_, ?_⟩ <;> decide +kernel

theorem witness_Queues_lanes :
    activeAll (withTeam fun t => { t with mask := 0 }) = [] ∧ activeAll base ≠ [] ∧
    (∀ y ∈ (queueOp (.deq (page0 0x1000) true 1 4 16 1 false none) ring2).ops, heldDeq (page0 0x1000) y.2 = false) ∧
    qKind ring2 ≠ 1 ∧
    (let s := queueOp (.deq (page0 0x1000) true 1 4 16 1 false none) ring2
     (budgetCut s (opOf 0 (.deq (page0 0x1000) true 1 4 16 1 false none)) (laneCount 1) false) = (1, false) ∧ qRcnt ring2 = 2) ∧
    qRcnt (3 * 2 ^ 160) = 0 ∧ qClosed (3 * 2 ^ 160) = false := by decide +kernel

/-! ### Synchronisation, drays, paddocks -/

def withLines (s : State) (ls : List (Loc × LineData)) : State :=
  { s with l2 := ls.foldl (fun t x => tset t (setBase (homeSlice s x.1) (x.1.addr / 128)) { zeroLine (x.1.addr / 128) x.2 with own := s.owner x.1.part }) [] }

/-- Partition 0 holds the package; its context 0 maps [0, 2^30) onto itself by a table at 0 and one at 0x1000, both at their homes. -/
def mapped (s : State) (ls : List (Loc × LineData)) : State :=
  withLines (withPart s) ((page0 0, 0x1001) :: (page0 0x1000, 0x1B) :: ls)

theorem witness_Fences :
    2 ≤ 4 ∧ base.l1 = [] ∧ (releaseStep base 4 0).2 = true ∧ releaseStep base 4 0 = (base, true) ∧ accessLeft base 0 = false ∧ base.reqs = [] ∧
    (let s := { base with ops := [(1, opOf 0 (.load 1 false [] 0))] }
     (releaseStep s 4 0).2 = false ∧ accessLeft s 0 = true ∧ readsLeft s = true) ∧ readsLeft base = false := by decide +kernel

/-- the team and another one at barrier 3 of the block: two members, generation 15 -/
def barred (arrived : List UnitId) : State :=
  { base with barriers := [(2 ^ 40 + 3, ⟨15, [⟨0, 0, 0, false⟩, ⟨0, 0, 1, false⟩], arrived, [], []⟩)] }

theorem witness_Barriers :
    base.cur.coach = false ∧ base.snap = none ∧ (tget base.teams (teamKey base.cur)).isSome = true ∧
    barrierKey base.block (blockKey base.cur) 2 3 = none ∧ myWait base = .none ∧
    barrierKey base.block (blockKey base.cur) 1 3 = some (2 ^ 40 + 3) ∧
    (∀ a ∈ ([[], [⟨0, 0, 1, false⟩]] : List (List UnitId)),
      let s := barred a
      let b := barrierAt s (2 ^ 40 + 3)
      s.cur ∈ b.members ∧ s.cur ∉ b.arrived ∧ releaseStep s 1 0 = (s, true) ∧ b.members ≠ [] ∧ b.gen < 16 ∧ b.held = [] ∧ accessLeft s 0 = false) ∧
    (∀ u ∈ (barrierAt (barred [⟨0, 0, 1, false⟩]) (2 ^ 40 + 3)).members, u = ⟨0, 0, 0, false⟩ ∨ u = ⟨0, 0, 1, false⟩) ∧
    (⟨0, 0, 0, false⟩ : UnitId) ∉ [(⟨0, 0, 1, false⟩ : UnitId)] ∧ (barrierAt base (2 ^ 40 + 3)).members = [] ∧
    ((readS (withS [(1, 15)]) 1).toNat % 16 = 15 ∧ (readS (withS [(1, 14)]) 1).toNat % 16 = (15 + 15) % 16 ∧
      (readS (withS [(1, 13)]) 1).toNat % 16 ≠ 15 ∧ (readS (withS [(1, 13)]) 1).toNat % 16 ≠ (15 + 15) % 16) := by decide +kernel

/-- a release that has not finished, a generation in progress with a held change and a unit that has left, and one with nothing begun;
sleepers whose generation is over -/
theorem witness_Barriers_held :
    (let s := { barred [] with ops := [(1, opOf 0 (.load 1 false [] 0))] }
     (releaseStep s 1 0).2 = false ∧ readsLeft s = true ∧ s.cur ∈ (barrierAt s (2 ^ 40 + 3)).members ∧
       s.cur ∉ (barrierAt s (2 ^ 40 + 3)).arrived) ∧
    (let s := { base with barriers := [(2 ^ 40 + 3, ⟨4, [⟨0, 0, 0, false⟩, ⟨0, 0, 1, false⟩, ⟨0, 0, 2, false⟩], [⟨0, 0, 1, false⟩], [⟨0, 0, 2, false⟩],
        [(blockKey base.cur, [⟨0, 0, 0, false⟩])]⟩)] }
     let b := barrierAt s (2 ^ 40 + 3)
     releaseStep s 1 0 = (s, true) ∧ s.cur ∈ b.members ∧ s.cur ∉ b.arrived ∧ b.arrived ≠ [] ∧ b.leaving ≠ [] ∧
       (∀ u ∈ b.members, u = s.cur ∨ u ∈ b.arrived ∨ u ∈ b.leaving)) ∧
    ((barrierAt (barred []) (2 ^ 40 + 3)).members ≠ [] ∧ (barrierAt (barred []) (2 ^ 40 + 3)).arrived = [] ∧
      (barrierAt (barred []) (2 ^ 40 + 3)).leaving = []) ∧
    (∀ w ∈ ([.done none, .barrier (2 ^ 40 + 3) 14] : List Wait), let s := { barred [] with teams := (withTeam fun t => { t with waits := [(0, w)] }).teams }
      (myWait s = .done none ∨ (myWait s = .barrier (2 ^ 40 + 3) 14 ∧ (barrierAt s (2 ^ 40 + 3)).gen ≠ 14)) ∧ readsLeft s = false) ∧
    (let s := barred [⟨0, 0, 1, false⟩]
     let s := { s with teams := [(0, s.team), (1, { s.team with waits := [(0, .barrier (2 ^ 40 + 3) 15)] })] }
     let b := barrierAt s (2 ^ 40 + 3)
     s.cur ∈ b.members ∧ (∀ u ∈ b.members, u = s.cur ∨ u ∈ b.arrived) ∧ teamKey s.cur = 0 ∧
       (tget s.teams 1).map Team.wait = some (.barrier (2 ^ 40 + 3) b.gen)) := by
  decide +kernel

/-- a window with an arrival object at offset 4 080: expected 2, pending n -/
def counted (n : Nat) (l : List (Nat × DWord)) : State := { withS l with spad := if n = 0 then [(4083, 2)] else [(4080, BitVec.ofNat 8 (n * 16)), (4083, 2)] }

theorem witness_Arrivals :
    (winOk base.block 4096 16 = false ∧ winOk base.block 4072 16 = true ∧ 4072 % 16 ≠ 0) ∧
    (∀ n ∈ [0, 1, 2],
      let s := counted n [(1, 4080)]
      let off := (readS s 1).toNat
      let x := leNat (readWin s off 16)
      myWait s = .none ∧ winOk s.block off 16 = true ∧ off % 16 = 0 ∧ windowBusy s (winFoot s.block off 16 true) = false ∧
      windowBusy s (winFoot s.block off 16 false) = false ∧ off + 16 ≤ s.block.winSize ∧
      Memory.wf s.spad = true ∧ winPoisoned s off 16 = false ∧ fld x 124 4 = 0 ∧ fld x 44 40 = 0 ∧ fld x 4 20 = n ∧ fld x 84 40 = 0 ∧
      (readS s 2).toNat = 0 ∧ releaseStep s 1 0 = (s, true) ∧ s.snap = none ∧ fld x 0 4 = (readS s 2).toNat % 16 ∧ accessLeft s 0 = false) ∧
    (0 < 2 ^ 20 - 1 ∧ 2 ^ 20 ≤ (readS (withS [(2, 2 ^ 20)]) 2).toNat ∧
      2 ^ 39 ≤ sgn 40 0 + ((readS (withS [(2, 2 ^ 39)]) 2).toNat % 2 ^ 40 : Nat) ∧
      fld (leNat (readWin { base with spad := [(15, 0x10)] } 0 16)) 124 4 ≠ 0 ∧
      fld (leNat (readWin { base with spad := [(0, 15)] } 0 16)) 0 4 ≠ 0) ∧
    (winOk base.block 4092 4 = true ∧ 4092 % 4 = 0 ∧ windowBusy base (winFoot base.block 4092 4 false) = false ∧ winPoisoned base 4092 4 = false ∧
      leNat (readWin base 4092 4) = (readS base 2).toNat % 2 ^ 32) := by decide +kernel

/-- the bytes of an object lie apart; a release that has not finished, a read that has not; a sleeper that has woken; a word's conditions -/
theorem witness_Arrivals_sleep :
    (∀ i, i < 16 → ∀ j, j < 16 → winByte base.block (4080 + i) = winByte base.block (4080 + j) → i = j) ∧
    (let s := { counted 1 [(1, 4080)] with ops := [(1, opOf 0 (.load 1 false [] 0))] }
     (releaseStep s 1 0).2 = false ∧ readsLeft s = true ∧ myWait s = .none ∧ windowBusy s (winFoot s.block 4080 16 true) = false ∧
       fld (leNat (readWin s 4080 16)) 4 20 = 1) ∧
    (let s := withTeam fun t => { t with waits := [(0, .done none)] }
     myWait s = .done none ∧ readsLeft s = false) ∧
    (let word := leNat (readWin { base with spad := [(4080, 16)] } 4080 4)
     word = 16 ∧ winOk base.block 4080 4 = true ∧ 4080 % 4 = 0 ∧ (1 = 1 ∧ word ≠ 17) ∧ 16 ≤ word ∧ ¬17 ≤ word ∧ word < 17 ∧ ¬word < 16) ∧
    (winOk base.block 4093 4 = false ∧ winOk base.block 4090 4 = true ∧ 4090 % 4 ≠ 0) := by decide +kernel

/-- a guard at 0xFF80 with header h, its line at home, in s2 -/
def guarding (h : Nat) (gs : List HeldGuard) (l : List (Nat × DWord)) : State :=
  withLine (withTeam fun t => { t with sregs := (2, 0xFF80) :: l, guards := gs }) (page0 0xFF80) (BitVec.ofNat 1024 h)

theorem witness_Guards :
    base.cur.coach = false ∧ (readS (withS [(2, 0xFFC0)]) 2).toNat % 128 ≠ 0 ∧ myWait base = .none ∧
    (∀ gs ∈ ([[], [⟨0xFF80, 0, 4⟩]] : List (List HeldGuard)), ∀ h ∈ [0, 1 * 2 ^ 17],
      let s := guarding h gs [(4, 0x10000), (5, 0xFFFFFFFF)]
      (readS s 2).toNat % 128 = 0 ∧ Reaches s 0xFF80 1 ⟨true, true, true⟩ (page0 0xFF80) ∧ (page0 0xFF80).addr % 128 = 0 ∧
      readHead s (page0 0xFF80) = (s, h) ∧ s.team.guards.length < 8 ∧ gBad h = false ∧ (readS s 4).toNat = 0x10000 ∧
      1 ≤ (readS s 5).toNat ∧ (readS s 5).toNat < 2 ^ 32 ∧ (readS s 4).toNat + (readS s 5).toNat ≤ 2 ^ 56 ∧
      findWay s (homeSlice s (page0 0xFF80)) 511 = some (setBase (homeSlice s (page0 0xFF80)) 511) ∧
      redAt s (homeSlice s (page0 0xFF80)) = []) ∧
    heldGuard (guarding 0 [] []) 0xFF80 = none ∧ heldGuard (guarding 0 [⟨0xFF80, 0, 4⟩] []) 0xFF80 = some ⟨0xFF80, 0, 4⟩ ∧ gNteth 0 = 0 ∧
    gNteth (1 * 2 ^ 17) = 1 ∧ gBad (65 * 2 ^ 17) = true ∧
    (let s := guarding (1 * 2 ^ 17) [⟨0xFF80, 0, 4⟩] []
     tethers s (page0 0xFF80) (1 * 2 ^ 17) = (s, [(0, 0)])) ∧
    (let s := guarding (2 ^ 17 + 0x10000 * 2 ^ 256 + 8 * 2 ^ 320) [⟨0xFF80, 0, 4⟩] [(4, 0x10000), (5, 8)]
     readHead s (page0 0xFF80) = (s, 2 ^ 17) ∧ tethers s (page0 0xFF80) (2 ^ 17) = (s, [(0x10000, 8)])) := by
  refine ⟨?_, ?_, ?_, ?_, ?_⟩
  · decide +kernel
  · decide +kernel
  · decide +kernel
  · simp only [List.forall_mem_cons, List.not_mem_nil, false_implies, implies_true, and_true]
    repeat' first | decide +kernel | refine And.intro ?_ ?_ | intro
  · decide +kernel

/-- a guard whose page lies in a peer, reached at PACKAGE scope; a team at eight guards; reads and writes in flight; a grant with regions
in hand; an eighth tether and a sixty-fifth -/
theorem witness_Guards_held :
    (let l : Loc := { page0 0xFF80 with kind := 1 }
     l.kind = 1 ∧ 4 < 5 ∧ heldGuard (withTeam fun t => { t with guards := List.replicate 8 ⟨0, 0, 4⟩ }) 0xFF80 = none ∧
       8 ≤ (withTeam fun t => { t with guards := List.replicate 8 ⟨0, 0, 4⟩ }).team.guards.length) ∧
    (let s := { guarding 0 [⟨0xFF80, 0, 4⟩] [] with ops := [(1, opOf 0 (.load 1 false [] 0))] }
     readsLeft s = true ∧ accessLeft (guardRelease (tethers s (page0 0xFF80) 0).1 (tethers s (page0 0xFF80) 0).2).1 0 = true ∧ myWait s = .none ∧
       readHead s (page0 0xFF80) = (s, 0) ∧ gBad 0 = false) ∧
    (let s := guarding 0 [⟨0xFF80, 0, 4⟩] []
     accessLeft s 0 = false ∧ (∀ o ∈ s.ops, o.2.unit.core = s.cur.core → opWritesIn [] o.2 = false) ∧ gNteth 0 = 0) ∧
    (heldGuard (guarding 0 [⟨0xFF80, 1, 4⟩] []) 0xFF80 = some ⟨0xFF80, 1, 4⟩ ∧ (1 : Nat) ≠ 0) ∧
    (gNteth (8 * 2 ^ 17) = 8 ∧ gXptr (8 * 2 ^ 17) = 0 ∧ gNteth (64 * 2 ^ 17 + 0x4000 * 2 ^ 128) = 64 ∧
      gNteth (8 * 2 ^ 17 + 0x4000 * 2 ^ 128) = 8 ∧ gXptr (8 * 2 ^ 17 + 0x4000 * 2 ^ 128) = 0x4000 ∧
      gBad (8 * 2 ^ 17) = false ∧ gBad (64 * 2 ^ 17 + 0x4000 * 2 ^ 128) = false) := by decide +kernel

def granting (h : Nat) (arrive : Nat) (k : OpKind) : State :=
  { withLine (withTeam fun t => { t with waits := [(0, .op 1)] }) (page0 0xFF80) (BitVec.ofNat 1024 h) with ops := [(1, { opOf 15 k with arrive := arrive })] }

theorem witness_GuardGranted :
    let s := granting 0 0 (.guardReq 0xFF80 (page0 0xFF80) 0 4 (some []))
    myWait s = .op 1 ∧ tget s.ops 1 = some (opOf 15 (.guardReq 0xFF80 (page0 0xFF80) 0 4 (some []))) ∧ s.block.stash = [] ∧ risesFrom 0 s.ops = true := by
  decide +kernel

theorem witness_GuardsAtHome :
    (∀ h ∈ [0, 1 * 2 ^ 16], ∀ k ∈ ([.guardReq 0xFF80 (page0 0xFF80) 0 4 none, .guardRel (page0 0xFF80) 0] : List OpKind),
      let s := granting h 0 k
      tget s.ops 1 = some (opOf 15 k) ∧ readHead s (page0 0xFF80) = (s, h) ∧ gNteth h = 0 ∧ s.remotes = [] ∧ 0 < s.nextStamp ∧
      guardWaiters s (homeSlice s (page0 0xFF80)) < 1024 ∧ (∀ y ∈ s.ops, y.2.arrive = 0) ∧
      findWay s (homeSlice s (page0 0xFF80)) 511 = some (setBase (homeSlice s (page0 0xFF80)) 511) ∧ redAt s (homeSlice s (page0 0xFF80)) = [] ∧
      tget s.teams (teamKey (opOf 15 k).unit) = some s.team ∧ s.team.wait = .op 1 ∧ risesFrom 0 s.ops = true) ∧
    gExcl 0 = false ∧ gHold 0 = 0 ∧ gExcl (1 * 2 ^ 16) = true ∧
    (let s := granting 0 3 (.guardReq 0xFF80 (page0 0xFF80) 0 4 none)
     guardFree s (page0 0xFF80) 0 3 0 = true) := by decide +kernel

/-! A DCPY of 16 bytes from the window at 256 to global memory at 0x2000; its records at 0x1000 and 0x1040, its command block at window offset 0. -/

def recSrc : Nat := 256 + 1 * 2 ^ 64 + 1 * 2 ^ 72 + 1 * 2 ^ 75 + 16 * 2 ^ 128
def recDst : Nat := 0x2000 + 1 * 2 ^ 64 + 1 * 2 ^ 72 + 16 * 2 ^ 128
def draying (mask : Lanes) (l : List (Nat × DWord)) : State :=
  withLine { withTeam (fun t => { t with mask := mask, sregs := l }) with spad := [(1, 0x10), (8, 0x40), (9, 0x10), (16, 16)] } (page0 0x1000)
    (BitVec.ofNat 1024 (recSrc + recDst * 2 ^ 512))

theorem witness_DrayCommands :
    let s := draying 1 []
    let o : DrOp := ⟨4, 8, 0, 15⟩
    let c := leNat (readWin s 0 32)
    let box := (List.range 5).map fun k => fld c (128 + 16 * k) 16
    let j : Job := ⟨s.cur, 0, 0, 0, 0, 0, 0, 0, 0, 1, 0, 0, recSrc, recDst, [0, 0, 0, 0, 0], [0, 0, 0, 0, 0], box, [], none, 0, [], 0, none, 0, [],
      [], 0, 0, 0, 0, false, none, none, false, 0, [], s.nextStamp, [], 0, 0, false⟩
    s.cur.coach = false ∧ s.snap = none ∧ operandCause (.dcpy o) s = none ∧ s.misses = [] ∧ s.remotes = [] ∧ active (draying 0 []) 15 = [] ∧
    active s 15 = [0] ∧ argCause 0 0 0 0 = none ∧ argCause 0 0 (2 ^ 21) 0 = some 256 ∧ winOk s.block 0 32 = true ∧ winOk s.block 4096 32 = false ∧
    windowBusy s (winFoot s.block 0 32 false) = false ∧ winPoisoned s 0 32 = false ∧ fld c 208 48 = 0 ∧
    fetchRecord s 0 (fld c 0 64) = (s, .got recSrc) ∧ recBad recSrc = false ∧ fetchRecord s 1 (fld c 64 64) = (s, .got recDst) ∧
    recBad recDst = false ∧ (∀ k, k < 5 → (box.getD k 0 = 0 ↔ 1 ≤ k)) ∧ (∀ k, k < 1 → 8 + k < windowWidth s) ∧
    drayRuleBad 0 recSrc recDst [0, 0, 0, 0, 0] [0, 0, 0, 0, 0] box 0 = false ∧ boxInside recSrc [0, 0, 0, 0, 0] box false = true ∧
    boxInside recDst [0, 0, 0, 0, 0] box false = true ∧ (∀ p ∈ j.extras ++ j.spans, spanOk s.block p.1 = true) ∧
    windowBusy s (winFoot s.block 0 (4 * 0) false) = false ∧ pickDray s s.cur.core = some 0 ∧ flagRoom s 0 = true ∧
    baseOutside s.block recSrc = false ∧ baseOutside s.block recDst = false := by decide +kernel

/-- with an arrival object inside the window, and outside it -/
theorem witness_DrayCommands_object :
    winOk (draying 1 []).block 512 16 = true ∧ winOk (draying 1 []).block 4096 16 = false ∧
      (∀ k, k < 16 → (winByte (draying 1 []).block (512 + k)).isSome = true) := by decide +kernel

/-- a job of row copies whose index is poisoned, and one that is over -/
def jobOf (ovr : Bool) (idx : List (Option Nat)) (comp : DWord) (cmd : Nat) : Job :=
  ⟨⟨0, 0, 0, false⟩, 0, 0, 0, 0, 0, 0, 0, cmd, 1, comp, 0, recSrc, recDst, [0, 0, 0, 0, 0], [0, 0, 0, 0, 0], [16, 1, 0, 0, 0], idx, none, 0, [], 0, none, 0, [],
    [], 0, 0, 0, 0, false, none, none, ovr, 0, [], 1, [], 0, 0, false⟩
def jobbed (j : Job) : State :=
  { base with jobs := [(1, j)], blocks := [(0, { base.block with tickets := [(1, 1)] })] }

theorem witness_DrayJobs :
    (let j := jobOf false [none] 0 1
     let s := jobbed j
     tget s.jobs 1 = some j ∧ risesFrom 0 s.jobs = true ∧ tget s.teams (teamKey j.unit) = some s.team ∧ j.unit.coach = false ∧
     tget s.blocks (blockKey j.unit) = some s.block ∧ j.ovr = false ∧ jobHeld s j = false ∧ j.pois = none ∧
     j.next = .index 92 0) ∧
    (let j := jobOf true [] 0 0
     j.ovr = true ∧ j.aoff = none ∧ j.comp.getLsbD 20 = false ∧ j.flag < 12 ∧ (tget (jobbed j).block.tickets j.ticket).isSome = true) ∧
    (let j := jobOf true [] (2 ^ 20 + 4092) 0
     j.comp.getLsbD 20 = true ∧ winOk base.block (j.comp.toNat % 2 ^ 20) 4 = true ∧ j.comp.toNat % 2 ^ 20 + 4 ≤ base.block.winSize ∧
     (∀ i, i < 4 → ∀ k, k < 4 → winByte base.block (4092 + i) = winByte base.block (4092 + k) → i = k)) ∧
    (let j := { jobOf false [] 0 0 with pois := some (3, 78, 0x2003, 0x2020), pos := 0x2020 }
     j.ovr = false ∧ jobHeld (jobbed j) j = false ∧ j.pois = some (3, 78, 0x2003, 0x2020) ∧ 78 ≠ 68 ∧ 0x2020 ≤ j.pos) ∧
    (let j := { jobOf true [] 0 0 with stop := some (3, 78, ⟨78, 0x2003, 0, 0, false⟩) }
     j.ovr = true ∧ (jobbed j).team.dlv = none ∧ ((jobbed j).team.flag j.flag).record = none ∧ j.stop.isSome = true) ∧
    (∃ q ∈ (jobbed (jobOf true [] 0 0)).jobs, q.2.unit = base.cur) ∧ (∀ q ∈ base.jobs, ¬q.2.unit = base.cur) := by decide +kernel

/-- a paddock of 4 KiB, name 5, over [0x10000, 0x11000) -/
def padOf (state core off acnt : Nat) (waiting : List Nat) : Paddock := ⟨5, 0, 0, 4096, 0x10000, false, state, core, off, acnt, 0, waiting, 0⟩
def padded (ps : List Paddock) (att : List Attached) (l : List (Nat × DWord)) : State :=
  let s := mapped (withS l) []
  { s with paddocks := ps, blocks := [(0, { s.block with attached := att })] }

theorem witness_Paddocks :
    (let s := padded [] [] [(2, 5), (3, 0x10000)]
     s.cur.coach = false ∧ s.snap = none ∧ padFind s 0 5 = none ∧ myWait s = .none ∧ flagRoom s 0 = true ∧ fld 0x10000 9 3 = 0 ∧ canonical 0x10000 = true ∧
     (s.paddocks.filter fun q => q.part == s.block.part).length < 4096 ∧
     padPages 0 0 s (pageStarts 0x10000 4096) = (s, [(1, page0 0x10000)], none) ∧ padOffset s (blockKey s.cur) 4096 = some 4096 ∧
     (spadFit s 0 4096).isSome = true ∧ padTable s 0 < 16 ∧ Memory.wf s.spad = true ∧ (tget s.blocks (blockKey s.cur)).isSome = true) ∧
    (let p := padOf 2 0 8192 0 []
     let s := padded [p] [] [(2, 5)]
     padFind s 0 5 = some p ∧ padAway s p = false ∧ padAwaited s p = false ∧ padLeaving s p = false ∧ padOffset s (blockKey s.cur) 4096 = some 4096 ∧ padHere s p 0 = true ∧ padFree s p = true) ∧
    (let p := padOf 2 0 8192 1 []
     let a : Attached := ⟨5, 4096, 4096, 8192⟩
     let s := padded [p] [a] [(2, 5)]
     padFind s 0 5 = some p ∧ (∃ a ∈ s.block.attached, a.name = 5) ∧ s.block.attached.find? (fun a => a.name == 5) = some a ∧
     coreTouches s 0 [⟨0, 8192, 4096, true⟩] = false ∧ padFree s p = false) ∧
    (let p := padOf 1 0 0 0 []
     let s := padded [p] [] [(2, 5)]
     padHere s p 0 = false ∧ (spadFit s 0 4096).isSome = true ∧ padTable s 0 < 16 ∧ padFree s p = true) ∧
    padHere (padded [padOf 2 1 0 0 []] [] [(2, 5)]) (padOf 2 1 0 0 []) 0 = false := by decide +kernel

/-- one that lies under another context, one an attach waits for, one an eviction takes away, one whose bytes an operation still reads -/
theorem witness_Paddocks_busy :
    (let p := { padOf 2 0 8192 0 [] with under := 1 }
     let s := padded [p] [] [(2, 5)]
     padFind s 0 5 = some p ∧ padAway s p = true ∧ (∀ a ∈ s.block.attached, a.name ≠ 5)) ∧
    (let p := padOf 3 0 8192 0 [1]
     let s := { padded [p] [] [(2, 5)] with ops := [(1, opOf 0 (.attach 5 4 4096 0 0))] }
     padFind s 0 5 = some p ∧ padAway s p = false ∧ padHere s p 0 = false ∧ padAwaited s p = true) ∧
    (let p := padOf 2 0 8192 0 [1]
     let s := { padded [p] [] [(2, 5)] with ops := [(1, opOf 0 (.evict 5))] }
     padFind s 0 5 = some p ∧ padAwaited s p = false ∧ padLeaving s p = true ∧ padFree s p = true ∧ p.state ≠ 3) ∧
    coreTouches { padded [] [] [] with ops := [(1, { opOf 0 (.load 1 false [] 0) with foot := [⟨0, 8200, 4, false⟩] })] } 0
      [⟨0, 8192, 4096, true⟩] = true := by decide +kernel

def moving (p : Paddock) (k : OpKind) : State := { padded [p] [] [] with ops := [(1, opOf 0 k)] }

theorem witness_PaddocksMove :
    (let p := padOf 2 0 8192 0 [1]
     let s := moving p (.evict 5)
     padFirst s 1 = some (opOf 0 (.evict 5), p) ∧ (opOf 0 (.evict 5)).unit.coach = false ∧ tget s.teams 0 = some s.team ∧ p.waiting = [1] ∧
     risesFrom 0 s.ops = true ∧ tget s.ops 1 = some (opOf 0 (.evict 5)) ∧ (∀ q ∈ s.paddocks, q = p) ∧ padCanLeave s 1 = true ∧
     backPages s p = (s, [(1, page0 0x10000)], none)) ∧
    (let p := padOf 3 0 8192 0 [1]
     let s := moving p (.attach 5 4 4096 0 0)
     padFirst s 1 = some (opOf 0 (.attach 5 4 4096 0 0), p) ∧ p.state = 3 ∧ backPages s p = (s, [(1, page0 0x10000)], none)) ∧
    (let p := { padOf 3 0 8192 0 [1] with back := 2 ^ 30 }
     let s := moving p (.attach 5 4 4096 0 0)
     (backPages s p).2 = ([], some (64, 2 ^ 30))) := by decide +kernel

/-- a page that fails; a fill without poison and with it (of one line, so that the kernel need not move a whole page) -/
theorem witness_PaddocksMove_failing :
(let p := { padOf 2 0 8192 0 [1] with back := 2 ^ 30 }
     let s := moving p (.evict 5)
     padCanLeave s 1 = true ∧ (backPages s p).2 = ([], some (64, 2 ^ 30))) ∧
    (let p := { padOf 3 0 8192 0 [1] with size := 128 }
     let s := moving p (.attach 5 4 4096 0 0)
     (padIn s p 0 8192 [(1, page0 0x10000)]).2 = none ∧
       (padIn { s with memPois := [0x10000 / 32] } p 0 8192 [(1, page0 0x10000)]).2 = some 0x10000) := by decide +kernel

/-! ### The coachman and the array -/

/-- the region register value of space, format, rows / 8 − 1, columns / 8 − 1, base / 64, stride -/
def region (space fmt nr nc b st : Nat) : BitVec 48 := BitVec.ofNat 48 (st + b * 2 ^ 10 + nc * 2 ^ 25 + nr * 2 ^ 31 + fmt * 2 ^ 37 + space * 2 ^ 41)

/-- a block with a coachman: z0 an INT32 accumulator of 8 × 8, z1 INT8 of 8 × 32 in the window, z2 weights of 32 × 8, z3 and z4 a drain's
FP32 regions, z5 INT8 of 32 × 8 in the window, z6 a table of bytes in the window, z7 E4M3-free FP16 twins for grouped products -/
def coached (f : Coach → Coach) : State :=
  { base with
    cur := ⟨0, 0, 0, true⟩
    coaches := [(0, f { Coach.init with z := [(0, region 1 2 0 0 0 0), (1, region 0 3 0 3 0 0), (2, region 2 3 3 0 0 4), (3, region 0 6 0 0 8 0),
      (4, region 1 0 0 0 4 0), (5, region 0 3 3 0 16 0), (6, region 0 13 0 1 32 0), (7, region 1 0 0 0 8 0), (8, region 0 4 0 3 40 0),
      (9, region 2 4 3 0 2 4)] })]
    blocks := [(0, { base.block with accSize := 4096, wbSize := 4096, kern := { base.block.kern with mpkt := 4 } })] }

theorem witness_Coachman :
    (coached id).cur.coach = true ∧ (5 : Nat) ≠ 31 ∧ (coached id).mops = [] ∧
    (let s := coached id
     ((s.coach.pkt : Int) + (BitVec.ofNat 16 3).toInt = (3 : Nat) ∧ 3 < s.block.kern.mpkt) ∧ (s.coach.pkt : Int) + (BitVec.ofNat 16 0xFFFF).toInt < 0 ∧
     (s.block.kern.mpkt : Int) ≤ (s.coach.pkt : Int) + (BitVec.ofNat 16 4).toInt ∧ (tget s.coach.l 3).getD 0 = 0 ∧ s.coach.wait = .none ∧
     (∀ f, f < 8 → 255 / 2 ^ f % 2 = 1 → (s.coach.flag f).count = 0) ∧ (∀ f, f < 8 → s.coach.flag f = ⟨0, none⟩) ∧ (s.coach.flag 15).record = none ∧
     s.barriers = [] ∧ winOk s.block (127 * 32) 4 = true ∧ winOk s.block (128 * 32) 4 = false ∧
     windowBusy s (winFoot s.block (127 * 32) 4 true) = false ∧ Memory.wf s.spad = true ∧ 127 * 32 + 4 ≤ s.block.winSize ∧
     s.cur ∉ (barrierAt s (2 ^ 40 + blockKey s.cur * 16 + 3)).members) ∧
    (tget (coached fun c => { c with l := [(3, 2)] }).coach.l 3).getD 0 = 2 ∧ (tget (coached fun c => { c with l := [(3, 1)] }).coach.l 3).getD 0 = 1 ∧
    (∃ f, f < 8 ∧ 128 / 2 ^ f % 2 = 1 ∧ ((coached fun c => { c with flags := [(7, ⟨1, none⟩)] }).coach.flag f).count ≠ 0) ∧
    (let s := coached fun c => { c with flags := [(7, ⟨0, some ⟨68, 0, 0, 0, false⟩⟩)] }
     (s.coach.flag 7).record = some ⟨68, 0, 0, 0, false⟩ ∧ (∀ g, g < 7 → 255 / 2 ^ g % 2 = 1 → (s.coach.flag g).record = none)) ∧
    (let u : UnitId := ⟨0, 0, 0, true⟩
     ∀ others ∈ ([[], [⟨0, 0, 0, false⟩]] : List (List UnitId)),
       let s := { coached (fun c => { c with arrived := [(3, 15)] }) with barriers := [(2 ^ 40 + 3, ⟨15, u :: others, [], [], []⟩)] }
       s.cur ∈ (barrierAt s (2 ^ 40 + blockKey s.cur * 16 + 3)).members ∧ s.cur ∉ (barrierAt s (2 ^ 40 + blockKey s.cur * 16 + 3)).arrived ∧
       tget s.coach.arrived 3 = some (barrierAt s (2 ^ 40 + blockKey s.cur * 16 + 3)).gen) := by decide +kernel

/-- a barrier the coachman sleeps on, one it has woken from, one it has arrived at, one whose only other member has left -/
theorem witness_Coachman_sleeps :
    (let s := { coached (fun c => { c with wait := .barrier (2 ^ 40 + 3) 15 }) with barriers := [(2 ^ 40 + 3, ⟨15, [⟨0, 0, 0, true⟩], [], [], []⟩)] }
     s.coach.wait = .barrier (2 ^ 40 + blockKey s.cur * 16 + 3) 15 ∧ (barrierAt s (2 ^ 40 + 3)).gen = 15) ∧
    (coached fun c => { c with wait := .barrier (2 ^ 40 + 3) 15 }).coach.wait = .barrier (2 ^ 40 + 3) 15 ∧
    (barrierAt (coached id) (2 ^ 40 + 3)).gen ≠ 15 ∧ (coached fun c => { c with wait := .done none }).coach.wait = .done none ∧
    (let s := { coached id with barriers := [(2 ^ 40 + 3, ⟨1, [⟨0, 0, 0, true⟩, ⟨0, 0, 1, false⟩], [⟨0, 0, 0, true⟩], [], []⟩)] }
     s.cur ∈ (barrierAt s (2 ^ 40 + 3)).members ∧ s.cur ∈ (barrierAt s (2 ^ 40 + 3)).arrived) ∧
    (let s := { coached id with barriers := [(2 ^ 40 + 3, ⟨1, [⟨0, 0, 0, true⟩, ⟨0, 0, 1, false⟩], [], [⟨0, 0, 1, false⟩], []⟩)] }
     let b := barrierAt s (2 ^ 40 + 3)
     s.cur ∈ b.members ∧ s.cur ∉ b.arrived ∧ (∀ u ∈ b.members, u = s.cur ∨ u ∈ b.arrived ∨ u ∈ b.leaving)) ∧
    (∀ i, i < 4 → ∀ j, j < 4 → winByte (coached id).block (127 * 32 + i) = winByte (coached id).block (127 * 32 + j) → i = j) := by decide +kernel

def flyOf (op : CoachOp) (stage : Nat) : MFly := ⟨0, 0, op, (coached id).coach.z, 0, 0, 0, stage, [], 0, none, [], 1⟩
def flying (op : CoachOp) (stage : Nat) : State := { coached id with mops := [(1, flyOf op stage)] }

theorem witness_Coachman_mldw : (∃ x ∈ (flying (.mldw 2 5 0) 0).mops, x.2.core = (flying (.mldw 2 5 0) 0).cur.core ∧
    x.2.bslot = (flying (.mldw 2 5 0) 0).cur.bslot ∧ ∃ a b f, x.2.op = .mldw a b f) :=
  ⟨(1, flyOf (.mldw 2 5 0) 0), List.mem_cons_self .., rfl, rfl, 2, 5, 0, rfl⟩

theorem witness_Matrix :
    let s := coached id
    let c := s.coach
    let b := s.block
    let reg := fun n => (wget c.z n).toNat
    let o : MmaOp := ⟨0, 1, 2, 3, 2, 0⟩
    let q : MmaOp := ⟨7, 8, 9, 4, 0, 0⟩
    (rSpace (reg 1) ≠ 1 ∧ rSpace (reg 0) = 1 ∧ rBase (reg 0) + rExtent (reg 0) ≤ b.accSize ∧
      b.accSize < rBase (wget [(0, region 1 2 0 0 63 0)] 0).toNat + rExtent (wget [(0, region 1 2 0 0 63 0)] 0).toNat) ∧
    (¬((7 : Nat) ≤ 9 ∧ (7 = 7 → (2 : Nat) = 3))) ∧ b.hsize = 0 ∧ rSpace (reg 3) ≠ 1 ∧ (c.flag 0).count < 63 ∧
    productCause s o [0] 31 1 none none = none ∧ productCause s o [0, 3] 31 1 none none = none ∧ rRows (reg 0) % 1 = 0 ∧
    productCause s { o with mode := 3 } [0, 3] 31 1 none (some (6, 2)) = none ∧ windowBusy s (rFoot b (reg 6) false) = false ∧
    productCause s q [0, 1, 2] 31 1 none none = none ∧
    productCause s { q with mode := 1 } [0, 1, 2] 31 1 none (some (6, 16)) = none ∧
    leNat ((regionBytes s (reg 6) 16).drop 8) = 0 ∧
    (rSpace (reg 3) = 0 ∧ rSpace (reg 4) = 1 ∧ rRows (reg 3) = rRows (reg 4) ∧ rCols (reg 3) = rCols (reg 4) ∧ rBounds b (reg 3) = true ∧
      rBase (reg 4) + rExtent (reg 4) ≤ b.accSize ∧ rFmt (reg 4) = 0 ∧ rFmt (reg 3) = 6) ∧
    tableNow s s.cur.core 3 = none ∧ (tableNow tabled 0 3).isSome = true ∧ mldwCause s 2 5 = none ∧ mldwCause s 2 1 = some 273 ∧ c.wait = .none := by
  decide +kernel

theorem witness_Array :
    (∀ op ∈ ([.mzer 0, .mma ⟨0, 1, 2, 3, 2, 0⟩ 0 false 0 31, .mdrn 3 4 0 false false 0 0 true] : List CoachOp),
      let s := flying op 0
      let m := flyOf op 0
      let b := s.block
      let reg := fun n => (wget m.z n).toNat
      tget s.mops 1 = some m ∧ tget s.blocks 0 = some b ∧ risesFrom 0 s.mops = true ∧ scoreboardBusy s m.core m.foot m.stamp = false ∧
      rSpace (reg 0) = 1 ∧ rFmt (reg 0) = 2 ∧ rStep (reg 0) = 0 ∧ Memory.wf s.acc = true ∧ Memory.wf s.spad = true ∧
      rStep (reg 3) = 0 ∧ rStep (reg 4) = 0 ∧ rBase (reg 3) + rExtent (reg 3) ≤ b.winSize ∧ b.winOff + b.winSize ≤ 2 ^ 20 ∧
      b.accOff + b.accSize ≤ 2 ^ 18 ∧ rBase (reg 4) + rExtent (reg 4) ≤ b.accSize ∧
      (readGroup s m.core b (reg 2) (poolOf b (reg 31)) 0 7).1 = some (List.replicate 32 0)) ∧
    (let s := { flying (.mzer 0) 0 with mops := [(1, { flyOf (.mzer 0) 0 with stamp := 2, foot := [⟨1, 0, 256, true⟩] }),
        (2, { flyOf (.mzer 0) 1 with foot := [⟨1, 0, 256, true⟩] })] }
     scoreboardBusy s 0 [⟨1, 0, 256, true⟩] 2 = true) ∧
    (flyOf (.mzer 0) 1).stage = 1 ∧ tget (flying (.mzer 0) 1).coaches 0 = some (flying (.mzer 0) 1).coach := by decide +kernel

theorem witness_Compressed :
    let s := coached id
    let z := (region 2 3 3 0 0 2).toNat
    let xs := List.range 32
    rSpace z = 2 ∧ rFmt z ≤ 9 ∧ 2 ≤ rStep z ∧ xs.length = 32 ∧ (∀ x ∈ xs, x < 16 ^ rNibs z) ∧ 255 < 256 ∧ Memory.wf s.wbuf = true ∧ 1023 < 1024 ∧
    slotAt z 0 7 + rStep z * 4 ≤ 1024 ∧ (putGroup s 0 s.block z (some (1024, 40)) 0 0 7 255 xs).isSome = true := by decide +kernel

/-- an instruction in its coachman's turn, and one whose turn another coachman has -/
theorem witness_Array_turns :
    (let s := flying (.mzer 0) 0
     mopReady s (flyOf (.mzer 0) 0) = true ∧ myTurn s (flyOf (.mzer 0) 0) = true) ∧
    (let s := flying (.mzer 0) 0
     let s := { s with blocks := s.blocks ++ [(1, s.block)], mops := s.mops ++ [(2, { flyOf (.mzer 0) 0 with bslot := 1 })], cores := [(0, { s.core 0 with turn := 0 })] }
     tget s.mops 1 = some (flyOf (.mzer 0) 0) ∧ myTurn s (flyOf (.mzer 0) 0) = false) := by decide +kernel

/-! ### Placement, hitches, retirement, slices -/

/-- a stage with one team of 16 lanes whose input queue is queue 0 and whose output is queue 1 -/
def stageOf (maxb hitch : Nat) : Stage := ⟨0, 16, 16, 1, 16, 0, 16, 0, 0, 1, maxb, hitch, false, 0, 0, 0, 0, [1], []⟩
def graphOf (st : Stage) (evq : Nat) : Graph :=
  ⟨0, 0, 0, evq, [⟨0, 1, 0, 0, [], []⟩], [0x1000, 0x1040], [5, 6], [], [st], [], 0, 0, 0, 0, [], [], [], false⟩
/-- core 0 has the digest of graph 3, is to evaluate, and its table says 7 records wait in slot 5 -/
def placing (st : Stage) (f : Core → Core) : State :=
  let s := mapped base []
  { s with graphs := [(3, graphOf st 0)], wtree := [(0, [(5, 7)]), (1, [(5, 7)])], cores := [(0, f { s.core 0 with digests := [3], evalDue := true })] }

theorem witness_Distributor :
    (∀ st ∈ [stageOf 0 0, stageOf 1 0, stageOf 0 1],
      let s := placing st id
      tget s.graphs 3 = some (graphOf st 0) ∧ (graphOf st 0).stages[0]? = some st ∧ evalReady s 0 = true ∧ candidates s 0 = [(3, 0, 7)]) ∧
    (roomFor (placing (stageOf 0 0) id) 0 (graphOf (stageOf 0 0) 0) (stageOf 0 0)).map (fun x => x.2) = some [] ∧
    evalReady base 0 = false ∧ candidates { placing (stageOf 0 0) id with wtree := [] } 0 = [] ∧
    evalReady { placing (stageOf 0 0) id with wtree := [] } 0 = true ∧
    (let s := placing (stageOf 2 0) fun c => { c with claim := some (3, 0) }
     (s.core 0).claim = some (3, 0) ∧ (tget (graphOf (stageOf 2 0) 0).inflight 0).getD 0 + 2 ^ (stageOf 2 0).hitch ≤ (stageOf 2 0).maxb ∧
     (s.core 0).phase = .run ∧ (roomFor s 0 (graphOf (stageOf 2 0) 0) (stageOf 2 0)).isSome = true ∧
     roomFor { s with blocks := (List.range 16).map fun k => (k, base.block) } 0 (graphOf (stageOf 2 0) 0) (stageOf 2 0) = none) ∧
    (let g := { graphOf (stageOf 2 0) 0 with inflight := [(0, 2)] }
     (stageOf 2 0).maxb < (tget g.inflight 0).getD 0 + 2 ^ (stageOf 2 0).hitch) ∧
    ((tget (graphOf (stageOf 2 1) 0).inflight 0).getD 0 + 2 ^ (stageOf 2 1).hitch ≤ (stageOf 2 1).maxb ∧ (stageOf 2 1).hitch ≠ 0) := by
  decide +kernel

/-- room that stands aside for a sticky request: the core's own stage may not take it (R308) -/
theorem witness_Distributor_sticky :
    (let s := placing (stageOf 2 0) fun c => { c with claim := some (3, 0) }
     stickyOk s 0 (graphOf (stageOf 2 0) 0) (stageOf 2 0) = true) ∧
    (let g := { graphOf (stageOf 2 0) 0 with stages := [stageOf 2 0, { stageOf 0 1 with teams := 64 }] }
     let s := placing (stageOf 2 0) fun c => { c with claim := some (3, 0) }
     let s := { s with graphs := [(3, g)], hitches := [(0, [⟨8, 3, 1, [0, 8], [], [], true, 1⟩])] }
     tget s.graphs 3 = some g ∧ g.stages[0]? = some (stageOf 2 0) ∧ (s.core 0).claim = some (3, 0) ∧ stickyOk s 0 g (stageOf 2 0) = false) ∧
    (let s := placing (stageOf 2 0) fun c => { c with claim := some (3, 0), phase := .stop }
     (s.core 0).phase ≠ .run) := by decide +kernel

def hitching (phase : Nat) (grants denies : List Nat) (sticky : Bool) : State :=
  let s := placing (stageOf 0 1) id
  { s with
    hitches := [(0, [⟨0, 3, 0, if phase = 0 then [] else [0, 1], grants, denies, sticky, phase⟩])]
    cores := [(0, { s.core 0 with digests := [3] }), (1, { s.core 0 with digests := [3] })]
    blocks := [(16, { s.block with aside := true, gslot := 3, stage := 0 })] }

theorem witness_Hitches :
    (let s := hitching 0 [] [] false
     let g := graphOf (stageOf 0 1) 0
     tget s.graphs 3 = some g ∧ g.stages[0]? = some (stageOf 0 1) ∧ 0 < (stageOf 0 1).hitch ∧ 0 ∈ hitchCores s 0 g (stageOf 0 1) ∧
     (((hitchCores s 0 g (stageOf 0 1)).filter fun c => c != 0).take (2 ^ 1 - 1)).length + 1 = 2 ^ 1 ∧
     0 ∉ hitchCores { s with cores := [(0, { s.core 0 with phase := .stop })] } 0 g (stageOf 0 1) ∧ (stageOf 0 1).maxb = 0) ∧
    (let s := hitching 1 [] [] true
     let g := graphOf (stageOf 0 1) 0
     1 ∈ [0, 1] ∧ qualifies s 1 g (stageOf 0 1) = true ∧ (roomFor s 1 g (stageOf 0 1)).isSome = true ∧
     qualifies { s with cores := [(1, { s.core 1 with phase := .stop })] } 1 g (stageOf 0 1) = false ∧
     (({ s with cores := [(1, { s.core 1 with phase := .stop })] } : State).core 1).phase ≠ .run ∧
     qualifies { s with blocks := (List.range 16).map fun k => (16 + k, base.block) } 1 g (stageOf 0 1) = false ∧ (s.core 1).phase = .run) ∧
    (risesFrom 0 (hitching 1 [0, 1] [] false).cancels = true) ∧
    (let s := hitching 2 [0, 1] [] false
     ∃ x ∈ asideBlock s 1, tget s.blocks x.1 = some x.2 ∧ x.2.gslot = 3 ∧ x.2.stage = 0 ∧ risesFrom 0 s.blocks = true) ∧
    (∃ c ∈ [0, 1], c ≠ 1) ∧ (∀ c ∈ [1], c = 1) := by decide +kernel

/-- the answers of all: none of them a denial, one a denial; the cancel of a core that granted and of one that did not; a request whose
core is alone in its cluster -/
theorem witness_Hitches_answered :
    (∀ x ∈ ([([0, 1], []), ([0], [1])] : List (List Nat × List Nat)), let s := hitching 1 x.1 x.2 false
      (tget s.hitches 0).map (fun hs => hs.map fun h => (h.members, h.grants, h.denies)) = some [([0, 1], x.1, x.2)] ∧
        [0, 1].length ≤ x.1.length + x.2.length ∧ [0, 1].Nodup) ∧
    ((hitching 1 [0, 1] [] false).blocks.map Prod.fst = [16] ∧ (asideBlock (hitching 1 [0, 1] [] false) 1).map Prod.fst = some 16) ∧
    (let s := hitching 3 [1] [0] false
     (asideBlock s 1).isSome = true ∧ 1 ∈ [1] ∧ 1 ∈ [0, 1]) ∧
    (let s := { hitching 3 [] [0] false with hitches := [(0, [⟨0, 3, 0, [0], [], [0], false, 3⟩])] }
     tget s.hitches 0 = some [⟨0, 3, 0, [0], [], [0], false, 3⟩] ∧ 0 ∉ ([] : List Nat) ∧ (∀ c ∈ [0], c = 0)) ∧
    (let s := hitching 0 [] [] false
     let g := graphOf (stageOf 0 3) 0
     (((hitchCores { s with cores := [(0, s.core 0), (1, { s.core 0 with phase := .stop })] } 0 g (stageOf 0 3)).filter fun c => c != 0).take 7).length + 1
       < 2 ^ 3) ∧
    (let s := { hitching 2 [0, 1] [] false with teams := [(16 * 64, base.team)] }
     tget s.teams (16 * 64) = some base.team ∧ 16 * 64 / 64 = 16) := by
  repeat' first | decide +kernel | refine And.intro ?_ ?_

/-- the block of the team, its team over -/
def over_ (evq : Nat) (evs : List HeldEvent) : State :=
  let s := mapped base []
  { s with
    graphs := [(0, graphOf (stageOf 0 0) evq)]
    teams := [(0, { s.team with status := .exited })]
    cores := [(0, { s.core 0 with events := evs })] }

theorem witness_Retire :
    (let s := over_ 0x1000 []
     tget s.blocks 0 = some s.block ∧ canRetire s 0 s.block = true ∧ s.block.stash = [] ∧ s.block.attached = [] ∧
     tget s.graphs s.block.gslot = some (graphOf (stageOf 0 0) 0x1000) ∧ risesFrom 0 s.blocks = true ∧ risesFrom 0 s.coaches = true ∧
     bufferUse s 0 0 0 < 16) ∧
    (over_ 0 []).graphs ≠ [] ∧ 16 ≤ bufferUse (over_ 0x1000 (List.replicate 16 ⟨0, 0, 0, 0, 0, false, true, 0x1000, 0⟩)) 0 0 0 := by decide +kernel

theorem witness_Retire_quiet :
    (let s := over_ 0 []
     canRetire s 0 s.block = true ∧ tget s.graphs s.block.gslot = some (graphOf (stageOf 0 0) 0) ∧ (graphOf (stageOf 0 0) 0).evq = 0) ∧
    (let s := over_ 0x1000 (List.replicate 16 ⟨0, 0, 0, 0, 0, false, true, 0x1000, 0⟩)
     canRetire s 0 s.block = true) := by decide +kernel

/-- an event for the queue at 0x2000, with room or full -/
def eventful (d : Nat) : State :=
  let s := { mapped base [(page0 0x2000, BitVec.ofNat 1024 d), (page0 0x10000, 0)] with graphs := [(0, graphOf (stageOf 0 0) 0x2000)] }
  { s with cores := [(0, { s.core 0 with events := [⟨0, 0, 0, 0, 0, false, false, 0x2000, 7⟩] })] }
def evRing : Nat := 0x10000 + 3 * 2 ^ 160
def evFull : Nat := evRing + 4 * 2 ^ 248

theorem witness_Events :
    (let s := eventful evRing
     let e : HeldEvent := ⟨0, 0, 0, 0, 0, false, false, 0x2000, 7⟩
     (s.core 0).events = [e] ∧ stillCounted s e.blockKey = false ∧ coreReleased s 0 4 = (s, true) ∧ coreReleased s 0 5 = (s, true) ∧ ctxLoc s 0 0 0x2000 = (s, some (page0 0x2000)) ∧
     (enqueue s (page0 0x2000) true [natLe 16 7]).2 = (1, 0) ∧
     tget (enqueue s (page0 0x2000) true [natLe 16 7]).1.graphs 0 = some (graphOf (stageOf 0 0) 0x2000) ∧
     ((enqueue s (page0 0x2000) true [natLe 16 7]).1.core 0).events = [e]) ∧
    (let s := eventful evFull
     (enqueue s (page0 0x2000) true [natLe 16 7]).2 = (0, 4) ∧
     ((enqueue s (page0 0x2000) true [natLe 16 7]).1.core 0).events = [⟨0, 0, 0, 0, 0, false, false, 0x2000, 7⟩] ∧
     bufferUse (enqueue s (page0 0x2000) true [natLe 16 7]).1 0 0 0 < 16) ∧
    (let g := { graphOf (stageOf 0 0) 0 with finished := [0], ran := [0] }
     let s := { mapped base [] with graphs := [(3, g)], blocks := [] }
     let d := { s with l1 := [⟨0, page0 0xFFE0, true, 5, 1, false, 0, ⟨0, 0, 0, false⟩, 0, 0⟩] }
     tget s.graphs 3 = some g ∧ risesFrom 0 s.graphs = true ∧ launchOver s 3 g = true ∧ launchOver s 3 (graphOf (stageOf 0 0) 0) = false ∧
     s.l1.any (launchDirty g) = false ∧ launchOver d 3 g = true ∧ d.l1.any (launchDirty g) = true) := by
  decide +kernel

/-- an event whose block's writes are still on their way, and one that holds its block's slot while the buffer is full -/
theorem witness_Events_waiting :
    (let s := eventful evRing
     let s := { s with reqs := [(1, reqOf (.store [(0, 1)]) .sent)] }
     (coreReleased s 0 4).2 = false ∧ (coreReleased s 0 5).2 = false) ∧
    (let s := eventful evFull
     let e : HeldEvent := ⟨0, 0, 0, 0, 0, true, false, 0x2000, 7⟩
     let s := { s with cores := [(0, { s.core 0 with events := [e] })] }
     ((enqueue s (page0 0x2000) true [natLe 16 7]).1.core 0).events = [e] ∧ (tget s.blocks e.blockKey).isSome = true) ∧
    (let s := eventful evFull
     let e : HeldEvent := ⟨0, 0, 0, 0, 0, false, true, 0x2000, 7⟩
     let s := { s with cores := [(0, { s.core 0 with events := [e] })] }
     ((enqueue s (page0 0x2000) true [natLe 16 7]).1.core 0).events = [e] ∧ (enqueue s (page0 0x2000) true [natLe 16 7]).2 = (0, 4)) := by
  decide +kernel

theorem witness_Whiffletree :
    (31 < 32 ∧ 4095 / 128 = 31 ∧ base.wsample = [] ∧ { base with wstarted := true }.wstarted = true) ∧
    (let v : Tab (BitVec 24) := [(5, 8)]
     let s := { placing (stageOf 0 0) id with wsample := [(0, v)] }
     (v.map Prod.fst).Nodup ∧ 0 < 192 ∧ risesFrom 0 ((tget s.wtree 0).getD []) = true ∧ (∃ k ∈ readSlots s 0, ∃ x ∈ v, x.1 = k ∧ x.2 ≠ wget ((tget s.wtree 0).getD []) k)) := by
  decide +kernel

/-- the frame pair whose turn it is, and another; a core that rests with a slot free, and one that does not rest -/
theorem witness_Whiffletree_turns :
    (let s := { base with wstarted := true, wnext := 31 }
     s.wnext = 31 ∧ 4095 / 128 = 31 ∧ s.wsample = [] ∧ s.wnext ≠ 30) ∧
    (let v : Tab (BitVec 24) := [(5, 8), (70, 2)]
     let s := { placing (stageOf 0 0) (fun c => { c with idle := true }) with wsample := [(0, v)] }
     (s.core 0).idle = true ∧ slotFree s 0 = true ∧ (∃ x ∈ v, x.1 / 64 % 2 ≠ 0) ∧ (∃ x ∈ v, x.1 / 64 % 2 ≠ 1) ∧
       (placing (stageOf 0 0) id |>.core 0).idle = false) := by decide +kernel

/-- context 1 of partition 0 has a queue with work; the slice of context 0 is over -/
def slicing (phase : SavePhase) : State :=
  let s := mapped base []
  { s with
    clock := 1750000, ostler := true, running := [(0, 0)]
    wqs := [(3, { s.wq 3 with part := 0, ctx := 1, en := true, state := 2 })]
    cores := (List.range 192).map fun c => (c, { s.core c with phase := phase }) }

theorem witness_Slices :
    (sliceDue (slicing .run) 0 = true ∧ nextContext (slicing .run) 0 = some 1 ∧ sliceDue base 0 = false ∧ 0 ∈ coresOf (slicing .run) 0) ∧
    (((slicing .stop).core 0).phase = .stop ∧ drained (slicing .stop) 0 = true ∧
      drained { slicing .stop with jobs := [(1, jobOf true [] 0 0)] } 0 = false) ∧
    (((slicing .flush).core 0).phase = .flush ∧ drained (slicing .flush) 0 = true ∧ partOfCore (slicing .flush) 0 = some 0 ∧
      tget (slicing .flush).running 0 = some 0) ∧
    (let s := { slicing .idle with switching := [(0, 1)] }
     tget s.switching 0 = some 1 ∧ allIdle s 0 = true ∧ risesFrom 0 s.switching = true ∧ s.saved = [] ∧ 1 < 64 ∧
     allIdle { s with cores := [] } 0 = false) ∧
    (let k : Channel := ⟨[5], false⟩
     tget { base with channels := [(3, k)] }.channels 3 = some k ∧ k.queue ≠ []) := by decide +kernel

/-- queues of the context that runs and of others; a context saved with a team that comes back -/
theorem witness_Slices_queues :
    (let s := { slicing .run with wqs := [(2, { (slicing .run).wq 2 with part := 0, ctx := 0, state := 3 }), (3, { (slicing .run).wq 3 with part := 0, ctx := 1, en := true, state := 2 })] }
     tget s.running 0 = some 0 ∧ (tget s.wqs 2).map WorkQueue.state = some 3 ∧ (tget s.wqs 2).map WorkQueue.ctx = some 0 ∧ sliceDue s 0 = true ∧
       nextContext s 0 = some 1 ∧ (tget s.wqs 3).map WorkQueue.ctx = some 1) ∧
    (let v : Saved := { savedOf base 0 with teams := [(0, base.team)] }
     let s := { slicing .idle with switching := [(0, 1)], saved := [(1, v)], wqs := [(3, { (slicing .idle).wq 3 with part := 0, ctx := 1, state := 7, paused := 2 })] }
     tget s.saved (0 * 512 + 0 * 64 + 1) = some v ∧ (v.teams.map Prod.fst).Nodup ∧ (∀ x ∈ v.teams, x.1 / 1024 = 0) ∧ tget v.teams 0 = some base.team ∧
       allIdle s 0 = true ∧ (tget s.wqs 3).map WorkQueue.state = some 7) := by decide +kernel

/-- a stopped team, and a fault queue of 64-byte records at 0x2000 on a queue page -/
def faulting (d : Nat) : State :=
  let s := withLines (withPart { base with ctxs := [(0, ⟨0, 0, 0, 0, 0, 0, 0x2000⟩)] })
    [(page0 0, 0x1001), (page0 0x1000, 0x3B), (page0 0x2000, BitVec.ofNat 1024 d), (page0 0x10000, 0)]
  { s with teams := [(0, { s.team with stop := some ⟨List.replicate 8 7, 0, 0, false⟩ })] }
def faultRing : Nat := 0x10000 + 3 * 2 ^ 160 + 3 * 2 ^ 192

theorem witness_FaultRecords :
    (let s := faulting faultRing
     tget s.teams 0 = some s.team ∧ (s.team.stop.map StopRec.sent) = some false ∧ tget s.blocks 0 = some s.block ∧
     faultQueue s 0 0 = (s, some (page0 0x2000)) ∧ (enqueue s (page0 0x2000) true [List.replicate 64 0]).2 = (1, 0) ∧
     (enqueue s (page0 0x2000) true [List.replicate 64 0]).1.teams = s.teams) ∧
    (enqueue (faulting (faultRing + 4 * 2 ^ 248)) (page0 0x2000) true [List.replicate 64 0]).2 = (0, 4) ∧ (faultQueue base 0 0).2 = none := by
  decide +kernel

theorem witness_FaultRecords_coach :
    let c : Coach := { Coach.init with stop := some ⟨List.replicate 8 7, 0, 0, false⟩ }
    let s := { faulting faultRing with coaches := [(0, c)] }
    tget s.coaches 0 = some c ∧ (c.stop.map StopRec.sent) = some false ∧ faultQueue s 0 0 = (s, some (page0 0x2000)) ∧
      (enqueue s (page0 0x2000) true [List.replicate 64 0]).2 = (1, 0) ∧
      (enqueue s (page0 0x2000) true [List.replicate 64 0]).1.coaches = s.coaches := by
  decide +kernel

/-! ### The Geldy fabric. Clauses about an entry of a route, grant, aperture or binding table, or the FAIL bit of a queue pair, name values
that `Config` leaves open (log 9): no computation can show a state that has one, so they have no witness here. -/

def headOf (port : Nat) : FrameHdr := ⟨port, 0, 0, 5, 9, 0, false, 0, 0, 0⟩
def answer0 : RspFrame := ⟨headOf 3, 1, 0, []⟩
/-- the package is ready and port 3 is up, with n frames unacknowledged -/
def linked (n : Nat) (f : Port → Port) : State :=
  { base with phase := .ready, ports := [(3, f { Port.init with up := true, unacked := (List.range n).map fun k => (k, .rsp answer0) })] }

theorem rangesLocked_of_empty (s : State) (h : s.l2 = []) (l : Loc) (rs : List (Nat × Nat)) : rangesLocked s l rs = false := by
  have (q : Loc) : lineLocked s q = false := by
    have e (l : List Nat) : l.findSome? (fun _ => (none : Option Nat)) = none := by induction l <;> simp_all
    simp only [lineLocked, findWay, h]
    simp [tget, e]
  simp [rangesLocked, this]

theorem witness_LinkFrames :
    (∀ op : PeerOp, ∀ l, rangesLocked (linked 0 id) l (peerRanges op).1 = false) ∧
    { base with phase := .hold }.phase ≠ .ready ∧ (linked 0 id).phase = .ready ∧ ((linked 0 id).port 4).up = false ∧ ((linked 0 id).port 3).up = true ∧
    ({ headOf 3 with rsv := 1 } : FrameHdr).rsv ≠ 0 ∧ (headOf 3).rsv = 0 ∧ (headOf 3).ackv = false ∧
    (headOf 3).seq ≠ ((linked 0 fun p => { p with expSeq := 4095 }).port 3).expSeq ∧
    (((linked 2 id).port 3).unacked = [(0, .rsp answer0)] ++ (1, .rsp answer0) :: [] ∧ ∀ x ∈ [((0 : Nat), OutMsg.rsp answer0)], x.1 ≠ 1) ∧
    (∀ x ∈ ((linked 2 id).port 3).unacked, x.1 ≠ (0 + 4095) % 4096) ∧ ((linked 2 id).port 3).unacked ≠ [] ∧ ((linked 2 id).port 3).goBacks < 8 ∧
    (let s := linked 1 fun p => { p with goBacks := 8 }
     (∃ n, (s.port 3).unacked = [(n, .rsp answer0)]) ∧ 8 ≤ (s.port 3).goBacks ∧ (OutMsg.rsp answer0).header = some (headOf 3)) ∧
    (let s := { linked 0 id with parts := [(0, 1 + (2 ^ 24 - 1) * 2 ^ 64)], identNow := some 5 }
     (s.port 4).up = false ∧ portPart s 4 < 8 ∧ s.identNow.isSome = true) := by
  refine ⟨fun op l => rangesLocked_of_empty _ rfl l _, ?_⟩
  repeat' first | decide +kernel | exact ⟨0, rfl⟩ | refine And.intro ?_ ?_ | intro

theorem witness_FramesHeld :
    ∃ x ∈ ({ linked 0 id with unsent := [(5, .rsp answer0)] }).unsent, x.1 = 5 ∧ ∃ h, x.2.header = some h ∧ h.part = 0 :=
  ⟨(5, .rsp answer0), by decide +kernel, rfl, _, rfl, rfl⟩

theorem witness_FramesLeave : routesTo (linked 0 id) 0 5 = (linked 0 id, []) ∧ ∀ x ∈ ([] : List Nat), 2048 ≤ ((linked 0 id).port x).unacked.length := by
  decide +kernel

def waitingFor (owner : Nat) : State :=
  { linked 0 id with
    remotes := [(1, ⟨1, 9, false, 0, 0, owner, 1, [], 0, false⟩)]
    reqs := [(1, reqOf (.store [(0, 7)]) .sent)] }
def taken (s : State) : State :=
  { s with ports := tset s.ports 3 { s.port 3 with expSeq := 1 }, outbox := s.outbox ++ [.ack 3 0] }

theorem witness_PeersAccess :
    Takes (linked 0 id) (headOf 3) (taken (linked 0 id)) ∧ (∀ x, rangesLocked (linked 0 id) x [(0x2000, 8)] = false) ∧
    (∀ owner ∈ [0, 3],
      let s := waitingFor owner
      Takes s answer0.hdr (taken s) ∧ tget s.remotes answer0.ref = some ⟨1, 9, false, 0, 0, owner, 1, [], 0, false⟩ ∧ answer0.hdr.src = 9 ∧
      risesFrom 0 s.remotes = true ∧ tget s.reqs 1 = some (reqOf (.store [(0, 7)]) .sent) ∧ (reqOf (.store [(0, 7)]) .sent).kind = .store [(0, 7)]) := by
  refine ⟨⟨by decide +kernel, by decide +kernel, by decide +kernel, by decide +kernel, by decide +kernel, rfl⟩,
    fun x => rangesLocked_of_empty _ rfl x _, ?_⟩
  simp only [List.forall_mem_cons, List.not_mem_nil, false_implies, implies_true, and_true]
  exact ⟨⟨⟨by decide +kernel, by decide +kernel, by decide +kernel, by decide +kernel, by decide +kernel, rfl⟩, by decide +kernel⟩,
    ⟨⟨by decide +kernel, by decide +kernel, by decide +kernel, by decide +kernel, by decide +kernel, rfl⟩, by decide +kernel⟩⟩

theorem binding_of_none (s : State) (p i : Nat) (h : portPart s p = 8) : binding s p i = (s, none) := by
  simp [binding, h]

theorem bindings_of_none (s : State) (p : Nat) (h : portPart s p = 8) : bindings s p = (s, []) := by
  have (l : List Nat) : l.foldl (fun (r : State × List (Nat × Nat × Loc × Nat)) i =>
      let q := binding r.1 p i
      (q.1, match q.2 with
        | some b => r.2 ++ [(i, b)]
        | none => r.2)) (s, []) = (s, []) := by
    induction l with
    | nil => rfl
    | cons i l ih => simp only [List.foldl_cons, binding_of_none s p i h, ih]
  exact this _

theorem bindingsAre_none (s : State) (p : Nat) (h : portPart s p = 8) : BindingsAre s p [] :=
  fun _ _ _ _ => bindings_of_none _ p h

def fwd0 (rsv : Nat) : FwdFrame := ⟨headOf 3, false, rsv, [[1, 2, 3, 4]]⟩

theorem witness_Forwarding :
    Takes (linked 0 id) (fwd0 0).hdr (taken (linked 0 id)) ∧ (fwd0 0).rsvHi = 0 ∧
    (256 ≤ (({ linked 0 id with ports := [(0, { Port.init with store := List.replicate 256 ⟨0, 9, false, []⟩ }), (3, { Port.init with up := true })] } : State).port 0).store.length) ∧
    ((linked 0 id).port 0).store.length < 256 ∧ binding (taken (linked 0 id)) 0 0 = (taken (linked 0 id), none) ∧
    ((linked 0 id).phase = .ready ∧ ((linked 0 id).port 3).up = true ∧ BindingsAre (linked 0 id) 3 [] ∧ ((linked 0 id).port 3).bRemote = []) ∧
    (∀ port, port < 24 → BindingsAre (linked 0 id) port [] ∧ (([] : List (Nat × Nat × Loc × Nat)).map Prod.fst).Nodup) := by
  refine ⟨⟨by decide +kernel, by decide +kernel, by decide +kernel, by decide +kernel, by decide +kernel, rfl⟩, rfl, by decide +kernel, by decide +kernel,
    binding_of_none _ _ _ (by decide +kernel), ⟨rfl, by decide +kernel, bindingsAre_none _ _ (by decide +kernel), by decide +kernel⟩, fun p h => ⟨bindingsAre_none _ _ ?_, List.nodup_nil⟩⟩
  have : ∀ p, p < 24 → portPart (linked 0 id) p = 8 := by decide +kernel
  exact this p h

def part0 (last : Bool) : McdFrame := ⟨headOf 3, 1, 2, 3, 5, [1, 2], last⟩
def sending : Job := { jobOf false [] 0 3 with acks := 0, refs := 0, negs := 0, aoff := none, targets := 3, ticket := 0 }

theorem witness_Multicast :
    (∀ last ∈ [false, true], Takes (linked 0 id) (part0 last).hdr (taken (linked 0 id)) ∧ (linked 0 id).mcastIn = []) ∧
    (let m : McastIn := ⟨9, 1, 2, 0, 3, 5, [0]⟩
     (m.src == (part0 false).hdr.src && m.core == (part0 false).core && m.bslot == (part0 false).bslot && m.ticket == (part0 false).hdr.tag) = true) ∧
    (let s := { linked 0 id with jobs := [(1, sending)] }
     let g : McrFrame := ⟨headOf 3, 0, 0, 1, 0, 0⟩
     Takes s g.hdr (taken s) ∧ s.jobs = [(1, sending)] ∧ sending.cmd = 3 ∧ sending.unit.core = g.core ∧ sending.unit.bslot = g.bslot ∧
     sending.ticket = g.hdr.tag ∧ sending.acks = 0 ∧ sending.refs = 0 ∧ sending.negs = 0 ∧ sending.targets < 2 ^ 512 ∧ sending.aoff = none) := by
  refine ⟨fun last _ => ⟨⟨rfl, show ((linked 0 id).port 3).up = true by decide +kernel, rfl, rfl, show 0 = ((linked 0 id).port 3).expSeq by decide +kernel, rfl⟩, rfl⟩, by decide +kernel,
    ⟨by decide +kernel, by decide +kernel, by decide +kernel, by decide +kernel, by decide +kernel, rfl⟩, rfl, by decide +kernel⟩

/-- a broadcast to one member, this package, of two FP32 elements -/
def coll0 (issued : Bool) (heard : List (Nat × Nat × List (List Nat))) : Collective :=
  ⟨0, 0, 7, 1, issued, 0x3000, 3, 0x4000, 5, 3, 0, 0, 2, 0, 1, 0, 0x2000, 0x2000, [5], false, heard⟩
def shard0 : ColFrame := ⟨headOf 3, 7, 1, 0, 0, [[1, 2]]⟩
def collecting (cs : Tab Collective) : State :=
  { mapped base [] with phase := .ready, ports := [(3, { Port.init with up := true })], colls := cs }

theorem witness_Collectives :
    (let s := collecting [(1, coll0 false [])]
     let p := min (portPart s 3) 7
     p = 7 ∧ Takes s shard0.hdr (taken s) ∧ collFind s p 7 1 = none ∧ collWaiting s p < 64) ∧
    (let s := collecting [(1, { coll0 false [] with part := 7 })]
     collFind s (min (portPart s 3) 7) 7 1 = some (1, { coll0 false [] with part := 7 })) ∧
    (let s := collecting ((List.range 64).map fun k => (k, { coll0 false [] with part := 7, collid := 2 + k }))
     collFind s (min (portPart s 3) 7) 7 1 = none ∧ 64 ≤ collWaiting s (min (portPart s 3) 7)) ∧
    ((coll0 true []).full = false ∧ (coll0 true [(0, 0, [[1, 2]])]).full = true) ∧
    (let c := coll0 true [(0, 0, [[1, 2]])]
     let s := collecting [(1, c)]
     tget s.colls 1 = some c ∧ shardsAccepted s c = true ∧ ctxRange s c.part c.ctx c.dst c.outBytes ⟨false, true, true⟩ = (s, none, [(page0 0x2000, 8)])) ∧
    ((∀ x ∈ [0x3F800000], x < 2 ^ 32 ∧ ffF32.isNaN x = false ∧ ffF32.isInf x = false) ∧ (Dy.sum ([0x3F800000].map ffF32.val)).m ≠ 0) := by
  refine ⟨⟨by decide +kernel, ⟨by decide +kernel, by decide +kernel, by decide +kernel, by decide +kernel, by decide +kernel, rfl⟩, by decide +kernel⟩, ?_⟩
  decide +kernel

theorem witness_Unreachable :
    (∀ held ∈ [([] : List (Nat × OutMsg)), [(9, .rsp answer0)]],
      let s := { waitingFor 3 with unsent := held }
      (∀ p, p < 24 → BindingsAre s p [] ∧ (s.port p).bRemote = []) ∧ s.jobs = [] ∧ s.colls = [] ∧
      s.remotes = [(1, ⟨1, 9, false, 0, 0, 3, 1, [], 0, false⟩)] ∧ ∀ p ∈ s.ports, p.2.unacked = []) ∧
    routeless { waitingFor 3 with unsent := [(9, .rsp answer0)] } 9 = true ∧ routeless { waitingFor 3 with unsent := [] } 9 = false := by
  refine ⟨?_, by decide +kernel, by decide +kernel⟩
  simp only [List.forall_mem_cons, List.not_mem_nil, false_implies, implies_true, and_true]
  have h : ∀ p, p < 24 → portPart (waitingFor 3) p = 8 ∧ ((waitingFor 3).port p).bRemote = [] := by decide +kernel
  exact ⟨⟨fun p q => ⟨bindingsAre_none _ p (h p q).1, (h p q).2⟩, rfl, rfl, rfl, by decide +kernel⟩,
    ⟨fun p q => ⟨bindingsAre_none _ p (h p q).1, (h p q).2⟩, rfl, rfl, rfl, by decide +kernel⟩⟩

/-! ### Hosts and command packets -/

/-- queue 3 of context 0, ready to run the packets of a 4 KiB segment at 0x8000, the lines ls at their homes; its context maps [0, 2^30)
onto itself, [2^30, 2^31) onto the same bytes as queue pages, and the third gigabyte to package 9 -/
def streaming (f : WorkQueue → WorkQueue) (ls : List (Loc × LineData)) : State :=
  { withLines (withPart base) ((page0 0, 0x1001) :: (page0 0x1000, 0x1B + 0x3B * 2 ^ 64 + (0x1D + 9 * 2 ^ 40) * 2 ^ 128) :: ls) with
    phase := .ready
    ostler := true
    wqs := [(3, f { WorkQueue.init with en := true, state := 2, tail := 4096, seglog := 12, levels := [⟨0, 0x8000, 4096, 0, 0, 0⟩] })] }
def level0 : Level := ⟨0, 0x8000, 4096, 0, 0, 0⟩
/-- the line of an address, zeros but for what is given -/
def lineOf (a : Nat) (x : LineData) : Line := { zeroLine (a / 128) x with own := 1 }
def wayOf (s : State) (a : Nat) : Nat := setBase (homeSlice s (page0 a)) (a / 128)

def doorbelled (f : WorkQueue → WorkQueue) : State := streaming f []
def opened : State := { doorbelled id with hostqps := [(7, ⟨true, 1, false, 5, []⟩)] }

theorem witness_Hosts :
    { base with phase := .hold }.phase ≠ .ready ∧ base.ostler = false ∧
    (let s := doorbelled fun w => { w with state := 1, tail := 0 }
     s.phase = .ready ∧ s.ostler = true ∧ 8 < 2 ^ 64 ∧ 8 % 8 = 0 ∧ (s.wq 3).tail ≤ 8 ∧ (s.wq 3).en = true ∧ (s.wq 3).state = 1 ∧ (s.wq 3).headp < 8 ∧
     (s.wq 3).free = []) ∧
    (12 % 8 ≠ 0 ∧ 0 < ((doorbelled id).wq 3).tail ∧ (base.wq 3).en = false ∧ ((doorbelled fun w => { w with free := [0x9000] }).wq 3).free = 0x9000 :: []) ∧
    (opened.phase = .ready ∧ (opened.hostQp 0 7).open_ = true) ∧
    (let s := { opened with remotes := [(1, ⟨1, 0, true, 7, 0, 3, 3, [], 0, false⟩)] }
     (s.hostQp 0 7).port ≠ 0 ∧ s.remotes = [(1, ⟨1, 0, true, 7, 0, 3, 3, [], 0, false⟩)]) ∧
    (let e := (wget opened.parts 0).toNat
     e % 2 = 1 ∧ 255 < 256 ∧ (0 = e / 2 ^ 256 % 2 ^ 128 ∧ 0 = e / 2 ^ 104 % 2 ^ 24) ∧ ¬(256 < 256 ∨ 256 = 256 ∧ 1 = e / 2 ^ 256 % 2 ^ 128) ∧
     (wget opened.parts 1).toNat % 2 ≠ 1) := by decide +kernel

theorem witness_Streaming : Streaming (streaming id []) 3 level0 := by
  refine ⟨?_, ?_, ?_, ?_, ?_, ?_, ?_⟩ <;> decide +kernel

/-- A range that is one piece at its own address, in a line that is at home: at the start, across its middle, and at its end. -/
theorem witness_OneLine :
    (let s := streaming id [(page0 0x2000, 5)]
     ∀ x ∈ ([(0x2000, 4), (0x2000, 8), (0x2078, 8), (0x2000, 16), (0x2000, 128)] : List (Nat × Nat)), ∀ n ∈ ([⟨false, true, false⟩, ⟨true, false, false⟩, ⟨true, true, true⟩] : List Need),
       PlainRange s 0 0 x.1 x.2 n (page0 x.1) ∧ OneLine s (page0 x.1) x.2 (wayOf s 0x2000) (lineOf 0x2000 5)) := by
  simp only [List.forall_mem_cons, List.not_mem_nil, false_implies, implies_true, and_true]
  repeat' first | decide +kernel | refine And.intro ?_ ?_ | intro

theorem witness_Packets :
    (let s := streaming id []
     ctxRange s (s.wq 3).part (s.wq 3).ctx (2 ^ 40) 8 ⟨false, true, false⟩ = (s, some 64, [])) ∧
    (((([0x2000, 7] : List Nat).drop 1).flatMap (natLe 8)).take 8).length = 8 ∧
    (let s := streaming id [(page0 0x2000, 5)]
     let line := lineOf 0x2000 5
     s.wqs = (streaming id []).wqs ∧ Nat.land (line.get 0 4) (0xFF % 256 ^ 4) = Nat.land 5 (0xFF % 256 ^ 4) ∧
     ¬Nat.land (line.get 0 4) (0xFF % 256 ^ 4) = Nat.land 6 (0xFF % 256 ^ 4)) ∧
    (0 < ((streaming (fun w => { w with pending := 1 }) []).wq 3).pending ∧ ((streaming id []).wq 3).pending = 0) := by decide +kernel

theorem witness_Streaming_pending : Streaming (streaming (fun w => { w with pending := 1 }) []) 3 level0 := by
  refine ⟨?_, ?_, ?_, ?_, ?_, ?_, ?_⟩ <;> decide +kernel

theorem witness_Events_ring :
    let s := streaming (fun w => { w with evt := 0x2000, evidx := 7 }) [(page0 0x2000, 0)]
    wqLive s 3 = true ∧ (s.wq 3).wait = .none ∧ (s.wq 3).levels = [level0] ∧ (s.wq 3).stopReq = false ∧ s.remotes = [] ∧ (s.wq 3).evt ≠ 0 ∧
    PlainRange s 0 0 (0x2000 + 16 * 7) 16 ⟨false, true, false⟩ (page0 0x2070) ∧ OneLine s (page0 0x2070) 16 (wayOf s 0x2000) (lineOf 0x2000 0) := by
  repeat' first | decide +kernel | refine And.intro ?_ ?_ | intro

theorem witness_Levels :
    (let w := (streaming id []).wq 3
     level0.pos + 16 + 8 * 32 ≤ level0.len ∧ w.headp + 16 + 8 * 32 ≤ w.tail ∧ 0x9000 % 2 ^ w.seglog = 0 ∧ 0x9800 % 2 ^ w.seglog ≠ 0 ∧ w.headp + 16 ≠ w.tail) ∧
    (level0.len < 4080 + 16 + 8 * 1 ∧ ((streaming (fun w => { w with tail := 16 }) []).wq 3).tail < 16 + 8) ∧
    (let s := streaming (fun w => { w with levels := [⟨2, 0x8010, 8, 0, 2, 24⟩, level0] }) []
     wqLive s 3 = true ∧ (s.wq 3).levels = ⟨2, 0x8010, 8, 0, 2, 24⟩ :: level0 :: [] ∧ 0 + 8 * 1 = 8 ∧ (s.wq 3).stopReq = false ∧ s.remotes = []) ∧
    (let s := streaming (fun w => { w with leaving := [0x9000] }) []
     0x9000 ∈ (s.wq 3).leaving ∧ (s.wq 3).free.length < 255 ∧
     255 ≤ ((streaming (fun w => { w with leaving := [0x9000], free := List.replicate 255 0 }) []).wq 3).free.length) ∧
    (let s := streaming id []
     let w := s.wq 3
     (level0.base + level0.pos) / 64 ≤ 0x204 ∧ 0x204 * 64 ≤ level0.base + level0.pos + 256 ∧
     0x204 * 64 < min (level0.base + level0.pos + (w.tail - w.headp)) (level0.base + level0.len) ∧ (∀ x ∈ w.lines, x.line ≠ 0x204) ∧
     (fetchLine s 3 0 0x204).2 = .ok) ∧
    (let s := streaming (fun w => { w with levels := [⟨0, 2 ^ 40, 4096, 0, 0, 0⟩] }) []
     2 ^ 40 / 64 * 64 < min (2 ^ 40 + 4096) (2 ^ 40 + 4096) ∧ (fetchLine s 3 0 (2 ^ 40 / 64)).2 = .bad 3 64) := by decide +kernel

/-- a segment that is the next to return and one that is not; an atomic that is new and one that comes again; a line the packets held run into,
one behind a LINK, and one of a level above the stream -/
theorem witness_Levels_order :
    (let w := (streaming (fun w => { w with leaving := [0x9000, 0xA000] }) []).wq 3
     w.leaving = 0x9000 :: [0xA000] ∧ w.leaving.head? ≠ some 0xA000) ∧
    (let r : Tab HostQp := [(7, ⟨true, 1, false, 5, [(4, [1])]⟩)]
     (∀ a ∈ (({ opened with hostqps := r } : State).hostQp 0 7).replay, a.1 ≠ 5) ∧
       (({ opened with hostqps := r } : State).hostQp 0 7).replay.find? (fun a => a.1 == 4) = some (4, [1])) ∧
    (let w := (streaming (fun w => { w with lines := [⟨0, 0x200, natLe 8 (10 * 2 ^ 16) ++ List.replicate 56 0, 0⟩] }) []).wq 3
     runsInto w 0x201 64 0x8000 = true ∧ ∀ x ∈ w.lines, x.level = 0 → x.line ≠ 0x201) ∧
    (let w := (streaming (fun w => { w with lines := [⟨0, 0x200, natLe 8 (9 + 2 * 2 ^ 16) ++ List.replicate 56 0, 0⟩] }) []).wq 3
     runsInto w 0x201 64 0x8000 = false) ∧
    (let w := (streaming (fun w => { w with levels := [⟨1, 0x8000, 256, 0, 0, 16⟩, level0] }) []).wq 3
     w.levels = ⟨1, 0x8000, 256, 0, 0, 16⟩ :: [level0] ∧ [level0] ≠ [] ∧ 0x201 * 64 < min (0x8000 + 256) (0x8000 + 256)) := by decide +kernel

theorem witness_Levels_nearTheEnd : Streaming (streaming (fun w => { w with levels := [⟨0, 0x8000, 4096, 4080, 0, 0⟩] }) []) 3 ⟨0, 0x8000, 4096, 4080, 0, 0⟩ ∧
    Streaming (streaming (fun w => { w with tail := 16 }) []) 3 level0 := by
  refine ⟨⟨?_, ?_, ?_, ?_, ?_, ?_, ?_⟩, ?_, ?_, ?_, ?_, ?_, ?_, ?_⟩ <;> decide +kernel

theorem pair_of {α β : Type} (x : α × β) : ∃ a b, x = (a, b) := ⟨x.1, x.2, rfl⟩

/-- COLLECTIVE's reads: its record at 0x2000, its completion value at 0x2078. The group table's place is not given (log 9). -/
theorem witness_CollectivePacket :
    let s := streaming id [(page0 0x2000, 5)]
    PlainRange s 0 0 0x2078 8 ⟨false, true, false⟩ (page0 0x2078) ∧
    ∃ u bs pz v id, (∃ lr, PlainRange s 0 0 0x2000 64 ⟨true, true, false⟩ lr ∧ readPieces s [(lr, 64)] = (u, bs, pz)) ∧
      issueCollective u 3 0x2000 0x2078 (BitVec.ofNat 64 1) (0 == 1) (leNat bs) = (v, id) := by
  intro s
  obtain ⟨u, y, h⟩ := pair_of (readPieces s [(page0 0x2000, 64)])
  obtain ⟨bs, pz, rfl⟩ := pair_of y
  obtain ⟨v, id, h'⟩ := pair_of (issueCollective u 3 0x2000 0x2078 (BitVec.ofNat 64 1) (0 == 1) (leNat bs))
  exact ⟨⟨by decide +kernel, by decide +kernel⟩, u, bs, pz, v, id, ⟨page0 0x2000, ⟨by decide +kernel, by decide +kernel⟩, h⟩, h'⟩

/-- the queue waits at a WAIT_MEM for the 4 bytes at a to be 5 -/
def memWaiting (a : Nat) (x : LineData) : State :=
  streaming (fun w => { w with state := 3, wait := .mem, lines := [⟨0, 0x200, natLe 8 (7 + 4 * 2 ^ 16) ++ natLe 8 a ++ natLe 8 5 ++ natLe 8 0xFF, 0⟩] })
    [(page0 0x2000, x)]

theorem witness_WaitsOnMemory :
    let s := memWaiting 0x2000 5
    let p := waitingPacket (s.wq 3) 3
    wqLive s 3 = true ∧ (s.wq 3).wait = .mem ∧ (s.wq 3).levels = [level0] ∧ (s.wq 3).stopReq = false ∧ s.remotes = [] ∧ watched s 3 = some (page0 0x2000) ∧
    (peekNat s (page0 0x2000) (s.owner 0) (condSize p)).2 = false ∧ condMeets p (peekNat s (page0 0x2000) (s.owner 0) (condSize p)).1 = true := by
  decide +kernel

theorem witness_WaitsOnMemory_notMet :
    let s := memWaiting 0x2000 6
    let p := waitingPacket (s.wq 3) 3
    watched s 3 = some (page0 0x2000) ∧ condMeets p (peekNat s (page0 0x2000) (s.owner 0) (condSize p)).1 = false := by decide +kernel

theorem witness_WaitsOnMemory_peer :
    let s := memWaiting (2 * 2 ^ 30) 0
    let p := waitingPacket (s.wq 3) 3
    watched s 3 = none ∧
    ctxRange s 0 0 (p.qw.getD 0 0) (condSize p) ⟨true, false, false⟩ = (s, none, [(⟨1, 9, 0, 0, 0, 0, 0⟩, condSize p)]) := by decide +kernel

/-! A graph of one stage whose input is the queue at VA 2^30 + 0x2180: header and stage at 0x2000, tables at 0x2080, kernel at 0x2100. -/

def graphLines (regs : Nat) : List (Loc × LineData) :=
  [(page0 0x2000, BitVec.ofNat 1024 (0x2080 + 0x2088 * 2 ^ 64 + 1 * 2 ^ 264 +
      (63 * 2 ^ 10 + regs * 2 ^ 22 + 1 * 2 ^ 33 + 1 * 2 ^ 64 + 0xFFFFFFFF * 2 ^ 136) * 2 ^ 512)),
   (page0 0x2080, BitVec.ofNat 1024 (0x2100 + (2 ^ 30 + 0x2180) * 2 ^ 64)),
   (page0 0x2100, BitVec.ofNat 1024 (0x2200 + 1 * 2 ^ 64)),
   (page0 0x2180, BitVec.ofNat 1024 (2 ^ 228))]

theorem witness_Graphs :
    (let s := streaming id (graphLines 3)
     let r := readGraph 0 0 0x2000 s
     (match r.2 with | .ok g => decide ((createPads 0 0 g.2 r.1).2 = none) | .error _ => false) = true ∧ freeGraphSlot r.1 0 = some 0 ∧
     freeGraphSlot { r.1 with graphs := (List.range 16).map fun k => (k, graphOf (stageOf 0 0) 0) } 0 = none) ∧
    (let s := streaming id (graphLines 7)
     (match (readGraph 0 0 0x2000 s).2 with | .ok _ => false | .error e => decide (e = (0, 3))) = true) ∧
    (match (readGraph 0 0 0x2001 (streaming id [])).2 with | .ok _ => false | .error e => decide (e = (255, 1))) = true := by decide +kernel

theorem witness_Graphs_queue : Streaming (streaming id (graphLines 3)) 3 level0 ∧ PlainRange (streaming id (graphLines 3)) 0 0 0x3000 16 ⟨false, true, false⟩ (page0 0x3000) := by
  refine ⟨⟨?_, ?_, ?_, ?_, ?_, ?_, ?_⟩, ?_, ?_⟩ <;> decide +kernel

/-! ### The management queue pair, ownership, reset, errors -/

/-- partition 0 owns the package, its management connection is open, no reply waits -/
def manageable (f : State → State) : State :=
  f { mapped base [] with phase := .ready, ostler := true, hostqps := [(256, ⟨true, 0, false, 0, []⟩)] }
def asks (q1 q2 q3 q4 : Nat) : Mgmt := ⟨0, none, 9, q1, q2, q3, q4, 0, 0, 0⟩

theorem witness_Hears : Hears (manageable id) 0 ∧ (manageable id).remotes = [] := by
  refine ⟨⟨?_, ?_, ?_, ?_⟩, ?_⟩ <;> decide +kernel

theorem witness_odd : Hears (manageable id) 0 ∧ { asks 0 0 0 0 with odd := some 0x40 }.odd = some 0x40 := by
  refine ⟨⟨?_, ?_, ?_, ?_⟩, ?_⟩ <;> decide +kernel

def withWqs (w : WorkQueue) : State := manageable fun s => { s with wqs := [(3, w)], running := [(0, 5)] }
def restingQueue (state : Nat) : WorkQueue := { WorkQueue.init with state := state, ctx := 5, levels := [level0], paused := 4 }

theorem witness_WorkQueuesManaged :
    (let m := asks 3 0x8000 0x1000 (12 * 2 ^ 16 + 2 ^ 32)
     m.q4 % 8 = m.part ∧ (m.q4 / 2 ^ 3 % 32 = 0 ∧ m.q4 / 2 ^ 14 % 4 = 0 ∧ m.q4 / 2 ^ 20 % 2 ^ 12 = 0 ∧ m.q4 < 2 ^ 33 ∧ 12 ≤ m.q4 / 2 ^ 16 % 16 ∧
       m.q2 % 2 ^ (m.q4 / 2 ^ 16 % 16) = 0 ∧ m.q3 % 4096 = 0) ∧ m.q1 < 8192) ∧
    ((asks 3 0 0 (11 * 2 ^ 16)).q4 / 2 ^ 16 % 16 < 12 ∧ (asks 3 0 0 1).q4 % 8 ≠ (asks 3 0 0 1).part) ∧
    (∀ st ∈ [0, 1, 2, 3, 4, 5, 6, 7], ((withWqs (restingQueue st)).wq 3).state = st ∧ ((withWqs (restingQueue st)).wq 3).part = 0 ∧
      ((withWqs (restingQueue st)).wq 3).busy = false ∧ ((withWqs (restingQueue st)).wq 3).levels = [level0] ∧ level0.kind = 0) ∧
    ((withWqs { restingQueue 2 with part := 1 }).wq 3).part ≠ 0 ∧ ((withWqs { restingQueue 2 with busy := true }).wq 3).busy = true ∧
    (tget (withWqs (restingQueue 6)).running 0 = some ((withWqs (restingQueue 6)).wq 3).ctx ∧ ((withWqs (restingQueue 6)).wq 3).paused = 4 ∧
      ((withWqs { restingQueue 6 with paused := 2 }).wq 3).paused ≠ 4) := by decide +kernel

theorem witness_Hears_queues : ∀ st ∈ [0, 1, 2, 3, 4, 5, 6, 7], Hears (withWqs (restingQueue st)) 0 ∧ (withWqs (restingQueue st)).remotes = [] := by
  intro st _
  exact ⟨⟨rfl, rfl, show ((withWqs (restingQueue 0)).hostQp 0 256).open_ = true by decide +kernel, rfl⟩, rfl⟩

def stopped0 : StopRec := ⟨List.replicate 8 0, 0, 0, true⟩
def units (st : UnitStatus) (coach : Bool) : State :=
  manageable fun s => { s with
    teams := [(0, { s.team with status := st, stop := some stopped0 })]
    coaches := if coach then [(0, { Coach.init with status := st, stop := some stopped0 })] else []
    graphs := [(0, graphOf (stageOf 0 0) 0), (3, graphOf (stageOf 0 0) 0)] }

theorem witness_Units :
    (2 ^ 19 ≤ 2 ^ 19 ∧ 192 ≤ 192 % 256 ∧ partOfCore base 0 ≠ some 0 ∧ tget (units .running false).blocks (0 * 16 + 15) = none) ∧
    (∀ st ∈ [UnitStatus.running, .stopped, .exited],
      let s := units st true
      partOfCore s 191 = some 0 ∧ partOfCore s 0 = some 0 ∧ (tget s.blocks 0).isSome = true ∧ tget s.teams 1 = none ∧
      (tget s.teams 0).map Team.status = some st ∧ (tget s.coaches 0).map Coach.status = some st ∧
      (tget s.teams 0).bind Team.stop = some stopped0 ∧ (tget s.coaches 0).bind Coach.stop = some stopped0 ∧ s.barriers = [] ∧
      (stopped0.words.getD 3 0).toNat / 2 ^ 14 % 2 = 0) ∧
    (let s := units .running false
     let e := (wget s.parts 0).toNat
     e / 2 ^ 12 % 16 = 0 ∧ e / 2 ^ 16 % 32 = 16 ∧ tget s.graphs 5 = none ∧ tget s.graphs 3 = some (graphOf (stageOf 0 0) 0) ∧
     graphUnits s 0 ≠ [] ∧ graphUnits s 3 = [] ∧ graphGone s 3 = true ∧ risesFrom 0 s.graphs = true ∧
     graphGone { s with cores := [(0, { s.core 0 with claim := some (3, 0) })] } 3 = false) := by
  decide +kernel

theorem witness_Units_record :
    let s := units .running false
    PlainRange { s with graphs := tset s.graphs 3 { graphOf (stageOf 0 0) 0 with removing := true }, replies := [⟨0, 4, 0, .mgmt 0 7 0 9 0⟩] } 0 0
      (graphOf (stageOf 0 0) 0).launchRec 16 ⟨false, true, false⟩ (page0 0) := by
  refine ⟨?_, ?_⟩ <;> decide +kernel

/-- units apart from every barrier and rein: of another block's barrier, and where no barrier is -/
theorem witness_Units_apart :
    let s := { units .stopped true with barriers := [(2 ^ 40 + 17 * 16, ⟨0, [⟨1, 1, 0, false⟩], [], [], [(17, [⟨1, 1, 1, false⟩])]⟩)], cores := [(1, { base.core 1 with readers := [(0, [⟨1, 1, 0, false⟩])] })] }
    ∀ u ∈ ([⟨0, 0, 0, false⟩, ⟨0, 0, 0, true⟩] : List UnitId),
      (∀ h ∈ s.barriers, u ∉ h.2.members ∧ ∀ x ∈ h.2.held, u ∉ x.2) ∧ (∀ c ∈ s.cores, ∀ r ∈ c.2.readers, u ∉ r.2) := by
  decide +kernel

theorem witness_StateMap :
    (let s := units .stopped false
     let u : UnitId := ⟨0, 0, 0, false⟩
     mapRead s (2 ^ 48 - 1) = none ∧ (mapRead s (blockKey u * 2 ^ 32 + u.team * 2 ^ 26 + 0x100 + 63)).map (fun x => x.1) = some 0 ∧ (tget s.blocks (blockKey u)).isSome = true ∧
     (tget s.teams (teamKey u)).map Team.status = some .stopped ∧ s.block.part = 0 ∧ 0 < s.block.lanes ∧
     (mapRead { s with blocks := [(0, { s.block with part := 1 })] } 0x100).map (fun x => x.1) = some 1) ∧
    (let s := manageable fun s => { s with raslogs := [(0, ⟨3, 5, 0, []⟩)] }
     tget s.raslogs 0 = some ⟨3, 5, 0, []⟩ ∧ 3 ≤ 5 ∧ ¬(6 : Nat) ≤ 5) ∧
    (let s := manageable fun s => { s with ctxs := [(0, ⟨0, 0, 0, 0, 0, 0, 0⟩), (7, ⟨0, 0, 0, 0, 0, 0, 0⟩)], running := [(0, 7)] }
     s.stacksDown.any (partHas (wget s.parts 0).toNat) = false ∧ (tget s.ctxs 0).isSome = true ∧ tget s.running 0 = some 7 ∧ (tget s.ctxs 7).isSome = true ∧
     ctxIdle s 0 0 = true ∧ tget s.ctxs 9 = none ∧ (putCtx s 0 0 ⟨0x1000, 0, 0, 0, 0, 0, 0⟩).replies = [] ∧
     (shootDown s 0 0 fun _ _ => true).replies = [] ∧
     ({ s with stacksDown := [0] } : State).stacksDown.any (partHas (wget s.parts 0).toNat) = true ∧
     ctxIdle { s with graphs := [(0, graphOf (stageOf 0 0) 0)] } 0 0 = false) ∧
    (0x1000 % 2 ^ 21 ≠ 0 ∧ 2 ^ 39 ≤ 2 ^ 39 ∧ 32 % 64 ≠ 0 ∧ 0x600000 % 2 ^ 21 = 0 ∧ 0x600000 < 2 ^ 39 ∧ 0x40 % 64 = 0) ∧
    (let s := { manageable id with l2 := [], tlb := [], blocks := [], teams := [] }
     tget s.ctxs 3 = none ∧ s.l2 = [] ∧ s.redbuf = [] ∧ s.wcache = [] ∧ s.tlb = [] ∧ s.ctlb = [] ∧ s.saved = [] ∧ s.misses = [] ∧ s.blocks = []) := by
  decide +kernel

/-- context 0 exists; the bytes of a command lie at 0x2000 and on, n lines of them at their homes -/
def signing (n : Nat) (first : LineData) (f : State → State) : State :=
  let s := { mapped base ((List.range n).map fun i => (page0 (0x2000 + 128 * i), if i = 0 then first else 0)) with
    phase := .ready, ostler := true, hostqps := [(256, ⟨true, 0, false, 0, []⟩)], ctxs := [(0, ⟨0, 0, 0, 0, 0, 0, 0⟩)] }
  f s

def digest0 : List Nat := [245, 165, 253, 66, 209, 106, 32, 48, 39, 152, 239, 110, 211, 9, 151, 155, 67, 0, 61, 35, 32, 217, 240, 232, 234, 152,
  49, 169, 39, 89, 251, 75]
/-- an ostler image of 64 zero bytes, its FLOOR bit set and its version 7; the digest of 64 zero bytes is the known value of SHA-256 -/
def image0 : FlashImage :=
  ⟨[0x5A, 0x49, 0x4D, 0x47, 2, 0, 1, 0, 7, 0, 0, 0, 64, 0, 0, 0] ++ digest0 ++ List.replicate 80 0, List.replicate 64 0, [], []⟩

/-- What verification answers is not the model's to say (`Config.verify`): where it accepts, the image is good. -/
theorem witness_ImageGood (h : ∀ k m g, Config.verify k m g = true) : imageGood State.reset image0 = true := by
  simp only [imageGood, h]
  decide +kernel

theorem witness_Images :
    (let s := signing 0 0 id
     tget s.ctxs (0 * 64 + 1) = none ∧ (tget s.ctxs 0).isSome = true ∧ (ctxBytes s 0 0 (2 ^ 40) 16000).2 = none ∧
     (ctxBytes s 0 0 (2 ^ 40) 16000).1.replies = []) ∧
    (let s := signing 1 0 id
     (ctxBytes s 0 0 0x2000 64).2 = some (List.replicate 64 0) ∧ (ctxBytes s 0 0 0x2000 64).1.replies = []) ∧
    leNat (toBytes (image0.header.take 4)) = 0x474D495A ∧ leNat (toBytes (({ image0 with header := List.replicate 128 0 } : FlashImage).header.take 4)) ≠ 0x474D495A ∧
    (0x2040 % 64 = 0 ∧ 0x2041 % 64 ≠ 0 ∧ (ctxRange (signing 0 0 id) 0 0 (2 ^ 40) 8112 ⟨false, true, false⟩) = (signing 0 0 id, some 64, []) ∧
     ctxRange (signing 0 0 id) 0 0 0x2000 8112 ⟨false, true, false⟩ = (signing 0 0 id, none, [(page0 0x2000, 8112)])) ∧
    (let s := signing 0 0 fun s => { s with keys := [(1, ⟨true, false, 0, 4⟩)] }
     (wget s.parts 0).toNat / 2 ^ 8 % 16 = 1 ∧ tget s.keys 1 = some ⟨true, false, 0, 4⟩ ∧ tget (signing 0 0 id).keys 1 = none) := by decide +kernel

/-- A blob of OP k, SEQ 1 and a DEVID of zeros with n bytes of body, whatever its body and signature. -/
theorem witness_Blobs (k n : Nat) (hk : k < 256) (hn : n < 256) (rest : List Nat) (h : rest.length = n + 7856) :
    ∃ b, blobOf ([k, 0, 0, 0, 0, 0, 0, 0, 1, 0, 0, 0, 0, 0, 0, 0] ++ List.replicate 32 0 ++ [n] ++ List.replicate 15 0 ++ rest) = some b ∧ b.op = k ∧ b.seq = 1 ∧
      b.devid = List.replicate 32 0 ∧ b.body = rest.take n := by
  have e (x : Nat) (y : x < 256) : leNat (toBytes [x, 0, 0, 0]) = x := by
    have : (BitVec.ofNat 8 x).toNat = x := Nat.mod_eq_of_lt y
    simp [toBytes, leNat, this]
  have a : allZero (List.replicate 4 0) = true := by decide
  simp only [blobOf, leOf, sigLen, List.replicate, List.cons_append, List.nil_append, List.drop_succ_cons, List.drop_zero, List.take_succ_cons,
    List.take_zero, List.length_cons, e k hk, e n hn, h]
  refine ⟨_, if_pos ⟨by omega, by decide, by decide⟩, rfl, show leNat (toBytes [1, 0, 0, 0, 0, 0, 0, 0]) = 1 by decide, rfl, rfl⟩

/-- With a device identity of zeros and a signature that verifies, a blob of SEQ 1 is accepted; one of SEQ 0 never is. -/
theorem witness_BlobGood (d : padTo 32 Config.devid = List.replicate 32 0) (h : ∀ k m g, Config.verify k m g = true) (k : Nat) (bs : List Nat) :
    blobGood { base with owned := true } ⟨k, 1, List.replicate 32 0, bs, [], []⟩ = true ∧
    blobGood { base with owned := true } ⟨k, 0, List.replicate 32 0, bs, [], []⟩ = false ∧
    blobGood { base with owned := false } ⟨3, 1, List.replicate 32 0, bs, [], []⟩ = true := by
  have z : base.seqCtr = 0 := by decide +kernel
  refine ⟨?_, ?_, ?_⟩ <;> simp [blobGood, d, h, z]

def entry0 : Nat := 1 + 3 * 2 ^ 5 + 1 * 2 ^ 8 + 16 * 2 ^ 16 + 4096 * 2 ^ 48
theorem witness_PartSet : setGood (entry0 :: List.replicate 7 0) = true ∧ setGood ((entry0 + 2) :: List.replicate 7 0) = false ∧
    setGood (entry0 :: entry0 :: List.replicate 6 0) = false ∧
    (∃ i c, i < 8 ∧ 0 ≠ (wget (signing 0 0 id).parts i).toNat ∧ c ∈ (signing 0 0 id).ctxs ∧ c.1 / 64 = i) := by
  refine ⟨by decide +kernel, by decide +kernel, by decide +kernel, 0, (0, ⟨0, 0, 0, 0, 0, 0, 0⟩), ?_⟩
  decide +kernel

/-- an idle context alone, and one beside another -/
theorem witness_Lone : (let s := signing 0 0 id
     (∀ c ∈ s.ctxs, c.1 = 0 * 64 + 0) ∧ ctxIdle s 0 0 = true) ∧
    (let s := signing 0 0 fun s => { s with ctxs := s.ctxs ++ [(1, ⟨0, 0, 0, 0, 0, 0, 0⟩)] }
     ¬((∀ c ∈ s.ctxs, c.1 = 0 * 64 + 0) ∧ ctxIdle s 0 0 = true)) := by decide +kernel

theorem witness_Resets :
    (risesFrom 0 [((1 : Nat), (⟨true, true, 0, 4⟩ : KeySlot)), (2, ⟨true, false, 1, 5⟩)] = true ∧ State.reset.phase = .hold ∧ base.phase ≠ .hold) ∧
    loadImage State.reset 1 = (logRas (logRas State.reset 8 374 0 0 63) 8 374 1 0 63, false) ∧
    ({ base with phase := .train }.phase = .train ∧ { base with phase := .clear }.phase = .clear ∧ portPart { base with parts := [(0, 1 + 1 * 2 ^ 64)] } 0 < 8) ∧
    (∃ g, flMode { base with hbmctl := [(0, 1 * 2 ^ 32)] } g ≠ 0) ∧ risesFrom 0 (withWqs { restingQueue 2 with en := true }).wqs = true := by
  refine ⟨?_, ?_, ?_, ⟨0, ?_⟩, ?_⟩ <;> decide +kernel

theorem witness_FastLayerOff :
    let s := { base with hbmctl := (List.range 8).map fun g => (g, 1 * 2 ^ 32), memKey := [(2 ^ 34 - 1, 1)] }
    (∀ g, g < 8 → flMode s g ≠ 0) ∧ ∀ x ∈ s.memKey, x.1 < 2 ^ 34 := by decide +kernel

/-- a queue cut in a WRITE_SIGNAL under way, one that waits at a NOP -/
theorem witness_Resets_cut :
    (∀ x ∈ ([(2, true), (7, true), (10, true), (0, false)] : List (Nat × Bool)),
      let s := withWqs { restingQueue 2 with en := true, busy := true, lines := [⟨0, 0x200, natLe 8 x.1 ++ List.replicate 56 0, 0⟩] }
      let w := s.wq 3
      s.phase = .ready ∧ w.en = true ∧ w.busy = true ∧ (leNat (commandBytes w w.depth w.here 1) = x.1) ∧ (x.1 ∈ [2, 7, 10] ↔ x.2 = true)) := by
  decide +kernel

def erred (l : RasLog) : State := manageable fun s => { s with raslogs := [(0, l)] }
def rec0 : RasRec := ⟨0, 0x40, 1, 63, 0, 5, 256⟩

theorem witness_Errors :
    (let s := erred ⟨0, 1, 0, [(0, rec0)]⟩
     let l : RasLog := ⟨0, 1, 0, [(0, rec0)]⟩
     (wget s.parts 0).toNat % 2 = 1 ∧ tget s.raslogs 0 = some l ∧ l.head < l.tail ∧ tget l.recs ((l.tail - 1) % 256) = some rec0 ∧ 256 / 64 ≠ 5 ∧
     (rec0.code = 256 ∧ rec0.inst = 5 ∧ rec0.addr = BitVec.ofNat 64 0x40) ∧ l.tail - l.head ≠ 256) ∧
    (let l : RasLog := ⟨0, 256, 0, [(255, rec0)]⟩
     tget l.recs ((l.tail - 1) % 256) = some rec0 ∧ l.tail - l.head = 256) ∧
    ((353 : Nat) / 64 = 5 ∧ 353 % 8 = 1 ∧ 353 / 8 % 8 = 4 ∧ 345 % 8 = 1 ∧ 345 / 8 % 8 = 3 ∧ 345 / 64 = 5 ∧ 322 % 8 = 2 ∧ 322 / 64 = 5) ∧
    (let s := { erred ⟨0, 0, 0, []⟩ with blocks := [(0, base.block)], wqs := [(3, { restingQueue 2 with en := true, ctx := 0 })] }
     let k := setBase 5 (0x2000 / 128)
     findWay (withLine s (page0 0x2000) 0) (homeSlice s (page0 0x2000)) (0x2000 / 128) = some (setBase (homeSlice s (page0 0x2000)) (0x2000 / 128)) ∧ k = k ∧
     risesFrom 0 s.teams = true ∧ risesFrom 0 s.blocks = true ∧ s.block.part = 0 ∧ s.block.ctx = 0 ∧ s.block.retired = false ∧
     s.team.status = .running ∧ risesFrom 0 s.wqs = true) := by decide +kernel

theorem witness_Errors_core :
    (let s := { erred ⟨0, 0, 0, []⟩ with teams := [(0, { base.team with status := .exited }), (1024, base.team)] }
     (∀ t ∈ s.teams, t.1 / 1024 = 0 → t.2.status ≠ .running) ∧ 321 / 64 = 5) ∧
    (let s := manageable fun s => { s with raslogs := [(0, ⟨0, 0, 0, []⟩)], teams := [(0, base.team)], blocks := [(0, base.block), (1, { base.block with ctx := 1 })] }
     (tget s.blocks 1).map Block.ctx = some 1 ∧ (tget s.teams 0).map Team.status = some .running) := by decide +kernel

/-! ### The whole machine -/

/-- the packet of one word of a team: the other two slots hold NOPs -/
def issuing (w : Nat) (buf : Option (List Nat)) : State := (base.withFetchWord 32 w).modTeam fun t => { t with ibuf := buf }

theorem witness_StepRuns :
    acts State.reset = [] ∧
    (let ws := [0x010420C0, 0, 0]
     let s := issuing 0x010420C0 (some ws)
     acts s = [.team 0 0] ∧
     (match pickTeam (s.withFate .completed) 0 0 with
      | some (k, s0) =>
        let a := ({ s0 with cur := teamUnit k }).withFate .completed
        decide (k = 0 ∧ a.team.ibuf = some ws ∧ (chainAt ws a.team.slot).map Issue.instr = [.sadd 1 2 3] ∧
          (chainAt ws a.team.slot).map Issue.slot = [a.team.slot])
      | none => false) = true) ∧
    (let s := issuing 0x010420C0 none
     let ws := [0x010420C0, 0, 0]
     acts s = [.team 0 0] ∧
     (match pickTeam (s.withFate .completed) 0 0 with
      | some (k, s0) =>
        let a := ({ s0 with cur := teamUnit k }).withFate .completed
        let b := a.modTeam fun t => { t.settle with fpnew := 0 }
        let c := (fetchPages b ((b.block.kern.code + b.team.pkt * 12) % 2 ^ 64)).1
        let d := dropMisses c (requester b.cur)
        (match (fetchPages b ((b.block.kern.code + b.team.pkt * 12) % 2 ^ 64)).2 with
         | .ok _ => true
         | _ => false) &&
        decide (a.team.ibuf = none ∧ b.team.priv = false ∧ b.team.tinj = none ∧ b.team.halt = false ∧ (b.team.skip = false → breakAt b.team 0 b.team.pkt = false) ∧
          b.team.pkt < b.block.kern.npkt ∧ ws = packetWords (mread b.block.kern.image (b.team.pkt * 12) 12) ∧ d.team.slot = 0 ∧
          inPool d d.team.pkt ws = false ∧ (checkPacket d ws).isOk = true)
      | none => false) = true ∧
     (match decodeAt 0 (ws.getD 0 0) (ws.drop 1) with
      | .ok i => decide (i.instr = .sadd 1 2 3) && !i.chain
      | .error _ => false) = true) ∧
    (let s := { State.reset with inputs := [.coldReset] }
     acts s = [.input] ∧ s.inputs = .coldReset :: []) := by decide +kernel

/-- a coachman alone, a word in front of it -/
theorem witness_StepRuns_coach :
    let w := (encode false (.mlop 3 1)).headD 0
    let s := { coached (fun c => { c with ibuf := some [w] }) with teams := [] }
    ∃ k, acts s = [.coach k] ∧
      (match decodeCoachFrom 3 0 [w] with
       | .ok is => (is.find? fun j => j.slot == 0).isSome
       | .error _ => false) = true := ⟨0, by decide +kernel⟩

theorem witness_Encoded : (Instr.sadd 63 2 3).wf = true ∧ (∃ f x, (Instr.sadd 63 2 3).enc = .team f x) ∧ (Instr.faddLong ⟨4, 1, 2, 3, 0⟩ 1).wf = true ∧
    (Instr.mlop 3 1).wf = true ∧ ∃ o b p, (Instr.mlop 3 1).enc = .coach o b p :=
  ⟨by decide, ⟨_, _, rfl⟩, by decide, by decide, _, _, _, rfl⟩

theorem witness_Invariants : Memory.wf base.mem = true ∧ (∃ t, step State.reset = .next t) ∧
    (base.owned = true → base.ownerKh = sha256 base.ownerKey) ∧ (base.owned = false → base.ownerKh = [] ∧ base.ownerKey = []) := by
  refine ⟨by decide +kernel, ?_, by decide +kernel, by decide +kernel⟩
  have h : (match step State.reset with
    | .next _ => true
    | _ => false) = true := by decide +kernel
  revert h
  generalize step State.reset = r
  cases r with
  | next t => exact fun _ => ⟨t, rfl⟩
  | fault _ => intro h; cases h
  | refused _ => intro h; cases h

/-! ## Results of the manual's worked examples -/

/-- lane 0 alone, with three vector operands in registers 1 to 3 -/
def three (a b c : Word) : State := withTeam fun t => { t with mask := 1, vregs := [(1024, a), (2048, b), (3072, c)] }
/-- register r of lane i as the team holds it -/
def lane (s : State) (r i : Nat) : Word := wget s.team.vregs (r * 1024 + i)

-- 07 R114: fused and separate rounding
theorem test_fmul_rounds : let s := after (.fmul ⟨9, 1, 2, 15, 0⟩) (three 0x3F800001 0x3F800003 0)
    lane s 9 0 = 0x3F800004 ∧ s.team.fpflags = 16 := by decide +kernel
theorem test_fadd_exact : let s := after (.fadd ⟨11, 1, 2, 15, 0⟩) (three 0x3F800004 0xBF800000 0)
    lane s 11 0 = 0x35000000 ∧ s.team.fpflags = 0 := by decide +kernel
theorem test_ffma_fuses : let s := after (.ffma ⟨10, 1, 2, 15, 0⟩ 3 7) (three 0x3F800001 0x3F800003 0xBF800000)
    lane s 10 0 = 0x35000001 ∧ s.team.fpflags = 16 := by decide +kernel
-- 07 R110: VDOT4 in two lanes
theorem test_vdot4_saturates : lane (after (.vdot4 ⟨6, 1, 2, 15, 2⟩ 3 true) (three 0x7F7F7F7F 0x7F7F7F7F 0x7FFFF000)) 6 0 = 0x7FFFFFFF := by
  decide +kernel
theorem test_vdot4_wraps : lane (after (.vdot4 ⟨6, 1, 2, 15, 2⟩ 3 false) (three 0x7F7F7F7F 0x7F7F7F7F 0x7FFFF000)) 6 0 = 0x8000EC04 ∧
    lane (after (.vdot4 ⟨6, 1, 2, 15, 2⟩ 3 true) (three 0x7F80FF02 0x7F7F0103 5)) 6 0 = 0xFFFFFF8B := by decide +kernel

/-- lanes 0 to 3 with V[1] of R132's example -/
def four : State := withTeam fun t => { t with mask := 15, vregs := [(1024, 0x4B800000), (1025, 0x3F800000), (1026, 0xCB800000), (1027, 0x3F800000)] }

-- 08 R132: an exact sum rounded once, prefix by prefix
theorem test_fred_exact : let s := after (.fred ⟨2, 1, 15, 0⟩ 0) four
    lane s 2 0 = 0x40000000 ∧ lane s 2 3 = 0x40000000 ∧ s.team.fpflags = 0 := by decide +kernel
theorem test_fscn_prefixes : let s := after (.fscn ⟨3, 1, 15, 0⟩ 0) four
    lane s 3 0 = 0x4B800000 ∧ lane s 3 1 = 0x4B800000 ∧ lane s 3 2 = 0x3F800000 ∧ lane s 3 3 = 0x40000000 ∧ s.team.fpflags = 16 := by
  decide +kernel

/-- two sections of 32 lanes with P[1] in the lanes below 40 -/
def sections : State :=
  { withTeam (fun t => { t with mask := 2 ^ 64 - 1, pregs := [(1, 2 ^ 40 - 1)] }) with blocks := [(0, { base.block with w := 32, lanes := 64 })] }

-- 06 R101: mask state through the example
theorem test_mpush_splits : (after (.mpush 1) sections).team.mask = 2 ^ 40 - 1 ∧
    (after (.mpush 1) sections).team.mstack = [⟨2 ^ 64 - 1, 2 ^ 64 - 2 ^ 40⟩] := by decide +kernel
theorem test_melse_flips : (after .melse { sections with teams := (after (.mpush 1) sections).teams }).team.mask = 2 ^ 64 - 2 ^ 40 := by
  decide +kernel

end Sys2Proof.Tests
end

section
/-! ## What accesses at the home slices leave alone -/
namespace Sys2Proof.Machine

/-- A fold whose every step keeps what f sees keeps it. -/
theorem foldl_keeps {α β γ : Type} (f : α → γ) {op : α → β → α} (h : ∀ a b, f (op a b) = f a) (l : List β) (a : α) :
    f (l.foldl op a) = f a := by
  induction l generalizing a with
  | nil => rfl
  | cons b l ih => exact (ih (op a b)).trans (h a b)

/-- All of the package but what an access at a home slice may change: HBM, the slices' lines and pending reduce-adds, the flags of the jobs
that wait for them, and the logs. -/
def State.besideHomes (s : State) : State :=
  { s with mem := [], memPois := [], memKey := [], l2 := [], redbuf := [], redOvf := [], jobs := [], raslogs := [] }

theorem writeBackLine_besideHomes (s : State) (l : Line) : (writeBackLine s l).besideHomes = s.besideHomes :=
  foldl_keeps _ (fun s j => by split <;> rfl) _ _

theorem hearFlags_besideHomes (s : State) (r : RedPend) (a : LaneAtom) : (hearFlags s r a).besideHomes = s.besideHomes := by
  unfold hearFlags; split <;> rfl

theorem applyRed_besideHomes (s : State) (slice line : Nat) (r : RedPend) : (applyRed s slice line r).besideHomes = s.besideHomes := by
  unfold applyRed
  split
  · rfl
  · refine (foldl_keeps _ (fun u a => ?_) _ _).trans ?_
    · split <;> rfl
    · split
      · rfl
      · refine foldl_keeps _ (fun u a => ?_) _ _
        split
        · rfl
        · exact hearFlags_besideHomes _ _ _

theorem settleRed_besideHomes (s : State) (slice line a n : Nat) : (settleRed s slice line a n).besideHomes = s.besideHomes := by
  have hfold : ∀ (rs : List RedPend) (u : State), (rs.foldl (fun s r => applyRed s slice line r) u).besideHomes = u.besideHomes :=
    foldl_keeps _ fun u r => applyRed_besideHomes u slice line r
  unfold settleRed
  dsimp only
  split
  · rfl
  · split
    · exact hfold _ s
    · exact hfold _ s

theorem homeLine_besideHomes (s : State) (slice line own ctxp : Nat) :
    (homeLine s slice line own ctxp).1.besideHomes = s.besideHomes := by
  unfold homeLine
  split
  · split
    · split
      · rfl
      · dsimp only
        split
        · exact (writeBackLine_besideHomes _ _).trans (settleRed_besideHomes s _ _ _ _)
        · exact settleRed_besideHomes s _ _ _ _
    · rfl
  · dsimp only
    split
    · exact writeBackLine_besideHomes s _
    · rfl

theorem homeFor_besideHomes (s : State) (l : Loc) (own n : Nat) : (homeFor s l own n).1.besideHomes = s.besideHomes :=
  (settleRed_besideHomes _ _ _ _ _).trans (homeLine_besideHomes _ _ _ _ _)

theorem homeRead_besideHomes (s : State) (l : Loc) (own n : Nat) : (homeRead s l own n).1.besideHomes = s.besideHomes :=
  foldl_keeps (fun r : State × List Byte × Bool => r.1.besideHomes) (fun r _ => homeFor_besideHomes r.1 _ _ _) _ _

theorem homeNat_besideHomes (s : State) (l : Loc) (own n : Nat) : (homeNat s l own n).1.besideHomes = s.besideHomes :=
  homeRead_besideHomes s l own n

theorem homeWrite_besideHomes (s : State) (l : Loc) (own : Nat) (bs : List Byte) :
    (homeWrite s l own bs).besideHomes = s.besideHomes :=
  foldl_keeps (fun r : State × List Byte => r.1.besideHomes) (fun r _ => homeFor_besideHomes r.1 _ _ _) _ _

theorem fabricEntry_besideHomes (s : State) (part k idx n : Nat) : (fabricEntry s part k idx n).1.besideHomes = s.besideHomes :=
  homeNat_besideHomes s _ _ _

theorem hostWindow_besideHomes (s : State) (part ctx win : Nat) : (hostWindow s part ctx win).1.besideHomes = s.besideHomes :=
  fabricEntry_besideHomes s _ _ _ _

theorem walkFrom_besideHomes (s : State) (part ctx inst va fuel n table : Nat) :
    (walkFrom s part ctx inst va false fuel n table).1.besideHomes = s.besideHomes := by
  induction fuel generalizing s n table with
  | zero => rfl
  | succ fuel ih =>
    have hread := homeNat_besideHomes s (chipLoc part ctx ((table + 8 * walkIndex va n) / 128 * 128)) (s.owner part) 128
    rw [walkFrom]
    dsimp only
    generalize homeNat s (chipLoc part ctx ((table + 8 * walkIndex va n) / 128 * 128)) (s.owner part) 128 = r at hread ⊢
    split
    · exact hread
    · split
      · exact hread
      · split
        · split
          · exact hread
          · exact (ih _ _ _).trans hread
        · split
          · exact hread
          · exact hread

theorem walk_besideHomes (s : State) (part ctx inst va : Nat) : (walk s part ctx inst va).1.besideHomes = s.besideHomes :=
  walkFrom_besideHomes s part ctx inst va 4 0 _

theorem checkLeaf_besideHomes (s : State) (part ctx e pbits va : Nat) (n : Need) :
    (checkLeaf s part ctx e pbits va n).1.besideHomes = s.besideHomes := by
  unfold checkLeaf
  dsimp only
  split
  · rfl
  · split
    · rfl
    · split
      · split
        · dsimp only
          exact hostWindow_besideHomes s part ctx _
        · split
          · dsimp only
            exact hostWindow_besideHomes s part ctx _
          · dsimp only
            exact hostWindow_besideHomes s part ctx _
      · rfl

theorem ctxRange_besideHomes (s : State) (part ctx va n : Nat) (need : Need) :
    (ctxRange s part ctx va n need).1.besideHomes = s.besideHomes := by
  unfold ctxRange
  split
  · rfl
  · refine foldl_keeps (fun r : State × Option Nat × List (Loc × Nat) => r.1.besideHomes) (fun r a => ?_) _ _
    dsimp only
    split
    · rfl
    · have hwalk := walk_besideHomes r.1 part ctx 0 a
      split
      · exact hwalk
      · split <;> exact (checkLeaf_besideHomes _ _ _ _ _ _ _).trans hwalk

/-! ## What leaves a core or the package leaves alone -/

/-- All of the package but what sending may change beside the homes: requests and accesses under way with their numbers, the ports, what
has left, and a core's L1. -/
def State.besideSends (s : State) : State :=
  { s.besideHomes with
    nextOp := 0, nextStamp := 0, reqs := [], remotes := [], unsent := [], outbox := [], ports := [], reqNum := [], l1 := [] }

theorem besideSends_of_besideHomes {s t : State} (h : t.besideHomes = s.besideHomes) : t.besideSends = s.besideSends := by
  rw [State.besideSends, State.besideSends, h]

theorem routesTo_besideSends (s : State) (part dst : Nat) : (routesTo s part dst).1.besideSends = s.besideSends := by
  refine foldl_keeps (fun r : State × List Nat => r.1.besideSends) (fun r p => ?_) _ _
  dsimp only
  split
  · exact besideSends_of_besideHomes (fabricEntry_besideHomes r.1 _ _ _ _)
  · rfl

theorem sendFrame_besideSends (s : State) (part dst : Nat) (m : OutMsg) : (sendFrame s part dst m).besideSends = s.besideSends := by
  have hroutes := routesTo_besideSends s part dst
  unfold sendFrame
  generalize routesTo s part dst = r at hroutes ⊢
  dsimp only
  split <;> exact hroutes

theorem sendPeer_besideSends (s : State) (part ctx core dst owner id : Nat) (op : PeerOp) :
    (sendPeer s part ctx core dst owner id op).besideSends = s.besideSends := by
  unfold sendPeer
  exact (sendFrame_besideSends _ _ _ _).trans rfl

theorem sendHost_besideSends (s : State) (l : Loc) (owner id : Nat) (data : Option (List Byte)) (n : Nat) :
    (sendHost s l owner id data n).besideSends = s.besideSends := by
  have hwindow := besideSends_of_besideHomes (hostWindow_besideHomes s l.part l.ctx l.dest)
  unfold sendHost
  generalize hostWindow s l.part l.ctx l.dest = r at hwindow ⊢
  dsimp only
  split <;> exact hwindow

theorem sendReq_besideSends (s : State) (op : Nat) (u : UnitId) (own : Nat) (l : Loc) (kind : ReqKind) (va org : Nat) :
    (sendReq s op u own l kind va org).besideSends = s.besideSends := by
  unfold sendReq
  dsimp only
  split
  · rfl
  · split
    · exact (sendPeer_besideSends _ _ _ _ _ _ _ _).trans rfl
    · split
      · exact (sendHost_besideSends _ _ _ _ _ _).trans rfl
      · exact (foldl_keeps _ (fun u r => sendHost_besideSends u _ _ _ _ _) _ _).trans rfl
      · rfl
      · rfl

theorem noFill_besideSends (s : State) (core : Nat) (p : Loc → Bool) : (noFill s core p).besideSends = s.besideSends := rfl
theorem l1Drop_besideSends (s : State) (core : Nat) (l : Loc) : (l1Drop s core l).besideSends = s.besideSends := rfl
theorem l1Put_besideSends (s : State) (x : L1Sector) : (l1Put s x).besideSends = s.besideSends := rfl

theorem writeBackSector_besideSends (s : State) (x : L1Sector) : (writeBackSector s x).besideSends = s.besideSends := by
  unfold writeBackSector
  split
  · rfl
  · dsimp only
    split
    · exact (l1Put_besideSends _ _).trans ((noFill_besideSends _ _ _).trans (sendReq_besideSends s _ _ _ _ _ _ _))
    · exact (l1Drop_besideSends _ _ _).trans ((noFill_besideSends _ _ _).trans (sendReq_besideSends s _ _ _ _ _ _ _))

theorem flushL1_besideSends (s : State) (p : L1Sector → Bool) : (flushL1 s p).besideSends = s.besideSends :=
  foldl_keeps _ writeBackSector_besideSends _ _

theorem writePieces_besideSends (s : State) (ps : List (Loc × Nat)) (owner id : Nat) (bs : List Byte) :
    (writePieces s ps owner id bs).besideSends = s.besideSends := by
  refine foldl_keeps (fun r : State × List Byte => r.1.besideSends) (fun r p => ?_) _ _
  dsimp only
  split
  · exact besideSends_of_besideHomes (homeWrite_besideHomes _ _ _ _)
  · split
    · exact sendPeer_besideSends _ _ _ _ _ _ _ _
    · exact sendHost_besideSends _ _ _ _ _ _

theorem ctxWrite_besideSends (s : State) (part ctx va : Nat) (bs : List Byte) : (ctxWrite s part ctx va bs).besideSends = s.besideSends := by
  have hrange := besideSends_of_besideHomes (ctxRange_besideHomes s part ctx va bs.length ⟨false, true, false⟩)
  unfold ctxWrite
  dsimp only
  split
  · exact (writePieces_besideSends _ _ _ _ _).trans hrange
  · exact hrange

/-! ## Stash lines going home -/

/-- All of the package but what a write-back of stash lines may change: beside what sending changes, the blocks' marks of dirty bytes. -/
def State.besideFlush (s : State) : State := { s.besideSends with blocks := [] }

theorem besideFlush_of_besideSends {s t : State} (h : t.besideSends = s.besideSends) : t.besideFlush = s.besideFlush := by
  rw [State.besideFlush, State.besideFlush, h]

theorem modBlockAt_besideFlush (s : State) (key : Nat) (f : Block → Block) : (s.modBlockAt key f).besideFlush = s.besideFlush := by
  unfold State.modBlockAt; split <;> rfl

theorem writeBackStash_besideFlush (s : State) (key slot k : Nat) (p : Nat → Bool) :
    (writeBackStash s key slot k p).besideFlush = s.besideFlush := by
  unfold writeBackStash
  split
  · rfl
  · split
    · rfl
    · dsimp only
      refine (modBlockAt_besideFlush _ _ _).trans ?_
      split
      · split
        · rfl
        · exact besideFlush_of_besideSends (sendReq_besideSends s _ _ _ _ _ _ _)
      · rfl

theorem flushSlot_besideFlush (s : State) (key slot : Nat) : (flushSlot s key slot).besideFlush = s.besideFlush := by
  unfold flushSlot
  split
  · rfl
  · exact foldl_keeps _ (fun u k => writeBackStash_besideFlush u key slot k _) _ _

theorem flushStash_besideFlush (s : State) (key : Nat) : (flushStash s key).besideFlush = s.besideFlush := by
  unfold flushStash
  split
  · rfl
  · exact foldl_keeps _ (fun u e => flushSlot_besideFlush u key _) _ _

/-! ## Paddocks detached -/

/-- All of the package but what detaching paddocks may change: beside what a flush changes, the registry, and the operations that waited with
the teams they belong to. -/
def State.besidePads (s : State) : State := { s.besideFlush with paddocks := [], ops := [], teams := [] }

theorem besidePads_of_besideFlush {s t : State} (h : t.besideFlush = s.besideFlush) : t.besidePads = s.besidePads := by
  rw [State.besidePads, State.besidePads, h]

theorem padDetach_besidePads (s : State) (key name : Nat) : (padDetach s key name).besidePads = s.besidePads := by
  unfold padDetach
  split
  · rfl
  · dsimp only
    generalize hr : s.modBlockAt key _ = r
    have hmod : r.besidePads = s.besidePads := hr ▸ besidePads_of_besideFlush (modBlockAt_besideFlush s key _)
    split <;> exact hmod

theorem modUnit_besidePads (s : State) (u : UnitId) (f : Team → Team) : (s.modUnit u f).besidePads = s.besidePads := by
  unfold State.modUnit
  split
  · rfl
  · split <;> rfl

theorem modOp_besidePads (s : State) (id : Nat) (f : Op → Op) : (modOp s id f).besidePads = s.besidePads := by
  unfold modOp; split <;> rfl

theorem endOp_besidePads (s : State) (id : Nat) : (endOp s id).besidePads = s.besidePads := by
  unfold endOp
  split
  · rfl
  · dsimp only
    split <;> exact modUnit_besidePads _ _ _

theorem padMap_besidePads (s : State) (key off : Nat) (p : Paddock) : (padMap s key off p).besidePads = s.besidePads :=
  (besidePads_of_besideFlush (modBlockAt_besideFlush s key _) :)

theorem padAttachEnd_besidePads (s : State) (id : Nat) (o : Op) (x off : Nat) (p : Paddock) (bad : Option Nat) :
    (padAttachEnd s id o x off p bad).besidePads = s.besidePads := by
  unfold padAttachEnd
  refine (endOp_besidePads _ _).trans ((modOp_besidePads _ _ _).trans ?_)
  split
  · rfl
  · exact (modUnit_besidePads _ _ _).trans (padMap_besidePads _ _ _ _)

theorem padStir_besidePads (part name fuel : Nat) (s : State) : (padStir part name fuel s).besidePads = s.besidePads := by
  induction fuel generalizing s with
  | zero => rfl
  | succ fuel ih =>
    rw [padStir]
    split
    · rfl
    · split
      · rfl
      · split
        · split
          · rfl
          · exact ih _
        · split
          · split
            · exact modOp_besidePads s _ _
            · split
              · exact (ih _).trans ((padAttachEnd_besidePads _ _ _ _ _ _ _).trans (modOp_besidePads s _ _))
              · rfl
          · split
            · exact (ih _).trans (endOp_besidePads _ _)
            · rfl
          · rfl

end Sys2Proof.Machine
end

section
namespace Sys2Proof.Machine

/-! ## Slots, counts and events of a core -/

/-- All of the package but the blocks, the graphs' counts and the cores' registers. -/
def State.besideSlots (s : State) : State := { s with blocks := [], graphs := [], cores := [] }

@[simp] theorem modCore_besideSlots (s : State) (c : Nat) (f : Core → Core) : (s.modCore c f).besideSlots = s.besideSlots := rfl
@[simp] theorem modCore_blocks (s : State) (c : Nat) (f : Core → Core) : (s.modCore c f).blocks = s.blocks := rfl
@[simp] theorem modCore_graphs (s : State) (c : Nat) (f : Core → Core) : (s.modCore c f).graphs = s.graphs := rfl
@[simp] theorem freeSlot_besideSlots (s : State) (key : Nat) : (freeSlot s key).besideSlots = s.besideSlots := rfl
@[simp] theorem freeSlot_graphs (s : State) (key : Nat) : (freeSlot s key).graphs = s.graphs := rfl

theorem tget_freeSlot (s : State) (key : Nat) : tget (freeSlot s key).blocks key = none := by
  simp [freeSlot, tget_tdel]

theorem freeSlot_evalDue (s : State) (key : Nat) : ((freeSlot s key).core (key / 16)).evalDue = true := by simp [freeSlot]

/-- A change of a core's registers that leaves its events leaves those of every core. -/
theorem modCore_events (s : State) (c d : Nat) {f : Core → Core} (h : (f (s.core c)).events = (s.core c).events) :
    ((s.modCore c f).core d).events = (s.core d).events := by
  by_cases hd : d = c
  · subst hd; rw [State.modCore_core, h]
  · rw [State.modCore_core_ne _ _ _ _ hd]

@[simp] theorem freeSlot_events (s : State) (key d : Nat) : ((freeSlot s key).core d).events = (s.core d).events :=
  modCore_events { s with blocks := tdel s.blocks key } _ _ rfl

theorem returnClaim_besideSlots (s : State) (gs n k : Nat) : (returnClaim s gs n k).besideSlots = s.besideSlots := by
  unfold returnClaim; split <;> rfl

@[simp] theorem dropInflight_besideSlots (s : State) (gs n : Nat) : (dropInflight s gs n).besideSlots = s.besideSlots :=
  returnClaim_besideSlots s gs n 1

@[simp] theorem dropInflight_blocks (s : State) (gs n : Nat) : (dropInflight s gs n).blocks = s.blocks := by
  simp only [dropInflight, returnClaim]; split <;> rfl

/-- Refused claims apart, no core changes. -/
theorem dropInflight_core (s : State) (gs n c : Nat) :
    (dropInflight s gs n).core c = { s.core c with excluded := (s.core c).excluded.filter fun e => e != (gs, n) } := by
  have hcores : (returnClaim s gs n 1).cores = s.cores := by unfold returnClaim; split <;> rfl
  simp only [dropInflight, State.core, hcores, tget_map s.cores fun _ c => { c with excluded := c.excluded.filter fun e => e != (gs, n) }]
  cases tget s.cores c <;> rfl

/-- One block of the stage less is in flight (R29). -/
theorem tget_dropInflight {s : State} {gs n : Nat} {g : Graph} (h : tget s.graphs gs = some g) :
    tget (dropInflight s gs n).graphs gs = some { g with inflight := tset g.inflight n (stageInflight g n - 1) } := by
  simp [dropInflight, returnClaim, h, tget_tset_self]

theorem exists_tget_dropInflight {s : State} {gs n : Nat} {g : Graph} (h : tget s.graphs gs = some g) :
    ∃ g', tget (dropInflight s gs n).graphs gs = some g' ∧ (tget g'.inflight n).getD 0 = (tget g.inflight n).getD 0 - 1 :=
  ⟨_, tget_dropInflight h, by simp [tget_tset_self, stageInflight]⟩

/-! ## A block retires (R29, R33) -/

theorem padStirAll_besidePads (s : State) (part name : Nat) : (padStirAll s part name).besidePads = s.besidePads :=
  padStir_besidePads part name 4096 s

theorem closeRegs_besideHomes (s : State) (part ctx key : Nat) : (closeRegs s part ctx key).besideHomes = s.besideHomes := by
  refine foldl_keeps _ (fun u i => ?_) _ _
  dsimp only
  split
  · exact homeWrite_besideHomes _ _ _ _
  · rfl

/-- What a retiring block and its core hold has gone home. -/
def retireFlushed (s : State) (key : Nat) : State := flushStash (flushL1 s fun x => x.core == key / 16) key

/-- Its paddocks are detached and its registrations closed. -/
@[irreducible] def retireDetached (s : State) (key : Nat) (b : Block) : State :=
  closeRegs (b.attached.foldl (fun s a => padStirAll (padDetach s key a.name) b.part a.name) (retireFlushed s key)) b.part b.ctx key

/-- The completion event of a retiring block as its core holds it: with its slot when the buffer is full. -/
def retireEvent (key : Nat) (b : Block) (g : Graph) (full : Bool) : HeldEvent :=
  ⟨b.part, b.ctx, b.gslot, b.stage, key, full, false, g.evq, eventWord key b⟩

/-- The units of a block are gone, what they left under way is no one's, and their flits fl stand in the core. -/
def unitsCleared (s : State) (key : Nat) (fl : List (Nat × Nat × BitVec 128)) : State :=
  { s with
    teams := s.teams.filter fun t => t.1 / 64 != key
    coaches := tdel s.coaches key
    barriers := s.barriers.filter fun x => !(decide (2 ^ 40 + key * 16 ≤ x.1) && decide (x.1 < 2 ^ 40 + key * 16 + 16))
    ops := s.ops.map (orphanOp key)
    reqs := s.reqs.map (orphanReq key)
    jobs := s.jobs.map (orphanJob key)
    l1 := s.l1.map (orphanSector key) }.modCore (key / 16) fun c => { c with flits := c.flits ++ fl }

/-- A block whose units are cleared leaves its slot, or keeps it with its event while the buffer is full. -/
def slotLeft (s : State) (key : Nat) (b : Block) : State :=
  match tget s.graphs b.gslot with
  | none => freeSlot s key
  | some g =>
    if g.evq = 0 then dropInflight (freeSlot s key) b.gslot b.stage
    else
      let full := decide (16 ≤ bufferUse s (key / 16) b.part b.ctx)
      let u := s.modCore (key / 16) fun c => { c with events := c.events ++ [retireEvent key b g full] }
      if full then { u with blocks := tset u.blocks key { b with retired := true, attached := [], stash := [], launchPads := [] } }
      else freeSlot u key

/-- Retiring in its three parts. The detached state is named and set aside before anything is unfolded, for its 4 096 registrations would
unfold with it. -/
theorem retireBlock_eq :
    retireBlock = fun s key b => slotLeft (unitsCleared (retireDetached s key b) key (leftFlits s key)) key b := by
  delta retireBlock
  funext s key b
  extract_lets +onlyGivenNames core fl flushed detached u
  have hu : retireDetached s key b = u := by unfold retireDetached; rfl
  rw [hu]
  obtain ⟨w, hw⟩ : ∃ w, w = u := ⟨u, rfl⟩
  rw [← hw]
  rfl

theorem retireFlushed_besideFlush (s : State) (key : Nat) : (retireFlushed s key).besideFlush = s.besideFlush :=
  (flushStash_besideFlush _ _).trans (besideFlush_of_besideSends (flushL1_besideSends _ _))

theorem closeRegs_besideFlush (s : State) (part ctx key : Nat) : (closeRegs s part ctx key).besideFlush = s.besideFlush :=
  besideFlush_of_besideSends (besideSends_of_besideHomes (closeRegs_besideHomes s part ctx key))

/-- Paddocks detached in order change no more than a detach does. -/
theorem detachAll_besidePads (s : State) (key part : Nat) (as : List Attached) :
    (as.foldl (fun s a => padStirAll (padDetach s key a.name) part a.name) s).besidePads = s.besidePads :=
  foldl_keeps State.besidePads (fun u a => by rw [padStirAll_besidePads, padDetach_besidePads]) as s

theorem retireDetached_besidePads (s : State) (key : Nat) (b : Block) : (retireDetached s key b).besidePads = s.besidePads := by
  unfold retireDetached
  rw [besidePads_of_besideFlush (closeRegs_besideFlush _ b.part b.ctx key), detachAll_besidePads,
    besidePads_of_besideFlush (retireFlushed_besideFlush s key)]

theorem retireDetached_besideFlush {s : State} {key : Nat} {b : Block} (h : b.attached = []) :
    (retireDetached s key b).besideFlush = s.besideFlush := by
  unfold retireDetached
  rw [closeRegs_besideFlush, h, List.foldl_nil, retireFlushed_besideFlush]

/-! ### The cleared state -/

theorem graphs_of_besidePads {s t : State} (h : t.besidePads = s.besidePads) : t.graphs = s.graphs := (congrArg State.graphs h :)
theorem cores_of_besidePads {s t : State} (h : t.besidePads = s.besidePads) : t.cores = s.cores := (congrArg State.cores h :)
theorem teams_of_besideFlush {s t : State} (h : t.besideFlush = s.besideFlush) : t.teams = s.teams := (congrArg State.teams h :)
theorem spad_of_besideFlush {s t : State} (h : t.besideFlush = s.besideFlush) : t.spad = s.spad := (congrArg State.spad h :)

theorem unitsCleared_graphs (u : State) (key : Nat) (fl : List (Nat × Nat × BitVec 128)) : (unitsCleared u key fl).graphs = u.graphs := rfl
theorem unitsCleared_spad (u : State) (key : Nat) (fl : List (Nat × Nat × BitVec 128)) : (unitsCleared u key fl).spad = u.spad := rfl

theorem unitsCleared_teams (u : State) (key : Nat) (fl : List (Nat × Nat × BitVec 128)) :
    (unitsCleared u key fl).teams = u.teams.filter fun t => t.1 / 64 != key := rfl

theorem unitsCleared_coaches (u : State) (key : Nat) (fl : List (Nat × Nat × BitVec 128)) :
    tget (unitsCleared u key fl).coaches key = none := by
  simp [unitsCleared, State.modCore, tget_tdel]

theorem unitsCleared_events (u : State) (key : Nat) (fl : List (Nat × Nat × BitVec 128)) (c : Nat) :
    ((unitsCleared u key fl).core c).events = (u.core c).events :=
  modCore_events { u with
    teams := _, coaches := _, barriers := _, ops := _, reqs := _, jobs := _, l1 := _ } (key / 16) c rfl

/-- The state in which a retiring block's units have gone. -/
def retireCleared (s : State) (key : Nat) (b : Block) : State := unitsCleared (retireDetached s key b) key (leftFlits s key)

theorem retireCleared_graphs (s : State) (key : Nat) (b : Block) : (retireCleared s key b).graphs = s.graphs :=
  (unitsCleared_graphs _ _ _).trans (graphs_of_besidePads (retireDetached_besidePads s key b))

theorem retireCleared_events (s : State) (key : Nat) (b : Block) (c : Nat) :
    ((retireCleared s key b).core c).events = (s.core c).events := by
  have hcores : (retireDetached s key b).cores = s.cores := cores_of_besidePads (retireDetached_besidePads s key b)
  rw [retireCleared, unitsCleared_events, State.core, hcores, State.core]

theorem retireCleared_teams (s : State) (key : Nat) (b : Block) : ∀ x ∈ (retireCleared s key b).teams, x.1 / 64 ≠ key := by
  intro x hx
  rw [retireCleared, unitsCleared_teams] at hx
  simpa using (List.mem_filter.1 hx).2

/-- With no paddock to detach no other team and no byte of a scratchpad changes. -/
theorem retireCleared_others {s : State} {key : Nat} {b : Block} (h : b.attached = []) :
    (∀ x ∈ s.teams, x.1 / 64 ≠ key → x ∈ (retireCleared s key b).teams) ∧ (retireCleared s key b).spad = s.spad := by
  have hteams : (retireDetached s key b).teams = s.teams := teams_of_besideFlush (retireDetached_besideFlush h)
  have hspad : (retireDetached s key b).spad = s.spad := spad_of_besideFlush (retireDetached_besideFlush h)
  rw [retireCleared, unitsCleared_teams, unitsCleared_spad, hteams, hspad]
  exact ⟨fun x hx hk => List.mem_filter.2 ⟨hx, by simpa using hk⟩, rfl⟩

/-- What a state holds in which a block's units have gone, of the state before: its coachman and teams are gone, the graphs and the cores' events
stand, and with no paddock to detach so do the other teams and the scratchpad. -/
structure UnitsGone (s u : State) (key : Nat) (b : Block) : Prop where
  graphs : u.graphs = s.graphs
  events : ∀ c, (u.core c).events = (s.core c).events
  coach : tget u.coaches key = none
  teams : ∀ x ∈ u.teams, x.1 / 64 ≠ key
  others : b.attached = [] → (∀ x ∈ s.teams, x.1 / 64 ≠ key → x ∈ u.teams) ∧ u.spad = s.spad

theorem unitsGone_retireCleared (s : State) (key : Nat) (b : Block) : UnitsGone s (retireCleared s key b) key b where
  graphs := retireCleared_graphs s key b
  events := retireCleared_events s key b
  coach := unitsCleared_coaches (retireDetached s key b) key (leftFlits s key)
  teams := retireCleared_teams s key b
  others := retireCleared_others

theorem UnitsGone.bufferUse {s u : State} {key : Nat} {b : Block} (h : UnitsGone s u key b) (core part ctx : Nat) :
    bufferUse u core part ctx = bufferUse s core part ctx := by
  rw [Machine.bufferUse, Machine.bufferUse, h.events]

theorem units_of_besideSlots {s t : State} (h : t.besideSlots = s.besideSlots) :
    t.teams = s.teams ∧ t.coaches = s.coaches ∧ t.spad = s.spad :=
  ⟨(congrArg State.teams h :), (congrArg State.coaches h :), (congrArg State.spad h :)⟩

theorem memory_of_besideSlots {s t : State} (h : t.besideSlots = s.besideSlots) : t.mem = s.mem ∧ t.l2 = s.l2 ∧ t.teams = s.teams :=
  ⟨(congrArg State.mem h :), (congrArg State.l2 h :), (congrArg State.teams h :)⟩

/-- The block's slot, coachman and teams are gone; with no paddock to detach every other team and the scratchpad stand as they were, and the core
evaluates (R29, R304). -/
def BlockGone (s t : State) (key : Nat) (b : Block) : Prop :=
  tget t.blocks key = none ∧ tget t.coaches key = none ∧ (∀ x ∈ t.teams, x.1 / 64 ≠ key) ∧
    (b.attached = [] → (∀ x ∈ s.teams, x.1 / 64 ≠ key → x ∈ t.teams) ∧ t.spad = s.spad) ∧ (t.core (key / 16)).evalDue = true

/-- The block is gone from every state that differs from one without its units in slots, counts and events alone, and has freed its slot. -/
theorem UnitsGone.blockGone {s u t : State} {key : Nat} {b : Block} (hu : UnitsGone s u key b) (h : t.besideSlots = u.besideSlots)
    (hb : tget t.blocks key = none) (he : (t.core (key / 16)).evalDue = true) : BlockGone s t key b := by
  obtain ⟨hteams, hcoaches, hspad⟩ := units_of_besideSlots h
  rw [BlockGone, hteams, hcoaches, hspad]
  exact ⟨hb, hu.coach, hu.teams, hu.others, he⟩

/-- A block that may retire leaves its slot, or keeps it with its event, in a state in which its units have gone. -/
theorem exec_blockRetire {s : State} {key : Nat} {b : Block} (hb : tget s.blocks key = some b) (hc : canRetire s key b = true) :
    ∃ u, exec (.blockRetire key) s = .next (slotLeft u key b) ∧ UnitsGone s u key b := by
  refine ⟨retireCleared s key b, ?_, unitsGone_retireCleared s key b⟩
  change execBlockRetire key s = _
  rw [execBlockRetire, hb, retireBlock_eq]
  dsimp only
  rw [if_pos hc, retireCleared]

/-! ### The slot -/

theorem slotLeft_unqueued {u : State} {key : Nat} {b : Block} {g : Graph} (hg : tget u.graphs b.gslot = some g) (hq : g.evq = 0) :
    slotLeft u key b = dropInflight (freeSlot u key) b.gslot b.stage := by
  simp only [slotLeft, hg, hq, if_true]

theorem slotLeft_enqueued {u : State} {key : Nat} {b : Block} {g : Graph} (hg : tget u.graphs b.gslot = some g) (hq : g.evq ≠ 0)
    (hu : bufferUse u (key / 16) b.part b.ctx < 16) :
    slotLeft u key b = freeSlot (u.modCore (key / 16) fun c => { c with events := c.events ++ [retireEvent key b g false] }) key := by
  simp [slotLeft, hg, hq, Nat.not_le.2 hu]

theorem slotLeft_held {u : State} {key : Nat} {b : Block} {g : Graph} (hg : tget u.graphs b.gslot = some g) (hq : g.evq ≠ 0)
    (hu : 16 ≤ bufferUse u (key / 16) b.part b.ctx) :
    slotLeft u key b = { u with blocks := tset u.blocks key { b with retired := true, attached := [], stash := [], launchPads := [] } }.modCore
      (key / 16) fun c => { c with events := c.events ++ [retireEvent key b g true] } := by
  simp only [slotLeft, hg, hq, hu, decide_true, if_true, if_false]
  rfl

theorem ends_blockRetire_unqueued {s : State} {key : Nat} {b : Block} {g : Graph} (hb : tget s.blocks key = some b)
    (hc : canRetire s key b = true) (hg : tget s.graphs b.gslot = some g) (hq : g.evq = 0) :
    Ends (.blockRetire key) s fun t => BlockGone s t key b ∧ ∃ g', tget t.graphs b.gslot = some g' ∧
      (tget g'.inflight b.stage).getD 0 = (tget g.inflight b.stage).getD 0 - 1 := by
  obtain ⟨u, hexec, hu⟩ := exec_blockRetire hb hc
  rw [← hu.graphs] at hg
  refine ⟨_, hexec, ?_⟩
  rw [slotLeft_unqueued hg hq]
  exact ⟨hu.blockGone (by simp) (by simp [tget_freeSlot]) (by simp [dropInflight_core, freeSlot_evalDue]), exists_tget_dropInflight hg⟩

theorem ends_blockRetire_enqueued {s : State} {key : Nat} {b : Block} {g : Graph} (hb : tget s.blocks key = some b)
    (hc : canRetire s key b = true) (hg : tget s.graphs b.gslot = some g) (hq : g.evq ≠ 0) (hn : bufferUse s (key / 16) b.part b.ctx < 16) :
    Ends (.blockRetire key) s fun t => BlockGone s t key b ∧ t.graphs = s.graphs ∧
      (t.core (key / 16)).events = (s.core (key / 16)).events ++ [retireEvent key b g false] := by
  obtain ⟨u, hexec, hu⟩ := exec_blockRetire hb hc
  rw [← hu.graphs] at hg
  rw [← hu.bufferUse] at hn
  refine ⟨_, hexec, ?_⟩
  rw [slotLeft_enqueued hg hq hn]
  exact ⟨hu.blockGone (by simp) (tget_freeSlot _ _) (freeSlot_evalDue _ _), by simp [hu.graphs], by simp [hu.events]⟩

theorem ends_blockRetire_held {s : State} {key : Nat} {b : Block} {g : Graph} (hb : tget s.blocks key = some b)
    (hc : canRetire s key b = true) (hg : tget s.graphs b.gslot = some g) (hq : g.evq ≠ 0) (hn : 16 ≤ bufferUse s (key / 16) b.part b.ctx) :
    Ends (.blockRetire key) s fun t => t.graphs = s.graphs ∧ (∃ b', tget t.blocks key = some b' ∧ b'.retired = true) ∧
      (∀ x ∈ t.teams, x.1 / 64 ≠ key) ∧
      (t.core (key / 16)).events = (s.core (key / 16)).events ++ [retireEvent key b g true] := by
  obtain ⟨u, hexec, hu⟩ := exec_blockRetire hb hc
  rw [← hu.graphs] at hg
  rw [← hu.bufferUse] at hn
  refine ⟨_, hexec, ?_⟩
  rw [slotLeft_held hg hq hn]
  refine ⟨hu.graphs, ⟨_, tget_tset_self _ _ _, rfl⟩, hu.teams, ?_⟩
  rw [State.modCore_core, ← hu.events]
  rfl

/-! ## Completion events (R33) -/

theorem eventsDue_single {s : State} {core : Nat} {e : HeldEvent} (he : (s.core core).events = [e])
    (hc : stillCounted s e.blockKey = false) : eventsDue s core = [(0, e)] := by
  simp [eventsDue, he, eventDue, eventBehind, hc]

theorem eventBehind_zero (s : State) (core : Nat) (e : HeldEvent) : eventBehind s core 0 e = false := by simp [eventBehind]

/-- The one event of a core waits for its core's writes before it is tried. -/
theorem exec_completionEventEnqueue_unreleased {s : State} {core : Nat} {e : HeldEvent} (he : (s.core core).events = [e])
    (hc : stillCounted s e.blockKey = false)
    (hr : (coreReleased s core (if eventForwarded s e.part e.evq then 5 else 4)).2 = false) :
    exec (.completionEventEnqueue core) s = .next (coreReleased s core (if eventForwarded s e.part e.evq then 5 else 4)).1 := by
  change execCompletionEventEnqueue core s = _
  simp [execCompletionEventEnqueue, eventsDue_single he hc, eventBehind_zero, hr, Nat.mod_one]

/-- Then it is enqueued where its queue lies, and goes, or stays. -/
theorem exec_completionEventEnqueue_released {s u v : State} {core n st : Nat} {e : HeldEvent} {l : Loc} (he : (s.core core).events = [e])
    (hc : stillCounted s e.blockKey = false)
    (hr : (coreReleased s core (if eventForwarded s e.part e.evq then 5 else 4)).2 = true)
    (hl : ctxLoc (coreReleased s core (if eventForwarded s e.part e.evq then 5 else 4)).1 e.part e.ctx e.evq = (u, some l))
    (hk : l.kind = 0) (hq : enqueue u l true [natLe 16 e.event.toNat] = (v, n, st)) :
    exec (.completionEventEnqueue core) s = .next (if n = 1 ∨ st = 3 then eventGone v core 0 e else eventHeld v core 0 e) := by
  change execCompletionEventEnqueue core s = _
  simp [execCompletionEventEnqueue, eventsDue_single he hc, eventBehind_zero, hr, hl, hk, hq, Nat.mod_one]

/-- A slot that an event kept frees. -/
def keptSlotFreed (s : State) (e : HeldEvent) : State := if e.slotHeld then freeSlot s e.blockKey else s

@[simp] theorem keptSlotFreed_besideSlots (s : State) (e : HeldEvent) : (keptSlotFreed s e).besideSlots = s.besideSlots := by
  unfold keptSlotFreed; split <;> rfl

@[simp] theorem keptSlotFreed_graphs (s : State) (e : HeldEvent) : (keptSlotFreed s e).graphs = s.graphs := by
  unfold keptSlotFreed; split <;> rfl

@[simp] theorem keptSlotFreed_events (s : State) (e : HeldEvent) (c : Nat) : ((keptSlotFreed s e).core c).events = (s.core c).events := by
  unfold keptSlotFreed; split <;> simp

theorem tget_keptSlotFreed (s : State) {e : HeldEvent} (h : e.slotHeld = true) : tget (keptSlotFreed s e).blocks e.blockKey = none := by
  rw [keptSlotFreed, if_pos h, tget_freeSlot]

theorem eventGone_eq (v : State) (core i : Nat) (e : HeldEvent) :
    eventGone v core i e =
      dropInflight (keptSlotFreed (v.modCore core fun c => { c with events := c.events.eraseIdx i }) e) e.gslot e.stage := rfl

/-- The one event of a core has left: its block is in flight no more, and no memory or team changes. -/
theorem eventGone_single {v : State} {core : Nat} {e : HeldEvent} {g : Graph} (he : (v.core core).events = [e])
    (hg : tget v.graphs e.gslot = some g) :
    let t := eventGone v core 0 e
    (t.core core).events = [] ∧ t.mem = v.mem ∧ t.l2 = v.l2 ∧ t.teams = v.teams ∧ (e.slotHeld = true → tget t.blocks e.blockKey = none) ∧
      ∃ g', tget t.graphs e.gslot = some g' ∧ (tget g'.inflight e.stage).getD 0 = (tget g.inflight e.stage).getD 0 - 1 := by
  intro t
  have ht : t = _ := eventGone_eq v core 0 e
  obtain ⟨hmem, hl2, hteams⟩ := memory_of_besideSlots (s := v) (t := t) (by simp [ht])
  refine ⟨?_, hmem, hl2, hteams, fun hk => ?_, ?_⟩
  · simp [ht, dropInflight_core, State.modCore_core, he]
  · simp [ht, tget_keptSlotFreed _ hk]
  · rw [ht]; exact exists_tget_dropInflight (by simpa using hg)

/-- With no room the event stays as it is. -/
theorem eventHeld_full {v : State} {core : Nat} {e : HeldEvent} (i : Nat) (h : e.buffered = true ∨ 16 ≤ bufferUse v core e.part e.ctx) :
    eventHeld v core i e = v := by
  rw [eventHeld, if_pos]
  rcases h with hb | hu
  · simp [eventRoom, hb]
  · simp [eventRoom, hu]

/-- With room the one event of a core takes an entry of the buffer, and its block the slot no longer. -/
theorem eventHeld_single {v : State} {core : Nat} {e : HeldEvent} (he : (v.core core).events = [e]) (hb : e.buffered = false)
    (hu : bufferUse v core e.part e.ctx < 16) :
    let t := eventHeld v core 0 e
    (t.core core).events = [{ e with buffered := true, slotHeld := false }] ∧ (e.slotHeld = true → tget t.blocks e.blockKey = none) ∧
      t.mem = v.mem ∧ t.l2 = v.l2 ∧ t.teams = v.teams ∧ t.graphs = v.graphs := by
  intro t
  have ht : t = keptSlotFreed (v.modCore core fun c => { c with events := c.events.set 0 { e with buffered := true, slotHeld := false } }) e := by
    change eventHeld v core 0 e = _
    rw [eventHeld, if_neg (by simp [eventRoom, hb, hu])]
    rfl
  obtain ⟨hmem, hl2, hteams⟩ := memory_of_besideSlots (s := v) (t := t) (by simp [ht])
  refine ⟨?_, fun hk => ?_, hmem, hl2, hteams, ?_⟩
  · simp [ht, State.modCore_core, he]
  · simp [ht, tget_keptSlotFreed _ hk]
  · simp [ht]

/-! ## A launch ends (R34, R339) -/

/-- The slot, the digests and the queue's count behind the launch record. -/
def slotEmptied (s : State) (gs : Nat) (g : Graph) : State :=
  { s with
    graphs := tdel s.graphs gs
    cancels := s.cancels.filter fun x => x.1 / 256 % 16 != gs
    cores := s.cores.map fun (c : Nat × Core) => (c.1, dropDigests gs c.2) }.modWq g.wq fun w => { w with
      pending := w.pending - 1
      wait := if w.wait = WqWait.launch gs then .none else w.wait
      step := if w.wait = WqWait.launch gs then 9 else w.step }

theorem leaveSlot_eq (s : State) (gs : Nat) (g : Graph) (status : Nat) :
    leaveSlot s gs g status = slotEmptied (ctxWrite s g.part g.ctx g.launchRec (launchRecord s g.cval 0 0 (some gs) status)) gs g := rfl

@[simp] theorem modWq_wq (s : State) (q : Nat) (f : WorkQueue → WorkQueue) : (s.modWq q f).wq q = f (s.wq q) := by
  simp [State.modWq, State.wq, tget_tset_self]

theorem tget_slotEmptied (s : State) (gs : Nat) (g : Graph) : tget (slotEmptied s gs g).graphs gs = none := by
  simp [slotEmptied, State.modWq, tget_tdel]

theorem slotEmptied_core (s : State) (gs : Nat) (g : Graph) (c : Nat) : gs ∉ ((slotEmptied s gs g).core c).digests := by
  have hcores : (slotEmptied s gs g).cores = s.cores.map fun (c : Nat × Core) => (c.1, dropDigests gs c.2) := rfl
  rw [State.core, hcores, tget_map s.cores fun _ c => dropDigests gs c]
  cases tget s.cores c <;> simp [dropDigests, Core.init]

theorem slotEmptied_wq (s : State) (gs : Nat) (g : Graph) :
    ((slotEmptied s gs g).wq g.wq).pending = (s.wq g.wq).pending - 1 ∧
      ((s.wq g.wq).wait = .launch gs → ((slotEmptied s gs g).wq g.wq).wait = .none) := by
  rw [slotEmptied, modWq_wq]
  exact ⟨rfl, fun h => if_pos h⟩

/-- What stands in a state that differs in homes and messages alone. -/
theorem of_besideSends {s t : State} (h : t.besideSends = s.besideSends) : t.teams = s.teams ∧ t.blocks = s.blocks ∧ t.wqs = s.wqs :=
  ⟨(congrArg State.teams h :), (congrArg State.blocks h :), (congrArg State.wqs h :)⟩

theorem exec_launchComplete {s : State} {gs : Nat} {g : Graph} (hg : tget s.graphs gs = some g) :
    exec (.launchComplete gs) s = .next (if launchOver s gs g then
      if s.l1.any (launchDirty g) then flushL1 s (launchDirty g) else leaveSlot s gs g 2 else s) := by
  change execLaunchComplete gs s = _
  rw [execLaunchComplete, hg]

/-- A launch that is over, with its bytes at home, leaves its slot, the digests and its queue's count. -/
theorem leaveSlot_ends (s : State) (gs : Nat) (g : Graph) (status : Nat) :
    let t := leaveSlot s gs g status
    tget t.graphs gs = none ∧ t.teams = s.teams ∧ t.blocks = s.blocks ∧ (∀ c, gs ∉ (t.core c).digests) ∧
      (t.wq g.wq).pending = (s.wq g.wq).pending - 1 ∧ ((s.wq g.wq).wait = .launch gs → (t.wq g.wq).wait = .none) := by
  have hsends := ctxWrite_besideSends s g.part g.ctx g.launchRec (launchRecord s g.cval 0 0 (some gs) status)
  intro t
  have ht : t = _ := leaveSlot_eq s gs g status
  generalize ctxWrite s g.part g.ctx g.launchRec (launchRecord s g.cval 0 0 (some gs) status) = u at hsends ht
  obtain ⟨hteams, hblocks, hwqs⟩ := of_besideSends hsends
  have hwq : u.wq g.wq = s.wq g.wq := by rw [State.wq, hwqs, State.wq]
  rw [ht, ← hteams, ← hblocks, ← hwq]
  exact ⟨tget_slotEmptied u gs g, rfl, rfl, slotEmptied_core u gs g, slotEmptied_wq u gs g⟩

end Sys2Proof.Machine
open Sys2Proof Sys2Proof.Machine

/-- Settles O37: a retirement in its parts (the flushes and detaches, the units cleared, the slot freed or kept), the one due event of a core
enqueued, discarded or held, and a finished launch written and taken from its slot. -/
theorem blocksRetireAndLaunchesEnd : Obligations.BlocksRetireAndLaunchesEnd := by
  unfold Obligations.BlocksRetireAndLaunchesEnd
  constructor
  · intro s key b g hb hc hg gone
    exact ⟨ends_blockRetire_unqueued hb hc hg, ends_blockRetire_enqueued hb hc hg, ends_blockRetire_held hb hc hg⟩
  · intro s u v core gs n st e l g
    constructor
    · intro he hc r
      refine ⟨fun hr => exec_completionEventEnqueue_unreleased he hc hr, fun hr hl hk hq hv => ?_⟩
      have hexec := exec_completionEventEnqueue_released he hc hr hl hk hq
      refine ⟨fun hgone hg => ⟨_, hexec, ?_⟩, fun hn hst hb hroom => ⟨_, hexec, ?_⟩, fun hn hst hfull => ?_⟩
      · rw [if_pos hgone]
        exact eventGone_single hv hg
      · rw [if_neg (not_or.2 ⟨hn, hst⟩)]
        exact eventHeld_single hv hb hroom
      · rw [Gives, hexec, if_neg (not_or.2 ⟨hn, hst⟩), eventHeld_full 0 hfull]
    · intro hg
      have hexec := exec_launchComplete hg
      refine ⟨fun hover hdirty => ?_, fun hover hclean => ⟨_, hexec, ?_⟩, fun hover => ?_⟩
      · rw [hexec, if_pos hover, if_pos hdirty]
      · rw [if_pos hover, hclean, if_neg Bool.false_ne_true]
        exact leaveSlot_ends s gs g 2
      · rw [FallsThrough, hexec, hover, if_neg Bool.false_ne_true]
end

section
namespace Sys2Proof.Machine

/-- A NOP in front of one team, with a snapshot left behind as if a chain of the handler were under way: `State.src` is then a team in P mode,
the team itself runs in U mode. -/
def staleSnap : State := { State.reset.withFetchWord 32 0 with snap := some { Team.init 16 0 0 with priv := true } }

/-- The partition's pick from it, and the team about to start its packet. -/
def staleSnapPicked : State := (pickTeam (staleSnap.withFate .completed) 0 0).elim staleSnap Prod.snd
def staleSnapIssuing : State := ({ staleSnapPicked with cur := teamUnit 0 }).withFate .completed
def staleSnapStarting : State := staleSnapIssuing.modTeam fun t => { t.settle with fpnew := 0 }

/-- The packet it fetches, with the state behind the fetch and the one the NOP runs on. -/
def staleSnapFetched : State × Fetched :=
  fetchPages staleSnapStarting ((staleSnapStarting.block.kern.code + staleSnapStarting.team.pkt * 12) % 2 ^ 64)
def staleSnapReady : State := dropMisses staleSnapFetched.1 (requester staleSnapStarting.cur)
def staleSnapNop : State := atSlot 0 (staleSnapReady.modTeam fun t => { t with ibuf := some [0, 0, 0] })

/-- How a run ended, of a next state. -/
def fateOf (r : Result) : Option Fate :=
  match r with
  | .next s => some s.fate
  | .fault _ => none
  | .refused _ => none

theorem acts_staleSnap : acts staleSnap = [.team 0 0] := by decide +kernel
theorem pickTeam_staleSnap : pickTeam (staleSnap.withFate .completed) 0 0 = some (0, staleSnapPicked) := by decide +kernel
theorem fetchPages_staleSnap : staleSnapFetched.2 = .ok [(⟨0, 0, 0, 0, 0, 0, 0⟩, 12)] := by decide +kernel

/-- The step takes the packet count from the snapshot's mode, finds none in the absent handler's image and raises 48. -/
theorem fateOf_step_staleSnap : fateOf (step staleSnap) = some .trapped := by decide +kernel
end Sys2Proof.Machine
open Sys2Proof Sys2Proof.Machine

/-- Refutes O57: the statement bounds a team's instruction by the program of the unit that is to run, while the model's fetch takes the program
of `State.src`, which a snapshot left behind sets to the handler. -/
theorem not_stepRunsTheDecodedInstruction : ¬ Obligations.StepRunsTheDecodedInstruction := by
  unfold Obligations.StepRunsTheDecodedInstruction
  intro h
  obtain ⟨-, hteam, -, -⟩ := h staleSnap staleSnapIssuing staleSnapNop 0 [0, 0, 0]
  have hstep := (hteam 0 0 staleSnapPicked ⟨0, 1, false, 0, 0, .nop⟩ acts_staleSnap pickTeam_staleSnap rfl).2 staleSnapStarting staleSnapFetched.1
    staleSnapReady [(⟨0, 0, 0, 0, 0, 0, 0⟩, 12)] (by decide +kernel) rfl (by decide +kernel) (by decide +kernel) (by decide +kernel)
    (by decide +kernel) (by decide +kernel) (Prod.ext rfl fetchPages_staleSnap) rfl (by decide +kernel) (by decide +kernel) (by decide +kernel)
    (by decide +kernel) (by rfl) rfl rfl
  have hfate := congrArg fateOf hstep
  rw [fateOf_step_staleSnap] at hfate
  exact absurd hfate (by decide +kernel)
end

section
namespace Sys2Proof.Machine

/-! ## A RET that refills -/

/-- The groups that a RET by 8 k reads back (R96). -/
def retGroups (s : State) (k : Nat) : List Nat := groupsFrom (min s.src.lo (s.src.winbase - 8 * k) / 8) (s.src.lo / 8)

/-- RET where nothing stands in its way: the groups return, highest first, and control passes (R96). -/
theorem exec_ret {s : State} {k a : Nat} (ht : legalTarget s (readS s a).toNat = true) (hk : 8 * k ≤ s.src.winbase)
    (hp : spillPoisoned s (retGroups s k) = false)
    (hb : groupsBusy s (retGroups s k ++ (retGroups s k).map fun g => g + s.block.nreg / 8) = false) :
    exec (.ret k a) s = .next (jumpTo (((retGroups s k).reverse.foldl refillGroup s).modTeam fun t =>
      { t with winbase := s.src.winbase - 8 * k, lo := min s.src.lo (s.src.winbase - 8 * k) }) ((readS s a).toNat / 12)) := by
  change execRet k a s = _
  simp only [retGroups] at hp hb
  simp only [execRet, ht, hk, hp, hb, retGroups, decide_true, Bool.and_true, need, checked, if_true, Bool.false_eq_true, if_false]

/-- Where every word written is v, a word written, or v before, reads v. -/
theorem wget_foldl_tset_const {n : Nat} {v : BitVec n} (xs : List (Nat × BitVec n)) (t : Tab (BitVec n)) (j : Nat)
    (hv : ∀ x ∈ xs, x.2 = v) (hj : j ∈ xs.map Prod.fst ∨ wget t j = v) :
    wget (xs.foldl (fun t x => tset t x.1 x.2) t) j = v := by
  induction xs generalizing t with
  | nil => simpa using hj
  | cons x xs ih =>
    refine ih _ (fun y hy => hv y (List.mem_cons_of_mem _ hy)) ?_
    rw [wget_tset]
    by_cases hx : j = x.1
    · exact .inr (by rw [if_pos hx]; exact hv x List.mem_cons_self)
    · rw [if_neg hx]
      simpa [hx] using hj

theorem leNat_eq_zero {bs : List Byte} (h : ∀ b ∈ bs, b = 0) : leNat bs = 0 := by
  induction bs with
  | nil => rfl
  | cons b bs ih => simp [leNat, h b List.mem_cons_self, ih fun c hc => h c (List.mem_cons_of_mem _ hc)]

theorem readLocal_of_spad_nil {s : State} (h : s.spad = []) (core own off n : Nat) : ∀ b ∈ readLocal s 0 core own off n, b = 0 := by
  intro b hb
  obtain ⟨i, -, rfl⟩ := List.mem_map.1 hb
  simp [readLocal1, localMem, h, mget, tget, unlistedByte]

/-- Every word that a group's image of zeros gives is zero. -/
theorem groupWords_zero {lanes g : Nat} {bs : List Byte} (h : ∀ b ∈ bs, b = 0) : ∀ x ∈ groupWords lanes g bs, x.2 = 0 := by
  intro x hx
  obtain ⟨l, hl, hxl⟩ := List.mem_flatten.1 hx
  obtain ⟨i, -, rfl⟩ := List.mem_map.1 hl
  obtain ⟨r, -, rfl⟩ := List.mem_map.1 hxl
  simp [leNat_eq_zero fun b hb => h b (List.mem_of_mem_drop (List.mem_of_mem_take hb))]

theorem key_mem_groupWords {lanes g i r : Nat} (bs : List Byte) (hi : i < lanes) (hr : r < 8) :
    (8 * g + r) * 1024 + i ∈ (groupWords lanes g bs).map Prod.fst :=
  List.mem_map.2 ⟨_, List.mem_flatten.2 ⟨_, List.mem_map.2 ⟨i, List.mem_range.2 hi, rfl⟩,
    List.mem_map.2 ⟨r, List.mem_range.2 hr, rfl⟩⟩, rfl⟩

/-- A refill from a scratchpad of zeros leaves zero in each lane of the team in each register of the group. -/
theorem refillGroup_zero {s : State} {g i r : Nat} (hs : s.spad = []) (hi : i < s.block.lanes) (hr : r < 8) :
    wget (refillGroup s g).team.vregs ((8 * g + r) * 1024 + i) = 0 := by
  rw [refillGroup, State.modTeam_team]
  exact wget_foldl_tset_const _ _ _ (groupWords_zero (readLocal_of_spad_nil hs _ _ _ _)) (.inl (key_mem_groupWords _ hi hr))

theorem wget_of_laneAt {t : Team} {r i : Nat} {w : Word} (h : t.laneAt r i = some w) : wget t.vregs (r * 1024 + i) = w := by
  rw [Team.laneAt] at h
  split at h
  · cases h
  · exact Option.some.inj h

@[simp] theorem jumpTo_vregs (s : State) (p : Nat) : (jumpTo s p).team.vregs = s.team.vregs := by simp [jumpTo]

/-! ## A team of 1 025 lanes

The register file holds lane i of register r as word 1 024 r + i, so that lane 1 024 of register 7 is lane 0 of register 8. -/

/-- Register 8, in the group next to the one that RET reads back, holds 5 in lane 0. -/
def wideTeam : Team := { Team.init 16 0 0 with winbase := 8, lo := 8, vregs := [(8 * 1024, 5)] }

/-- A block of teams of 1 025 lanes, one of them about to return to packet 0. -/
def wideBlock : State :=
  { State.reset.withFetchWord 32 0 with
    blocks := [(0, { placeBlock [] false with lanes := 1025 })]
    teams := [(0, wideTeam)] }

theorem retGroups_wideBlock : retGroups wideBlock 1 = [0] := by decide +kernel
theorem laneAt_wideBlock : wideBlock.team.laneAt (8 * 1 + 0) 0 = some 5 := by decide +kernel

end Sys2Proof.Machine
open Sys2Proof Sys2Proof.Machine

/-- Refutes O5: clause (2) keeps every group that RET does not read back, for a block of any number of lanes; with 1 025 lanes the refill of
group 0 writes its lane 1 024 of register 7 over lane 0 of register 8. -/
theorem not_callsAndReturnsMoveTheWindow : ¬ Obligations.CallsAndReturnsMoveTheWindow := by
  unfold Obligations.CallsAndReturnsMoveTheWindow
  intro h
  have hp : spillPoisoned wideBlock (retGroups wideBlock 1) = false := by decide +kernel
  have hb : groupsBusy wideBlock (retGroups wideBlock 1 ++ (retGroups wideBlock 1).map fun g => g + wideBlock.block.nreg / 8) = false := by
    decide +kernel
  have hret := ((h.2 wideBlock 1 0 0).2 (by decide +kernel) (by decide +kernel) (by decide +kernel)).2.2 hp hb
  obtain ⟨t, hexec, -, -, -, -, -, -, -, -, -, -, hlanes, -⟩ := hret
  have hkept : t.team.laneAt (8 * 1 + 0) 0 = wideBlock.team.laneAt (8 * 1 + 0) 0 :=
    hlanes 1 0 0 (by decide) (by decide) (by decide +kernel) (by decide +kernel)
  rw [exec_ret (by decide +kernel) (by decide +kernel) hp hb, retGroups_wideBlock] at hexec
  cases hexec
  have hfive := wget_of_laneAt (hkept.trans laneAt_wideBlock)
  have hzero := refillGroup_zero (s := wideBlock) (g := 0) (i := 1024) (r := 7) rfl (by decide) (by decide)
  simp only [jumpTo_vregs, State.modTeam_team, List.reverse_cons, List.reverse_nil, List.nil_append, List.foldl_cons, List.foldl_nil] at hfive
  exact absurd (hzero.symm.trans hfive) (by decide)
end

section
namespace Sys2Proof.Machine

/-! ## Powers of two -/

/-- 2^e. -/
def pow2 : Int → Rat
  | .ofNat n => (2 ^ n : Nat)
  | .negSucc n => ((2 ^ (n + 1) : Nat) : Rat)⁻¹

theorem pow2_pos (e : Int) : 0 < pow2 e := by
  cases e with
  | ofNat n => exact Rat.natCast_pos.2 (Nat.two_pow_pos n)
  | negSucc n => exact Rat.inv_pos.2 (Rat.natCast_pos.2 (Nat.two_pow_pos (n + 1)))

theorem pow2_succ (e : Int) : pow2 (e + 1) = 2 * pow2 e := by
  match e with
  | .ofNat n =>
    change ((2 ^ (n + 1) : Nat) : Rat) = 2 * ((2 ^ n : Nat) : Rat)
    rw [Nat.pow_succ, Rat.natCast_mul, Rat.mul_comm]
    rfl
  | .negSucc 0 => exact (Rat.mul_inv_cancel 2 (by decide)).symm
  | .negSucc (n + 1) =>
    change ((2 ^ (n + 1) : Nat) : Rat)⁻¹ = 2 * ((2 ^ (n + 2) : Nat) : Rat)⁻¹
    rw [Nat.pow_succ 2 (n + 1), Rat.natCast_mul, Rat.inv_mul_rev, ← Rat.mul_assoc]
    change _ = 2 * (2 : Rat)⁻¹ * _
    rw [Rat.mul_inv_cancel 2 (by decide), Rat.one_mul]

theorem pow2_add (e : Int) (n : Nat) : pow2 (e + n) = (2 ^ n : Nat) * pow2 e := by
  induction n with
  | zero =>
    rw [Int.natCast_zero, Int.add_zero, Nat.pow_zero]
    exact (Rat.one_mul _).symm
  | succ n ih =>
    rw [Int.natCast_succ, ← Int.add_assoc, pow2_succ, ih, Nat.pow_succ, Rat.natCast_mul, ← Rat.mul_assoc, Rat.mul_comm 2]
    rfl

theorem pow2_of_le {e k : Int} (h : k ≤ e) : pow2 e = (2 ^ (e - k).toNat : Nat) * pow2 k := by
  rw [← pow2_add, Int.toNat_of_nonneg (by omega)]
  exact congrArg pow2 (by omega)

theorem pow2_mono {e k : Int} (h : k ≤ e) : pow2 k ≤ pow2 e := by
  have hone : (1 : Rat) ≤ (2 ^ (e - k).toNat : Nat) := Rat.natCast_le_natCast.2 Nat.one_le_two_pow
  have h := Rat.mul_le_mul_of_nonneg_right hone (Rat.le_of_lt (pow2_pos k))
  rwa [Rat.one_mul, ← pow2_of_le ‹k ≤ e›] at h

/-! ## Exact values as rationals -/

/-- The rational that a dyadic number stands for. -/
def Dy.toRat (d : Dy) : Rat := d.m * pow2 d.e

theorem Dy.toRat_zero : Dy.zero.toRat = 0 := Rat.zero_mul _

theorem Dy.cast_at {d : Dy} {k : Int} (h : k ≤ d.e) : (d.at k : Rat) * pow2 k = d.toRat := by
  rw [Dy.toRat, pow2_of_le h, Dy.at, Rat.intCast_mul, ← Rat.mul_assoc]
  congr 2

theorem Dy.toRat_add (a b : Dy) : (a.add b).toRat = a.toRat + b.toRat := by
  rw [← Dy.cast_at (Int.min_le_left a.e b.e), ← Dy.cast_at (Int.min_le_right a.e b.e), ← Rat.add_mul, ← Rat.intCast_add]
  rfl

theorem Dy.toRat_neg (a : Dy) : a.neg.toRat = -a.toRat := by
  rw [Dy.toRat, Dy.toRat, ← Rat.neg_mul, ← Rat.intCast_neg]
  rfl

theorem Dy.toRat_sub (a b : Dy) : (a.sub b).toRat = a.toRat - b.toRat := by
  rw [Dy.sub, Dy.toRat_add, Dy.toRat_neg, Rat.sub_eq_add_neg]

theorem Dy.isZero_iff {a : Dy} : a.isZero = true ↔ a.toRat = 0 := by
  have hne := Rat.ne_of_gt (pow2_pos a.e)
  rw [Dy.isZero, beq_iff_eq, Dy.toRat, Rat.mul_eq_zero, or_iff_left hne, Rat.intCast_eq_zero_iff]

theorem Dy.lt_iff {a b : Dy} : a.lt b = true ↔ a.toRat < b.toRat := by
  rw [Rat.lt_iff_sub_pos, ← Rat.neg_sub, Rat.lt_neg_iff, Rat.neg_zero, ← Dy.toRat_sub, Dy.toRat,
    Rat.mul_neg_iff_of_pos_right (pow2_pos _), Rat.intCast_neg_iff, Dy.lt, decide_eq_true_iff]

theorem Dy.lt_eq_false_iff {a b : Dy} : b.lt a = false ↔ a.toRat ≤ b.toRat := by
  rw [← Rat.not_lt, ← Dy.lt_iff, Bool.not_eq_true]

/-! ## Signs and magnitudes -/

/-- A magnitude under a sign. -/
def signed (neg : Bool) (q : Rat) : Rat := if neg then -q else q

/-- The magnitude of a rational. -/
def absVal (q : Rat) : Rat := if q < 0 then -q else q

theorem signed_signed (neg : Bool) (q : Rat) : signed neg (signed neg q) = q := by
  cases neg
  · rfl
  · exact Rat.neg_neg q

theorem Dy.toRat_of_sign (neg : Bool) (m : Nat) (e : Int) :
    (⟨if neg then -(m : Int) else (m : Int), e⟩ : Dy).toRat = signed neg (m * pow2 e) := by
  cases neg
  · rfl
  · exact Dy.toRat_neg ⟨m, e⟩

theorem Dy.toRat_eq_signed (d : Dy) : d.toRat = signed (decide (d.m < 0)) (d.m.natAbs * pow2 d.e) := by
  rw [← Dy.toRat_of_sign]
  have hm : d.m = if decide (d.m < 0) = true then -(d.m.natAbs : Int) else d.m.natAbs := by
    by_cases h : d.m < 0
    · rw [if_pos (decide_eq_true h)]; omega
    · rw [if_neg (fun hd => h (of_decide_eq_true hd))]; omega
  rw [← hm]

theorem absVal_signed (neg : Bool) (q : Rat) : absVal (signed neg q) = absVal q := by
  cases neg
  · rfl
  · simp only [absVal, signed, if_true]; grind

theorem absVal_of_nonneg {q : Rat} (h : 0 ≤ q) : absVal q = q := if_neg (Rat.not_lt.2 h)

theorem natCast_mul_pow2_nonneg (n : Nat) (e : Int) : 0 ≤ n * pow2 e := Rat.mul_nonneg Rat.natCast_nonneg (Rat.le_of_lt (pow2_pos e))

theorem Dy.toRat_abs (d : Dy) : d.abs.toRat = absVal d.toRat := by
  rw [d.toRat_eq_signed, absVal_signed, absVal_of_nonneg (natCast_mul_pow2_nonneg _ _)]
  rfl

/-! ## Magnitudes in code order (R37, R38) -/

/-- The binade of a magnitude code: 0 for the subnormals and the smallest normals, which share their unit. -/
def FF.binade (f : FF) (n : Nat) : Nat := n / 2 ^ f.mb - 1

/-- What magnitude code n stands for, were the exponent field unbounded: units of its binade. -/
def FF.magRat (f : FF) (n : Nat) : Rat := (n - f.binade n * 2 ^ f.mb : Nat) * pow2 (f.qmin + f.binade n)

theorem FF.expo_eq (f : FF) (x : Nat) : f.expo x = f.mag x / 2 ^ f.mb := by
  rw [FF.expo, FF.mag, FF.signBit, Nat.add_comm, Nat.pow_add, Nat.mod_mul_right_div_self]

theorem FF.frac_eq (f : FF) (x : Nat) : f.frac x = f.mag x % 2 ^ f.mb := by
  rw [FF.frac, FF.mag, FF.signBit, Nat.add_comm, Nat.pow_add, Nat.mod_mul_right_mod]

theorem FF.magRat_of_subnormal (f : FF) {n : Nat} (h : n / 2 ^ f.mb = 0) : f.magRat n = (n % 2 ^ f.mb : Nat) * pow2 f.qmin := by
  rw [FF.magRat, FF.binade, h, Nat.mod_eq_of_lt ((Nat.div_eq_zero_iff_lt (Nat.two_pow_pos _)).1 h), Nat.zero_sub, Nat.zero_mul,
    Nat.sub_zero, Int.natCast_zero, Int.add_zero]

theorem FF.magRat_of_normal (f : FF) {n : Nat} (h : n / 2 ^ f.mb ≠ 0) :
    f.magRat n = (2 ^ f.mb + n % 2 ^ f.mb : Nat) * pow2 (f.qmin + (n / 2 ^ f.mb : Nat) - 1) := by
  obtain ⟨j, hj⟩ := Nat.exists_eq_succ_of_ne_zero h
  have hn := Nat.div_add_mod' n (2 ^ f.mb)
  rw [hj, Nat.succ_mul] at hn
  have hunits : n - j * 2 ^ f.mb = 2 ^ f.mb + n % 2 ^ f.mb := by omega
  have hexp : f.qmin + (j : Int) = f.qmin + (j.succ : Nat) - 1 := by omega
  rw [FF.magRat, FF.binade, hj, Nat.succ_sub_one, hunits, hexp]

theorem FF.toRat_val (f : FF) (x : Nat) : (f.val x).toRat = signed (f.neg x) (f.magRat (f.mag x)) := by
  rw [FF.val, Dy.toRat_of_sign, f.expo_eq, f.frac_eq]
  by_cases h : f.mag x / 2 ^ f.mb = 0
  · rw [if_pos h, if_pos h, f.magRat_of_subnormal h]
  · rw [if_neg h, if_neg h, f.magRat_of_normal h]

/-- n units of binade j stand under code j × 2^mb + n; n = 2^(mb + 1) carries to the next binade. -/
theorem FF.magRat_units (f : FF) {j n : Nat} (h : j = 0 ∨ 2 ^ f.mb ≤ n) (hn : n ≤ 2 ^ (f.mb + 1)) :
    f.magRat (j * 2 ^ f.mb + n) = n * pow2 (f.qmin + j) := by
  have hp : 0 < 2 ^ f.mb := Nat.two_pow_pos _
  rw [Nat.pow_succ] at hn
  have hdiv : (j * 2 ^ f.mb + n) / 2 ^ f.mb = j + n / 2 ^ f.mb := by rw [Nat.add_comm, Nat.add_mul_div_right _ _ hp, Nat.add_comm]
  rcases Nat.lt_or_ge n (2 ^ f.mb * 2) with hlt | hge
  · have hj : f.binade (j * 2 ^ f.mb + n) = j := by
      rw [FF.binade, hdiv]
      rcases Nat.lt_or_ge n (2 ^ f.mb) with hs | hs
      · rw [Nat.div_eq_of_lt hs]; omega
      · rw [Nat.div_eq_of_lt_le (k := 1) (by omega) (by omega), Nat.add_sub_cancel]
    rw [FF.magRat, hj, Nat.add_sub_cancel_left]
  · have htwo : n = 2 * 2 ^ f.mb := by omega
    have hj : f.binade (j * 2 ^ f.mb + n) = j + 1 := by
      rw [FF.binade, hdiv, htwo, Nat.mul_div_cancel _ hp]; rfl
    have hunits : j * 2 ^ f.mb + n - (j + 1) * 2 ^ f.mb = 2 ^ f.mb := by rw [Nat.add_mul]; omega
    rw [FF.magRat, hj, hunits, htwo, Int.natCast_succ, ← Int.add_assoc, pow2_succ, Nat.mul_comm, Rat.natCast_mul, Rat.mul_assoc]
    rfl

theorem FF.units_of_binade (f : FF) (n : Nat) :
    ∃ u, n = f.binade n * 2 ^ f.mb + u ∧ (f.binade n = 0 ∨ 2 ^ f.mb ≤ u) ∧ u < 2 ^ (f.mb + 1) := by
  have hp : 0 < 2 ^ f.mb := Nat.two_pow_pos _
  have hn := Nat.div_add_mod' n (2 ^ f.mb)
  have hr := Nat.mod_lt n hp
  refine ⟨n - f.binade n * 2 ^ f.mb, ?_⟩
  rw [FF.binade, Nat.pow_succ]
  cases hq : n / 2 ^ f.mb with
  | zero => rw [hq, Nat.zero_mul] at hn; rw [Nat.zero_sub, Nat.zero_mul]; omega
  | succ j => rw [hq, Nat.succ_mul] at hn; rw [Nat.add_sub_cancel]; omega

theorem mul_pow2_lt_iff {m n : Nat} {e : Int} : (m : Rat) * pow2 e < n * pow2 e ↔ m < n := by
  rw [Rat.mul_lt_mul_right (pow2_pos e), Rat.natCast_lt_natCast]

theorem mul_pow2_le_iff {m n : Nat} {e : Int} : (m : Rat) * pow2 e ≤ n * pow2 e ↔ m ≤ n := by
  rw [← Rat.not_lt, mul_pow2_lt_iff, Nat.not_lt]

theorem FF.magRat_lt_succ (f : FF) (n : Nat) : f.magRat n < f.magRat (n + 1) := by
  obtain ⟨u, hn, hj, hu⟩ := f.units_of_binade n
  have hsucc : n + 1 = f.binade n * 2 ^ f.mb + (u + 1) := by omega
  have hlo := f.magRat_units hj (Nat.le_of_lt hu)
  have hhi := f.magRat_units (hj.imp_right fun h => Nat.le_succ_of_le h) (Nat.succ_le_of_lt hu)
  rw [← hn] at hlo
  rw [hlo, hsucc, hhi, mul_pow2_lt_iff]
  exact Nat.lt_succ_self u

theorem FF.magRat_lt (f : FF) {m n : Nat} (h : m < n) : f.magRat m < f.magRat n := by
  induction h with
  | refl => exact f.magRat_lt_succ m
  | step _ ih => exact Std.lt_trans ih (f.magRat_lt_succ _)

theorem FF.magRat_le (f : FF) {m n : Nat} (h : m ≤ n) : f.magRat m ≤ f.magRat n := by
  rcases Nat.lt_or_eq_of_le h with h | rfl
  · exact Rat.le_of_lt (f.magRat_lt h)
  · exact Rat.le_refl

theorem FF.le_of_magRat_le (f : FF) {m n : Nat} (h : f.magRat m ≤ f.magRat n) : m ≤ n :=
  Nat.not_lt.1 fun hlt => Rat.not_lt.2 h (f.magRat_lt hlt)

theorem FF.magRat_nonneg (f : FF) (n : Nat) : 0 ≤ f.magRat n := natCast_mul_pow2_nonneg _ _

end Sys2Proof.Machine
end

section
namespace Sys2Proof.Machine

/-! ## One rounding (R43) -/

/-- Whether a mode takes an inexact magnitude, lo above code k and hi below the next one, to that next one. -/
def TakesUp (rm : Nat) (neg : Bool) (k : Nat) (lo hi : Rat) : Prop :=
  lo ≠ 0 ∧
  if rm = 0 then hi < lo ∨ hi = lo ∧ k % 2 = 1
  else if rm = 1 then False
  else if rm = 2 then neg = false
  else if rm = 3 then neg = true
  else hi ≤ lo

theorem takesUp_rne {neg : Bool} {k : Nat} {lo hi : Rat} : TakesUp 0 neg k lo hi ↔ lo ≠ 0 ∧ (hi < lo ∨ hi = lo ∧ k % 2 = 1) := Iff.rfl
theorem not_takesUp_rtz {neg : Bool} {k : Nat} {lo hi : Rat} : ¬TakesUp 1 neg k lo hi := And.right
theorem takesUp_rup {neg : Bool} {k : Nat} {lo hi : Rat} : TakesUp 2 neg k lo hi ↔ lo ≠ 0 ∧ neg = false := Iff.rfl
theorem takesUp_rdn {neg : Bool} {k : Nat} {lo hi : Rat} : TakesUp 3 neg k lo hi ↔ lo ≠ 0 ∧ neg = true := Iff.rfl
theorem takesUp_rna {neg : Bool} {k : Nat} {lo hi : Rat} : TakesUp 4 neg k lo hi ↔ lo ≠ 0 ∧ hi ≤ lo := Iff.rfl

/-- Magnitude a lies at what code k stands for under g or between that and the next one, and n is the code that mode rm takes. -/
structure Rounds (g : Nat → Rat) (rm : Nat) (neg : Bool) (a : Rat) (k n : Nat) (inexact : Bool) : Prop where
  le : g k ≤ a
  lt : a < g (k + 1)
  code : n = k ∧ ¬TakesUp rm neg k (a - g k) (g (k + 1) - a) ∨ n = k + 1 ∧ TakesUp rm neg k (a - g k) (g (k + 1) - a)
  exact_at : inexact = false ↔ g k = a

theorem mul_right_inj_of_pos {a b c : Rat} (hc : 0 < c) : a * c = b * c ↔ a = b := by
  rw [Rat.le_antisymm_iff, ← Rat.not_lt, ← Rat.not_lt, Rat.mul_lt_mul_right hc, Rat.mul_lt_mul_right hc, Rat.not_lt, Rat.not_lt,
    ← Rat.le_antisymm_iff]

/-- The dropped remainder r of 2^k units of c decides as its distances to the two neighbours do. -/
theorem roundUp?_iff {rm : Nat} {neg : Bool} {n r k : Nat} {c : Rat} (hc : 0 < c) (hr : r ≤ 2 ^ k) :
    roundUp? rm neg n r k = true ↔ TakesUp rm neg n (r * c) ((2 ^ k - r : Nat) * c) := by
  have hlt : ((2 ^ k - r : Nat) : Rat) * c < r * c ↔ 2 ^ k < 2 * r := by
    rw [Rat.mul_lt_mul_right hc, Rat.natCast_lt_natCast]; omega
  have heq : ((2 ^ k - r : Nat) : Rat) * c = r * c ↔ 2 * r = 2 ^ k := by
    rw [mul_right_inj_of_pos hc, Rat.natCast_inj]; omega
  have hle : ((2 ^ k - r : Nat) : Rat) * c ≤ r * c ↔ 2 ^ k ≤ 2 * r := by
    rw [← Rat.not_lt, Rat.mul_lt_mul_right hc, Rat.natCast_lt_natCast]; omega
  have hz : (r : Rat) * c ≠ 0 ↔ r ≠ 0 := by
    rw [Ne, Rat.mul_eq_zero, or_iff_left (Rat.ne_of_gt hc), Rat.natCast_eq_zero_iff]
  rw [roundUp?, TakesUp, hlt, heq, hle, hz]
  by_cases hr : r = 0
  · simp only [hr, if_true, ne_eq, not_true_eq_false, false_and, Bool.false_eq_true]
  · rw [if_neg hr]
    split
    · simp only [hr, ne_eq, not_false_eq_true, true_and, Bool.or_eq_true, Bool.and_eq_true, decide_eq_true_eq, beq_iff_eq]
    · split
      · simp only [Bool.false_eq_true, and_false]
      · split
        · simp only [hr, ne_eq, not_false_eq_true, true_and, Bool.not_eq_true']
        · split
          · simp only [hr, ne_eq, not_false_eq_true, true_and]
          · simp only [hr, ne_eq, not_false_eq_true, true_and, decide_eq_true_eq]

theorem roundAt_exact {rm : Nat} {neg : Bool} {m : Nat} {e q : Int} (h : q ≤ e) :
    Rounds (fun n => n * pow2 q) rm neg (m * pow2 e) (m * 2 ^ (e - q).toNat) (roundAt rm neg m e q).1 (roundAt rm neg m e q).2 := by
  have hk : ((m * 2 ^ (e - q).toNat : Nat) : Rat) * pow2 q = m * pow2 e := by
    rw [pow2_of_le h, Rat.natCast_mul, Rat.mul_assoc]
  rw [roundAt, if_pos h]
  refine ⟨Std.le_of_eq hk, ?_, .inl ⟨rfl, fun up => up.1 ?_⟩, iff_of_true rfl hk⟩
  · rw [← hk, mul_pow2_lt_iff]
    exact Nat.lt_succ_self _
  · rw [hk, Rat.sub_self]

theorem roundAt_drops {rm : Nat} {neg : Bool} {m : Nat} {e : Int} {k : Nat} (h : k ≠ 0) :
    Rounds (fun n => n * pow2 (e + k)) rm neg (m * pow2 e) (m / 2 ^ k) (roundAt rm neg m e (e + k)).1 (roundAt rm neg m e (e + k)).2 := by
  have hc := pow2_pos e
  have hr := Nat.mod_lt m (Nat.two_pow_pos k)
  have hm := congrArg (Nat.cast (R := Rat)) (Nat.div_add_mod' m (2 ^ k))
  have hs := congrArg (Nat.cast (R := Rat)) (Nat.sub_add_cancel (Nat.le_of_lt hr))
  rw [Rat.natCast_add, Rat.natCast_mul] at hm
  rw [Rat.natCast_add] at hs
  have hlo : (m : Rat) * pow2 e - (m / 2 ^ k : Nat) * pow2 (e + k) = (m % 2 ^ k : Nat) * pow2 e := by
    rw [pow2_add]; grind
  have hhi : ((m / 2 ^ k + 1 : Nat) : Rat) * pow2 (e + k) - m * pow2 e = (2 ^ k - m % 2 ^ k : Nat) * pow2 e := by
    rw [pow2_add, Rat.natCast_add]; grind
  have hround : roundAt rm neg m e (e + k) =
      (if roundUp? rm neg (m / 2 ^ k) (m % 2 ^ k) k then m / 2 ^ k + 1 else m / 2 ^ k, m % 2 ^ k != 0) := by
    rw [roundAt, if_neg (by omega), show (e + k - e).toNat = k by omega]
  rw [hround]
  refine ⟨?_, ?_, ?_, ?_⟩
  · rw [Rat.le_iff_sub_nonneg, hlo]
    exact natCast_mul_pow2_nonneg _ _
  · rw [Rat.lt_iff_sub_pos, hhi]
    exact Rat.mul_pos (Rat.natCast_pos.2 (by omega)) hc
  · rw [hlo, hhi, ← roundUp?_iff hc (Nat.le_of_lt hr)]
    cases roundUp? rm neg (m / 2 ^ k) (m % 2 ^ k) k
    · exact .inl ⟨rfl, Bool.false_ne_true⟩
    · exact .inr ⟨rfl, rfl⟩
  · have hexact : (m / 2 ^ k : Nat) * pow2 (e + k) = m * pow2 e ↔ m % 2 ^ k = 0 := by
      rw [← Rat.natCast_eq_zero_iff, ← or_iff_left (a := ((m % 2 ^ k : Nat) : Rat) = 0) (Rat.ne_of_gt hc), ← Rat.mul_eq_zero, ← hlo]
      grind
    rw [hexact, bne_eq_false_iff_eq]

/-- A magnitude m × 2^e, rounded to units of 2^q. -/
theorem roundAt_rounds (rm : Nat) (neg : Bool) (m : Nat) (e q : Int) :
    ∃ k, Rounds (fun n => n * pow2 q) rm neg (m * pow2 e) k (roundAt rm neg m e q).1 (roundAt rm neg m e q).2 := by
  by_cases h : q ≤ e
  · exact ⟨_, roundAt_exact h⟩
  · obtain ⟨k, rfl⟩ : ∃ k : Nat, q = e + k := ⟨(q - e).toNat, by omega⟩
    exact ⟨_, roundAt_drops (by omega)⟩

theorem takesUp_congr {rm : Nat} {neg : Bool} {k k' : Nat} {lo hi : Rat} (h : k % 2 = k' % 2) :
    TakesUp rm neg k lo hi ↔ TakesUp rm neg k' lo hi := by
  simp only [TakesUp, h]

/-- Units of binade j, rounded, are their codes, rounded. -/
theorem Rounds.code_of_units {f : FF} {rm : Nat} {neg : Bool} {a : Rat} {j k n : Nat} {ix : Bool} (hmb : f.mb ≠ 0)
    (h : Rounds (fun n => n * pow2 (f.qmin + j)) rm neg a k n ix) (hj : j = 0 ∨ 2 ^ f.mb ≤ k) (hk : k < 2 ^ (f.mb + 1)) :
    Rounds f.magRat rm neg a (j * 2 ^ f.mb + k) (j * 2 ^ f.mb + n) ix := by
  have hlo := f.magRat_units hj (Nat.le_of_lt hk)
  have hhi := f.magRat_units (j := j) (n := k + 1) (hj.imp_right fun h => Nat.le_succ_of_le h) hk
  have hpar : (j * 2 ^ f.mb + k) % 2 = k % 2 := by
    obtain ⟨b, hb⟩ := Nat.exists_eq_succ_of_ne_zero hmb
    rw [hb, Nat.pow_succ, ← Nat.mul_assoc]; omega
  obtain ⟨hle, hlt, hcode, hexact⟩ := h
  refine ⟨by rwa [hlo], by rwa [Nat.add_assoc, hhi], ?_, by rwa [hlo]⟩
  rw [Nat.add_assoc, hlo, hhi, takesUp_congr hpar, Nat.add_right_inj, Nat.add_right_inj]
  exact hcode

/-- The exponent of the unit that keeps mb + 1 bits of m × 2^e. -/
def FF.unitExp (f : FF) (m : Nat) (e : Int) : Int := (m.log2 : Int) + e - (f.mb : Int)

theorem FF.two_pow_unitExp_le (f : FF) {m : Nat} (e : Int) (hm : m ≠ 0) : (2 ^ f.mb : Nat) * pow2 (f.unitExp m e) ≤ m * pow2 e := by
  have hexp : (2 ^ f.mb : Nat) * pow2 (f.unitExp m e) = (2 ^ m.log2 : Nat) * pow2 e := by
    rw [← pow2_add, ← pow2_add]
    exact congrArg pow2 (by rw [FF.unitExp]; omega)
  rw [hexp, mul_pow2_le_iff]
  exact Nat.log2_self_le hm

theorem FF.lt_two_pow_unitExp (f : FF) (m : Nat) (e : Int) : m * pow2 e < (2 ^ (f.mb + 1) : Nat) * pow2 (f.unitExp m e) := by
  have hexp : (2 ^ (f.mb + 1) : Nat) * pow2 (f.unitExp m e) = (2 ^ (m.log2 + 1) : Nat) * pow2 e := by
    rw [← pow2_add, ← pow2_add]
    exact congrArg pow2 (by rw [FF.unitExp]; omega)
  rw [hexp, mul_pow2_lt_iff]
  exact Nat.lt_log2_self

/-! ### One rounding to a format -/

/-- What the six formats share: fraction and exponent bits enough, and normal numbers. -/
structure FF.Regular (f : FF) : Prop where
  mb_ne_zero : f.mb ≠ 0
  two_le_eb : 2 ≤ f.eb

theorem FF.Regular.maxMag_bounds {f : FF} (h : f.Regular) : 2 ^ f.mb ≤ f.maxMag ∧ f.maxMag < f.signBit := by
  have hp : 2 ^ 1 ≤ 2 ^ f.mb := Nat.pow_le_pow_right (by decide) (Nat.one_le_iff_ne_zero.2 h.mb_ne_zero)
  have he : 2 ^ 2 ≤ 2 ^ f.eb := Nat.pow_le_pow_right (by decide) h.two_le_eb
  have hs : 4 * 2 ^ f.mb ≤ 2 ^ f.eb * 2 ^ f.mb := Nat.mul_le_mul_right _ he
  simp only [FF.maxMag, FF.signBit, FF.infMag, Nat.pow_add, Nat.sub_mul]
  split <;> omega

/-- The rounding with an unbounded exponent. -/
def FF.unbounded (f : FF) (rm : Nat) (neg : Bool) (m : Nat) (e : Int) : Nat × Bool := roundAt rm neg m e (f.unitExp m e)

/-- The rounding on the format's own grid, that of the subnormals below the normal range. -/
def FF.onGrid (f : FF) (rm : Nat) (neg : Bool) (m : Nat) (e : Int) : Nat × Bool :=
  if f.unitExp m e < f.qmin then roundAt rm neg m e (max (f.unitExp m e) f.qmin) else f.unbounded rm neg m e

theorem FF.roundMag_eq (f : FF) (rm : Nat) (sat neg : Bool) (m : Nat) (e : Int) :
    let u : Dy := ⟨((f.unbounded rm neg m e).1 : Int), f.unitExp m e⟩
    let n := f.onGrid rm neg m e
    f.roundMag rm sat neg m e =
      if decide ((f.val f.maxMag).lt u = true) then (f.overflow rm neg sat, orNat flagOF flagNX)
      else (f.withSign neg ((max (f.unitExp m e) f.qmin - f.qmin).toNat * 2 ^ f.mb + n.1),
        orNat (if n.2 then flagNX else 0) (if decide (u.lt ⟨2 ^ f.mb, f.qmin⟩ = true) && n.2 then flagUF else 0)) := rfl

theorem testBit_overflowFlags : (orNat flagOF flagNX).testBit 2 = true := by decide

theorem testBit_inexactFlags (ix tiny : Bool) :
    (orNat (if ix then flagNX else 0) (if tiny && ix then flagUF else 0)).testBit 4 = ix := by
  revert ix tiny; decide

/-- Where no overflow is raised the code is that of the rounding on the format's grid, with its inexactness, and the unbounded
rounding is at most the largest value. -/
theorem FF.roundMag_of_not_overflow {f : FF} {rm : Nat} {sat neg : Bool} {m : Nat} {e : Int}
    (h : (f.roundMag rm sat neg m e).2.testBit 2 = false) :
    (f.unbounded rm neg m e).1 * pow2 (f.unitExp m e) ≤ (f.val f.maxMag).toRat ∧
      (f.roundMag rm sat neg m e).1 =
        f.withSign neg ((max (f.unitExp m e) f.qmin - f.qmin).toNat * 2 ^ f.mb + (f.onGrid rm neg m e).1) ∧
      (f.roundMag rm sat neg m e).2.testBit 4 = (f.onGrid rm neg m e).2 := by
  rw [f.roundMag_eq] at h ⊢
  cases hovr : (f.val f.maxMag).lt ⟨((f.unbounded rm neg m e).1 : Int), f.unitExp m e⟩ with
  | true => simp only [hovr, decide_true, if_true, testBit_overflowFlags, Bool.true_eq_false] at h
  | false =>
    rw [decide_eq_false Bool.false_ne_true, if_neg Bool.false_ne_true]
    exact ⟨Dy.lt_eq_false_iff.1 hovr, rfl, testBit_inexactFlags _ _⟩

/-! ### Signs and magnitudes of codes -/

theorem FF.mag_withSign {f : FF} {n : Nat} (h : n < f.signBit) (neg : Bool) : f.mag (f.withSign neg n) = n := by
  rw [FF.mag, FF.withSign]
  cases neg
  · rw [if_neg Bool.false_ne_true, Nat.zero_add, Nat.mod_eq_of_lt h]
  · rw [if_pos rfl, Nat.add_mod_left, Nat.mod_eq_of_lt h]

theorem FF.neg_withSign {f : FF} {n : Nat} (h : n < f.signBit) (neg : Bool) : f.neg (f.withSign neg n) = neg := by
  rw [FF.neg, FF.withSign]
  cases neg
  · rw [if_neg Bool.false_ne_true, Nat.zero_add, Nat.div_eq_of_lt h]; rfl
  · rw [if_pos rfl, Nat.add_div_left _ (by omega), Nat.div_eq_of_lt h]; rfl

theorem FF.toRat_val_withSign {f : FF} {n : Nat} (h : n < f.signBit) (neg : Bool) :
    (f.val (f.withSign neg n)).toRat = signed neg (f.magRat n) := by
  rw [FF.toRat_val, FF.neg_withSign h, FF.mag_withSign h]

theorem FF.toRat_val_of_lt {f : FF} {n : Nat} (h : n < f.signBit) : (f.val n).toRat = f.magRat n := by
  have hval := FF.toRat_val_withSign h false
  rwa [FF.withSign, signed, if_neg Bool.false_ne_true, if_neg Bool.false_ne_true, Nat.zero_add] at hval

theorem FF.withSign_lt {f : FF} {n : Nat} (h : n < f.signBit) (neg : Bool) : f.withSign neg n < 2 ^ f.width := by
  have hw : 2 ^ f.width = f.signBit + f.signBit := by rw [FF.width, FF.signBit, Nat.add_assoc, Nat.pow_add]; omega
  rw [hw, FF.withSign]
  cases neg
  · rw [if_neg Bool.false_ne_true]; omega
  · rw [if_pos rfl]; omega

theorem FF.withSign_mod_two {f : FF} (hf : f.Regular) (neg : Bool) (n : Nat) : f.withSign neg n % 2 = n % 2 := by
  have hs : f.signBit % 2 = 0 := by
    rw [FF.signBit, Nat.two_pow_mod_two_eq_zero]
    exact Nat.add_pos_right _ (Nat.pos_of_ne_zero hf.mb_ne_zero)
  rw [FF.withSign]
  cases neg
  · rw [if_neg Bool.false_ne_true, Nat.zero_add]
  · rw [if_pos rfl]; omega

/-- The codes up to the largest finite magnitude are no NaN and no infinity. -/
theorem FF.finite_withSign {f : FF} (hf : f.Regular) {n : Nat} (h : n ≤ f.maxMag) (neg : Bool) :
    f.isNaN (f.withSign neg n) = false ∧ f.isInf (f.withSign neg n) = false := by
  obtain ⟨hlo, hhi⟩ := hf.maxMag_bounds
  have hp : 0 < 2 ^ f.mb := Nat.two_pow_pos _
  have hmag := FF.mag_withSign (Nat.lt_of_le_of_lt h hhi) neg
  rw [FF.isNaN, FF.isInf, FF.expo_eq, hmag]
  cases hi : f.infs with
  | false =>
    rw [FF.maxMag, hi] at h hlo
    simp only [Bool.false_eq_true, if_false] at h hlo
    simp only [Bool.false_eq_true, if_false, Bool.false_and, and_true, beq_eq_false_iff_ne]
    omega
  | true =>
    rw [FF.maxMag, hi, if_pos rfl] at h hlo
    have hlt : n < f.infMag := by omega
    have he : n / 2 ^ f.mb < 2 ^ f.eb - 1 := (Nat.div_lt_iff_lt_mul hp).2 hlt
    rw [if_pos rfl, beq_false_of_ne (Nat.ne_of_lt he), beq_false_of_ne (Nat.ne_of_lt hlt), Bool.false_and, Bool.and_false]
    exact ⟨rfl, rfl⟩

/-! ### The rounded code -/

theorem Rounds.le_succ {g : Nat → Rat} {rm : Nat} {neg : Bool} {a : Rat} {k n : Nat} {ix : Bool} (h : Rounds g rm neg a k n ix) :
    n ≤ k + 1 := by
  rcases h.code with ⟨rfl, -⟩ | ⟨rfl, -⟩
  · exact Nat.le_succ n
  · exact Nat.le_refl _

theorem Rounds.ge {g : Nat → Rat} {rm : Nat} {neg : Bool} {a : Rat} {k n : Nat} {ix : Bool} (h : Rounds g rm neg a k n ix) : k ≤ n := by
  rcases h.code with ⟨rfl, -⟩ | ⟨rfl, -⟩
  · exact Nat.le_refl _
  · exact Nat.le_succ k

/-- Below the normal range the codes are units of the smallest subnormal, up to the smallest normal. -/
theorem FF.onGrid_rounds_subnormal {f : FF} (hf : f.Regular) (rm : Nat) (neg : Bool) {m : Nat} {e : Int}
    (hu : f.unitExp m e < f.qmin) :
    ∃ k < 2 ^ f.mb, Rounds f.magRat rm neg (m * pow2 e) k (f.onGrid rm neg m e).1 (f.onGrid rm neg m e).2 := by
  have hmax : max (f.unitExp m e) f.qmin = f.qmin := Int.max_eq_right (Int.le_of_lt hu)
  have hgrid : f.onGrid rm neg m e = roundAt rm neg m e f.qmin := by rw [FF.onGrid, if_pos hu, hmax]
  obtain ⟨k, hr⟩ := roundAt_rounds rm neg m e f.qmin
  have hunit : (2 ^ (f.mb + 1) : Nat) * pow2 (f.unitExp m e) ≤ (2 ^ f.mb : Nat) * pow2 f.qmin := by
    rw [← pow2_add, ← pow2_add]
    exact pow2_mono (by omega)
  have hk : k < 2 ^ f.mb :=
    mul_pow2_lt_iff.1 (Std.lt_of_lt_of_le (Std.lt_of_le_of_lt hr.le (f.lt_two_pow_unitExp m e)) hunit)
  have hcode := Rounds.code_of_units (j := 0) hf.mb_ne_zero (by rwa [Int.natCast_zero, Int.add_zero]) (.inl rfl)
    (by rw [Nat.pow_succ]; omega)
  rw [Nat.zero_mul, Nat.zero_add, Nat.zero_add, ← hgrid] at hcode
  exact ⟨k, hk, hcode⟩

/-- In the normal range the codes are units of one binade, with mb + 1 bits. -/
theorem FF.onGrid_rounds_normal {f : FF} (hf : f.Regular) (rm : Nat) (neg : Bool) {m : Nat} {e : Int} {j : Nat} (hm : m ≠ 0)
    (hj : f.unitExp m e = f.qmin + j) :
    ∃ k, Rounds f.magRat rm neg (m * pow2 e) k (j * 2 ^ f.mb + (f.onGrid rm neg m e).1) (f.onGrid rm neg m e).2 ∧
      f.magRat (j * 2 ^ f.mb + (f.onGrid rm neg m e).1) = (f.unbounded rm neg m e).1 * pow2 (f.unitExp m e) := by
  have hgrid : f.onGrid rm neg m e = f.unbounded rm neg m e := by rw [FF.onGrid, if_neg (by omega)]
  obtain ⟨k, hr⟩ := roundAt_rounds rm neg m e (f.unitExp m e)
  have hlo : 2 ^ f.mb < k + 1 := mul_pow2_lt_iff.1 (Std.lt_of_le_of_lt (f.two_pow_unitExp_le e hm) hr.lt)
  have hhi : k < 2 ^ (f.mb + 1) := mul_pow2_lt_iff.1 (Std.lt_of_le_of_lt hr.le (f.lt_two_pow_unitExp m e))
  rw [← FF.unbounded] at hr
  have hge := hr.ge
  have hle := hr.le_succ
  rw [hgrid]
  exact ⟨_, Rounds.code_of_units hf.mb_ne_zero (hj ▸ hr) (.inr (by omega)) hhi,
    by rw [f.magRat_units (.inr (by omega)) (by omega), hj]⟩

/-- A magnitude that does not overflow is rounded among the magnitude codes up to the largest finite one. -/
theorem FF.roundMag_rounds {f : FF} (hf : f.Regular) {rm : Nat} {sat neg : Bool} {m : Nat} {e : Int} (hm : m ≠ 0)
    (h : (f.roundMag rm sat neg m e).2.testBit 2 = false) :
    ∃ k n, (f.roundMag rm sat neg m e).1 = f.withSign neg n ∧ n ≤ f.maxMag ∧
      Rounds f.magRat rm neg (m * pow2 e) k n ((f.roundMag rm sat neg m e).2.testBit 4) := by
  obtain ⟨hmax, hcode, hnx⟩ := FF.roundMag_of_not_overflow h
  obtain ⟨hmaxlo, hmaxhi⟩ := hf.maxMag_bounds
  rw [hnx, hcode]
  by_cases hu : f.unitExp m e < f.qmin
  · obtain ⟨k, hk, hr⟩ := FF.onGrid_rounds_subnormal hf rm neg hu
    have hle := hr.le_succ
    refine ⟨k, (f.onGrid rm neg m e).1, ?_, by omega, hr⟩
    rw [Int.max_eq_right (Int.le_of_lt hu), Int.sub_self, Int.toNat_zero, Nat.zero_mul, Nat.zero_add]
  · obtain ⟨j, hj⟩ : ∃ j : Nat, f.unitExp m e = f.qmin + j := ⟨(f.unitExp m e - f.qmin).toNat, by omega⟩
    obtain ⟨k, hr, hval⟩ := FF.onGrid_rounds_normal hf rm neg hm hj
    refine ⟨k, j * 2 ^ f.mb + (f.onGrid rm neg m e).1, ?_, ?_, hr⟩
    · rw [show (max (f.unitExp m e) f.qmin - f.qmin).toNat = j by omega]
    · refine f.le_of_magRat_le ?_
      rw [hval, ← FF.toRat_val_of_lt hmaxhi]
      exact hmax

end Sys2Proof.Machine
end

section
namespace Sys2Proof.Machine

/-! ### What the modes give

`z` is any other value that could have been taken: it lies at or below what code k stands for, or at or above what k + 1 does. -/

section
variable {g : Nat → Rat} {rm : Nat} {neg : Bool} {a z : Rat} {k n : Nat} {ix : Bool}

theorem Rounds.exact_iff (h : Rounds g rm neg a k n ix) : ix = false ↔ g n = a := by
  rcases h.code with ⟨rfl, -⟩ | ⟨rfl, hlo, -⟩
  · exact h.exact_at
  · refine iff_of_false (fun hix => hlo ?_) (Rat.ne_of_gt h.lt)
    rw [h.exact_at.1 hix, Rat.sub_self]

theorem Rounds.none_between (h : Rounds g rm neg a k n ix) (hz : z ≤ g k ∨ g (k + 1) ≤ z) :
    ¬(g n < z ∧ z < a) ∧ ¬(a < z ∧ z < g n) := by
  have hle := h.le
  have hlt := h.lt
  rcases h.code with ⟨rfl, -⟩ | ⟨rfl, -⟩
  · grind
  · grind

theorem Rounds.rtz_le (h : Rounds g 1 neg a k n ix) : g n ≤ a := by
  rcases h.code with ⟨rfl, -⟩ | ⟨-, hup⟩
  · exact h.le
  · exact absurd hup not_takesUp_rtz

/-- A magnitude left at the code below, in a mode that would take it up were it inexact, is exact. -/
theorem Rounds.exact_of_not_up (h : Rounds g rm neg a n n ix) (hdir : a - g n ≠ 0 → TakesUp rm neg n (a - g n) (g (n + 1) - a)) :
    g n = a := by
  rcases h.code with ⟨-, hup⟩ | ⟨hn, -⟩
  · have hlo : a - g n = 0 := Decidable.byContradiction fun hne => hup (hdir hne)
    grind
  · omega

theorem Rounds.rup_le (h : Rounds g 2 neg a k n ix) : signed neg a ≤ signed neg (g n) := by
  rcases h.code with ⟨rfl, -⟩ | ⟨rfl, hup⟩
  · cases neg
    · exact Std.le_of_eq (h.exact_of_not_up fun hlo => takesUp_rup.2 ⟨hlo, rfl⟩).symm
    · exact Rat.neg_le_neg h.le
  · obtain rfl := (takesUp_rup.1 hup).2
    exact Rat.le_of_lt h.lt

theorem Rounds.rdn_le (h : Rounds g 3 neg a k n ix) : signed neg (g n) ≤ signed neg a := by
  rcases h.code with ⟨rfl, -⟩ | ⟨rfl, hup⟩
  · cases neg
    · exact h.le
    · exact Rat.neg_le_neg (Std.le_of_eq (h.exact_of_not_up fun hlo => takesUp_rdn.2 ⟨hlo, rfl⟩).symm)
  · obtain rfl := (takesUp_rdn.1 hup).2
    exact Rat.neg_le_neg (Rat.le_of_lt h.lt)

/-- Rounding to nearest takes the nearer neighbour, and one of the two at a tie. -/
theorem Rounds.nearer_neighbour (h : Rounds g rm neg a k n ix) (hrm : rm = 0 ∨ rm = 4) :
    n = k ∧ a - g k ≤ g (k + 1) - a ∨ n = k + 1 ∧ g (k + 1) - a ≤ a - g k := by
  have hlt := h.lt
  rcases h.code with ⟨hn, hup⟩ | ⟨hn, hup⟩
  · refine .inl ⟨hn, Rat.not_lt.1 fun hcloser => hup ?_⟩
    have hlo : a - g k ≠ 0 := by grind
    rcases hrm with rfl | rfl
    · exact takesUp_rne.2 ⟨hlo, .inl hcloser⟩
    · exact takesUp_rna.2 ⟨hlo, Rat.le_of_lt hcloser⟩
  · refine .inr ⟨hn, ?_⟩
    rcases hrm with rfl | rfl
    · exact (takesUp_rne.1 hup).2.elim Rat.le_of_lt fun htie => Std.le_of_eq htie.1
    · exact (takesUp_rna.1 hup).2

theorem Rounds.nearest (h : Rounds g rm neg a k n ix) (hrm : rm = 0 ∨ rm = 4) (hz : z ≤ g k ∨ g (k + 1) ≤ z) :
    absVal (g n - a) ≤ absVal (z - a) := by
  have hle := h.le
  have hlt := h.lt
  unfold absVal
  rcases h.nearer_neighbour hrm with ⟨rfl, hnear⟩ | ⟨rfl, hnear⟩
  · grind
  · grind

/-- Another nearest value is the other neighbour, at a tie. -/
theorem Rounds.tie (h : Rounds g rm neg a k n ix) (hrm : rm = 0 ∨ rm = 4) (hz : z ≤ g k ∨ g (k + 1) ≤ z) (hzn : z ≠ g n)
    (hnear : absVal (z - a) ≤ absVal (g n - a)) :
    a - g k = g (k + 1) - a ∧ (n = k ∧ z = g (k + 1) ∨ n = k + 1 ∧ z = g k) := by
  have hle := h.le
  have hlt := h.lt
  unfold absVal at hnear
  rcases h.nearer_neighbour hrm with ⟨rfl, hnear⟩ | ⟨rfl, hnear⟩
  · grind
  · grind

theorem Rounds.rne_even (h : Rounds g 0 neg a k n ix) (hz : z ≤ g k ∨ g (k + 1) ≤ z) (hzn : z ≠ g n)
    (hnear : absVal (z - a) ≤ absVal (g n - a)) : n % 2 = 0 := by
  have hlt := h.lt
  obtain ⟨htie, -⟩ := h.tie (.inl rfl) hz hzn hnear
  rcases h.code with ⟨rfl, hup⟩ | ⟨rfl, hup⟩
  · have heven : ¬n % 2 = 1 := fun hodd => hup (takesUp_rne.2 ⟨by grind, .inr ⟨htie.symm, hodd⟩⟩)
    omega
  · obtain hcloser | ⟨-, hodd⟩ := (takesUp_rne.1 hup).2
    · exact absurd htie (Rat.ne_of_gt hcloser)
    · omega

theorem Rounds.rna_away (h : Rounds g 4 neg a k n ix) (h0 : 0 ≤ g k) (hz : z ≤ g k ∨ g (k + 1) ≤ z)
    (hnear : absVal (z - a) ≤ absVal (g n - a)) : absVal z ≤ absVal (g n) := by
  have hle := h.le
  have hlt := h.lt
  by_cases hzn : z = g n
  · exact Std.le_of_eq (congrArg absVal hzn)
  · obtain ⟨htie, hz⟩ := h.tie (.inr rfl) hz hzn hnear
    rcases h.code with ⟨rfl, hup⟩ | ⟨rfl, -⟩
    · exact absurd (takesUp_rna.2 ⟨by grind, Std.le_of_eq htie.symm⟩) hup
    · obtain ⟨hn, -⟩ | ⟨-, rfl⟩ := hz
      · omega
      · rw [absVal_of_nonneg h0, absVal_of_nonneg (by grind)]
        grind

end

/-! ### The statement's terms -/

theorem absVal_signed_sub_signed (neg : Bool) (p q : Rat) : absVal (signed neg p - signed neg q) = absVal (p - q) := by
  have hsub : signed neg p - signed neg q = signed neg (p - q) := by
    cases neg
    · rfl
    · simp only [signed, if_true]; grind
  rw [hsub, absVal_signed]

theorem signed_inj {neg : Bool} {p q : Rat} : signed neg p = signed neg q ↔ p = q :=
  ⟨fun h => by rw [← signed_signed neg p, h, signed_signed], congrArg _⟩

/-- Values under a sign lie between each other as the magnitudes do, in one order or the other. -/
theorem not_between_signed {neg : Bool} {p q z : Rat}
    (h : ¬(p < signed neg z ∧ signed neg z < q) ∧ ¬(q < signed neg z ∧ signed neg z < p)) :
    ¬(signed neg p < z ∧ z < signed neg q) ∧ ¬(signed neg q < z ∧ z < signed neg p) := by
  cases neg
  · exact h
  · simp only [signed, if_true] at h ⊢
    grind

/-- No value of the format lies between those of two neighbouring magnitudes, under either sign. -/
theorem FF.val_le_or_ge (f : FF) (neg : Bool) (y k : Nat) :
    signed neg (f.val y).toRat ≤ f.magRat k ∨ f.magRat (k + 1) ≤ signed neg (f.val y).toRat := by
  have hy := f.magRat_nonneg (f.mag y)
  have hk := f.magRat_nonneg k
  rw [FF.toRat_val]
  by_cases hneg : f.neg y = neg
  · rw [hneg, signed_signed]
    exact (Nat.lt_or_ge k (f.mag y)).symm.imp f.magRat_le f.magRat_le
  · have hopp : signed neg (signed (f.neg y) (f.magRat (f.mag y))) = -f.magRat (f.mag y) := by
      rw [Bool.eq_not_of_ne hneg]
      cases neg
      · rfl
      · rfl
    rw [hopp]
    exact .inl (by grind)

/-- A rounding that does not overflow, as a rounding of the magnitude under the value's sign. -/
theorem FF.round_rounds {f : FF} (hf : f.Regular) {rm : Nat} {sat z : Bool} {d : Dy} (hd : d.m ≠ 0)
    (h : (f.round rm sat z d).2.testBit 2 = false) :
    ∃ neg a k n, d.toRat = signed neg a ∧ (f.round rm sat z d).1 = f.withSign neg n ∧ n ≤ f.maxMag ∧
      Rounds f.magRat rm neg a k n ((f.round rm sat z d).2.testBit 4) := by
  rw [FF.round, if_neg hd] at h ⊢
  obtain ⟨k, n, hr⟩ := FF.roundMag_rounds hf (Int.natAbs_ne_zero.2 hd) h
  exact ⟨_, _, k, n, d.toRat_eq_signed, hr⟩

theorem regular_of_mem {f : FF} (h : f ∈ [ffF32, ffF16, ffBF16, ffF64, ffE5M2, ffE4M3]) : f.Regular := by
  simp only [List.mem_cons, List.not_mem_nil, or_false] at h
  rcases h with rfl | rfl | rfl | rfl | rfl | rfl <;> exact ⟨by decide, by decide⟩

end Sys2Proof.Machine
open Sys2Proof Sys2Proof.Machine

/-- Settles O13: a rounding lies between the values of two neighbouring codes, with no finite value between them, and takes one of the two
by its mode. -/
theorem roundingGivesTheRepresentableNeighbour : Obligations.RoundingGivesTheRepresentableNeighbour := by
  unfold Obligations.RoundingGivesTheRepresentableNeighbour
  intro f hf rm sat z d hrm hd x fl v le finite hof
  have hf := regular_of_mem hf
  obtain ⟨neg, a, k, n, hda, hx, hn, hr⟩ := FF.round_rounds hf hd hof
  have hlt := Nat.lt_of_le_of_lt hn hf.maxMag_bounds.2
  have hv : v.toRat = signed neg (f.magRat n) := by
    change (f.val (f.round rm sat z d).1).toRat = _
    rw [hx, FF.toRat_val_withSign hlt]
  have hgap := fun y => f.val_le_or_ge neg y k
  have hdist : ∀ y, absVal ((f.val y).toRat - d.toRat) = absVal (signed neg (f.val y).toRat - a) := fun y => by
    rw [← absVal_signed_sub_signed neg, hda, signed_signed]
  have hvdist : absVal (v.toRat - d.toRat) = absVal (f.magRat n - a) := by rw [hv, hda, absVal_signed_sub_signed]
  simp only [le, Dy.lt_eq_false_iff, Dy.lt_iff, Dy.toRat_abs, Dy.toRat_sub, hdist, hvdist]
  refine ⟨⟨?_, ?_⟩, ?_, fun y _ => ?_, ?_, ?_, ?_, fun hrm y _ => hr.nearest hrm (hgap y), ?_, ?_⟩
  · rw [show x = _ from hx]; exact FF.withSign_lt hlt neg
  · rw [show x = _ from hx]; exact FF.finite_withSign hf hn neg
  · rw [← Rat.le_antisymm_iff, hv, hda, signed_inj]
    exact hr.exact_iff
  · rw [hv, hda]
    exact not_between_signed (hr.none_between (hgap y))
  · rintro rfl
    have hle := hr.rtz_le
    have h0 := f.magRat_nonneg n
    rw [hv, hda, absVal_signed, absVal_signed, absVal_of_nonneg h0, absVal_of_nonneg (Std.le_trans h0 hle)]
    exact hle
  · rintro rfl
    rw [hv, hda]
    exact hr.rup_le
  · rintro rfl
    rw [hv, hda]
    exact hr.rdn_le
  · rintro rfl y - hnear hne
    rw [show x = _ from hx, FF.withSign_mod_two hf]
    refine hr.rne_even (hgap y) (fun heq => ?_) hnear
    rw [hv, ← heq, signed_signed] at hne
    exact hne.elim Rat.lt_irrefl Rat.lt_irrefl
  · rintro rfl y - hnear
    rw [hv, absVal_signed, ← absVal_signed neg]
    exact hr.rna_away (f.magRat_nonneg k) (hgap y) hnear
end

section
namespace Sys2Proof.Machine

/-! ## Finite sums -/

/-- The sum of f over the numbers below n. -/
def sumBelow (f : Nat → Rat) : Nat → Rat
  | 0 => 0
  | n + 1 => sumBelow f n + f n

theorem sumBelow_congr {f g : Nat → Rat} {n : Nat} (h : ∀ k < n, f k = g k) : sumBelow f n = sumBelow g n := by
  induction n with
  | zero => rfl
  | succ n ih => rw [sumBelow, sumBelow, ih fun k hk => h k (Nat.lt_succ_of_lt hk), h n (Nat.lt_succ_self n)]

theorem sumBelow_zero (n : Nat) : sumBelow (fun _ => 0) n = 0 := by
  induction n with
  | zero => rfl
  | succ n ih => rw [sumBelow, ih, Rat.add_zero]

theorem sumBelow_add (f g : Nat → Rat) (n : Nat) : sumBelow (fun k => f k + g k) n = sumBelow f n + sumBelow g n := by
  induction n with
  | zero => exact (Rat.add_zero 0).symm
  | succ n ih => rw [sumBelow, sumBelow, sumBelow, ih]; grind

theorem mul_sumBelow (c : Rat) (f : Nat → Rat) (n : Nat) : c * sumBelow f n = sumBelow (fun k => c * f k) n := by
  induction n with
  | zero => exact Rat.mul_zero c
  | succ n ih => rw [sumBelow, sumBelow, ← ih, Rat.mul_add]

theorem sumBelow_comm (f : Nat → Nat → Rat) (m n : Nat) :
    sumBelow (fun j => sumBelow (f j) n) m = sumBelow (fun k => sumBelow (fun j => f j k) m) n := by
  induction n with
  | zero => exact sumBelow_zero m
  | succ n ih => simp only [sumBelow, sumBelow_add, ih]

theorem sumBelow_single {f : Nat → Rat} {n k : Nat} (hk : k < n) (h : ∀ l < n, l ≠ k → f l = 0) : sumBelow f n = f k := by
  induction n with
  | zero => omega
  | succ n ih =>
    rw [sumBelow]
    by_cases hn : k = n
    · rw [hn, sumBelow_congr (g := fun _ => 0) fun l hl => h l (by omega) (by omega), sumBelow_zero, Rat.zero_add]
    · rw [ih (by omega) fun l hl => h l (by omega), h n (Nat.lt_succ_self n) (fun heq => hn heq.symm), Rat.add_zero]

theorem Dy.toRat_sum_range (x : Nat → Dy) (n : Nat) : (Dy.sum ((List.range n).map x)).toRat = sumBelow (fun k => (x k).toRat) n := by
  induction n with
  | zero => exact Dy.toRat_zero
  | succ n ih =>
    rw [Dy.sum] at ih ⊢
    rw [List.range_succ, List.map_append, List.foldl_append, List.map_singleton, List.foldl_cons, List.foldl_nil, Dy.toRat_add, ih]
    rfl

/-! ## The keyed Hadamard transform (R54, R55) -/

/-- Entry j, k of H_32. -/
def hadamardSign (j k : Nat) : Int := if hadamardNeg j k then -1 else 1

/-- The product of row k of H_32 and column l over the first n entries. -/
def hadamardDot (k l : Nat) : Nat → Int
  | 0 => 0
  | n + 1 => hadamardDot k l n + hadamardSign k n * hadamardSign n l

theorem hadamardDot_orthogonal : ∀ k < 32, ∀ l < 32, hadamardDot k l 32 = if k = l then 32 else 0 := by decide +kernel

theorem cast_hadamardDot (k l n : Nat) :
    (hadamardDot k l n : Rat) = sumBelow (fun j => (hadamardSign k j : Rat) * hadamardSign j l) n := by
  induction n with
  | zero => rfl
  | succ n ih => rw [hadamardDot, sumBelow, Rat.intCast_add, Rat.intCast_mul, ih]

/-- The values under the keyed signs. -/
def keyed (lo hi b : Word) (x : Nat → Dy) (k : Nat) : Dy := if keyedSign lo hi b (BitVec.ofNat 32 k) then (x k).neg else x k

theorem Dy.neg_neg (d : Dy) : d.neg.neg = d := by rw [Dy.neg, Dy.neg, Int.neg_neg]

theorem keyed_keyed (lo hi b : Word) (x : Nat → Dy) : keyed lo hi b (keyed lo hi b x) = x := by
  funext k
  unfold keyed
  split
  · exact Dy.neg_neg _
  · rfl

theorem toRat_keyed (lo hi b : Word) (x : Nat → Dy) (k : Nat) :
    (keyed lo hi b x k).toRat = signed (keyedSign lo hi b (BitVec.ofNat 32 k)) (x k).toRat := by
  rw [keyed, signed, apply_ite Dy.toRat, Dy.toRat_neg]

theorem zip_map_self {α β : Type} (f : α → β) (xs : List α) : (xs.map f).zip xs = xs.map fun k => (f k, k) := by
  induction xs with
  | nil => rfl
  | cons x xs ih => rw [List.map_cons, List.zip_cons_cons, ih, List.map_cons]

/-- Every row of H_32 over 32 values, times 2^e. -/
def hadamardRows (e : Int) (x : Nat → Dy) (j : Nat) : Dy := (hadamardRow j ((List.range 32).map x)).scale e

theorem toRat_hadamardRow (x : Nat → Dy) (j : Nat) :
    (hadamardRow j ((List.range 32).map x)).toRat = sumBelow (fun k => hadamardSign j k * (x k).toRat) 32 := by
  rw [hadamardRow, zip_map_self, List.map_map]
  refine (Dy.toRat_sum_range _ 32).trans (sumBelow_congr fun k _ => ?_)
  change (if hadamardNeg j k then (x k).neg else x k).toRat = _
  rw [hadamardSign]
  split
  · rw [Dy.toRat_neg]; grind
  · grind

theorem Dy.toRat_scale (d : Dy) (n : Nat) : (2 ^ n : Nat) * (d.scale (-n)).toRat = d.toRat := by
  have hexp : pow2 d.e = (2 ^ n : Nat) * pow2 (d.e + -n) := by
    rw [← pow2_add]
    exact congrArg pow2 (by omega)
  rw [Dy.toRat, Dy.toRat, hexp]
  change _ * (d.m * pow2 (d.e + -n)) = _
  grind

/-- H_32 taken twice is 32 times the identity. -/
theorem sumBelow_hadamard_twice (y : Nat → Rat) {k : Nat} (hk : k < 32) :
    sumBelow (fun j => hadamardSign k j * sumBelow (fun l => hadamardSign j l * y l) 32) 32 = 32 * y k := by
  have hcol : ∀ l, sumBelow (fun j => (hadamardSign k j : Rat) * (hadamardSign j l * y l)) 32 = y l * hadamardDot k l 32 := fun l => by
    rw [cast_hadamardDot, mul_sumBelow]
    exact sumBelow_congr fun j _ => by grind
  have hother : ∀ l < 32, l ≠ k → y l * (hadamardDot k l 32 : Rat) = 0 := fun l hl hne => by
    rw [hadamardDot_orthogonal k hk l hl, if_neg hne.symm]
    exact Rat.mul_zero _
  calc sumBelow (fun j => hadamardSign k j * sumBelow (fun l => hadamardSign j l * y l) 32) 32
      = sumBelow (fun j => sumBelow (fun l => (hadamardSign k j : Rat) * (hadamardSign j l * y l)) 32) 32 :=
        sumBelow_congr fun j _ => mul_sumBelow _ _ _
    _ = sumBelow (fun l => y l * hadamardDot k l 32) 32 := by rw [sumBelow_comm]; exact sumBelow_congr fun l _ => hcol l
    _ = y k * hadamardDot k k 32 := sumBelow_single hk hother
    _ = 32 * y k := by rw [hadamardDot_orthogonal k hk k hk, if_pos rfl, Rat.mul_comm]; rfl

theorem toRat_hadamardRows (n : Nat) (x : Nat → Dy) (j : Nat) :
    (2 ^ n : Nat) * (hadamardRows (-n) x j).toRat = sumBelow (fun k => hadamardSign j k * (x k).toRat) 32 := by
  rw [hadamardRows, Dy.toRat_scale, toRat_hadamardRow]

/-- The scales 2^−p and 2^−q undo the 32 that H_32 taken twice leaves, where p + q = 5. -/
theorem toRat_hadamardRows_twice {p q : Nat} (hpq : 2 ^ p * 2 ^ q = 32) (x : Nat → Dy) {k : Nat} (hk : k < 32) :
    (hadamardRows (-q) (hadamardRows (-p) x) k).toRat = (x k).toRat := by
  have hscale : ((2 ^ p : Nat) : Rat) * (2 ^ q : Nat) = 32 := by rw [← Rat.natCast_mul, hpq]; rfl
  have htwice : (2 ^ p : Nat) * ((2 ^ q : Nat) * (hadamardRows (-q) (hadamardRows (-p) x) k).toRat) = 32 * (x k).toRat := by
    rw [toRat_hadamardRows, mul_sumBelow, ← sumBelow_hadamard_twice (fun l => (x l).toRat) hk]
    exact sumBelow_congr fun j _ => by rw [← toRat_hadamardRows p]; grind
  grind

theorem hadamard_map (lo hi b : Word) (x : Nat → Dy) :
    hadamard lo hi b ((List.range 32).map x) = (List.range 32).map (hadamardRows (-3) (keyed lo hi b x)) := by
  rw [hadamard, zip_map_self, List.map_map]
  rfl

theorem hadamardInv_map (lo hi b : Word) (y : Nat → Dy) :
    hadamardInv lo hi b ((List.range 32).map y) = (List.range 32).map (keyed lo hi b (hadamardRows (-2) y)) := rfl

theorem isZero_sub_of_toRat_eq {a b : Dy} (h : a.toRat = b.toRat) : (a.sub b).isZero = true := by
  rw [Dy.isZero_iff, Dy.toRat_sub, h, Rat.sub_self]

theorem hadamardInv_hadamard (lo hi b : Word) (x : Nat → Dy) {k : Nat} (hk : k < 32) :
    ∃ v : Nat → Dy, hadamardInv lo hi b (hadamard lo hi b ((List.range 32).map x)) = (List.range 32).map v ∧
      (v k).toRat = (x k).toRat := by
  refine ⟨_, by rw [hadamard_map, hadamardInv_map], ?_⟩
  have htwice := toRat_hadamardRows_twice (p := 3) (q := 2) rfl (keyed lo hi b x) hk
  rw [toRat_keyed] at htwice ⊢
  exact (congrArg (signed _) htwice).trans (signed_signed _ _)

theorem hadamard_hadamardInv (lo hi b : Word) (x : Nat → Dy) {k : Nat} (hk : k < 32) :
    ∃ v : Nat → Dy, hadamard lo hi b (hadamardInv lo hi b ((List.range 32).map x)) = (List.range 32).map v ∧
      (v k).toRat = (x k).toRat := by
  refine ⟨_, by rw [hadamardInv_map, hadamard_map, keyed_keyed], ?_⟩
  exact toRat_hadamardRows_twice (p := 2) (q := 3) rfl _ hk

theorem eq_map_range_getD {α : Type} {xs : List α} {n : Nat} (d : α) (h : xs.length = n) :
    xs = (List.range n).map fun k => xs.getD k d := by
  refine List.ext_getElem (by rw [List.length_map, List.length_range, h]) fun i hi _ => ?_
  rw [List.getElem_map, List.getElem_range, List.getD_eq_getElem?_getD, List.getElem?_eq_getElem hi, Option.getD_some]

theorem getD_map_range {α : Type} {n k : Nat} (v : Nat → α) (d : α) (hk : k < n) : ((List.range n).map v).getD k d = v k := by
  rw [List.getD_eq_getElem?_getD, List.getElem?_map, List.getElem?_range hk, Option.map_some, Option.getD_some]

end Sys2Proof.Machine
end

section
namespace Sys2Proof.Machine

/-! ## One word a lane -/

theorem writeN_word (s : State) (d : Nat) (xs : List (Nat × Nat)) :
    writeN s false d xs = writeV s d (xs.map fun x => (x.1, BitVec.ofNat 32 x.2)) := rfl

/-- Lanes of one register are written modulo 2^32. -/
theorem WritesLanes.congr_word {i : Instr} {s : State} {d : Nat} {ls : List Nat} {f g : Nat → Nat} {fl fl' : Nat}
    (h : WritesLanes i s false d ls f fl) (hf : ∀ k ∈ ls, f k % 2 ^ 32 = g k % 2 ^ 32) (hfl : fl = fl') :
    WritesLanes i s false d ls g fl' := by
  subst hfl
  obtain ⟨t, hexec, honly, hrest, hscalars, hpreds, hlanes, -, hothers⟩ := h
  refine ⟨t, hexec, honly, hrest, hscalars, hpreds, fun k hk => ?_, fun hw => absurd hw Bool.false_ne_true, hothers⟩
  rw [hlanes k hk]
  exact landedAt_congr fun hm => BitVec.eq_of_toNat_eq (by rw [BitVec.toNat_ofNat, BitVec.toNat_ofNat, hf k hm])

/-- An instruction built with `laneOp` that gives each lane one word. -/
theorem laneResults_of_laneOp_word {i : Instr} {s : State} {unit g d : Nat} {f : Nat → Nat × Nat}
    (h : operandCause i s = none → exec i s = .next (laneOp s unit g false d f)) : LaneResults i s g false d 32 1 fun k _ => f k := by
  intro hc r fl hr hfl hen
  have hflag : ∀ k ∈ active s g, (f k).2 = fl k := fun k hk => ((hfl k hk).trans (Nat.zero_or _)).symm
  refine (writesLanes_of_laneOp (fun k hk => ?_) (h hc)).congr_word (fun k hk => ?_) (foldl_or_congr hflag 0)
  · rw [hflag k hk]
    exact hen k hk
  · have helem := (hr k hk).2 0 Nat.one_pos
    rw [elem, Nat.mul_zero, Nat.pow_zero, Nat.div_one] at helem
    exact helem.symm

theorem exec_vq8 {u : V2} {r q rm : Nat} {sat : Bool} {s : State} (hc : operandCause (.vq8 u r q rm sat) s = none) :
    exec (.vq8 u r q rm sat) s = .next (laneOp s (ffUnit (ffXf q)) u.g false u.d fun i =>
      quant8 (ffXf q) (roundMode s rm) sat (readV s u.a i).toNat ((readV s r i).toNat % 256)) := by
  change execVq8 u r q rm sat s = _
  rw [execVq8, checked_none hc]

theorem exec_vdq {u : V2} {r q : Nat} {s : State} (hc : operandCause (.vdq u r q) s = none) :
    exec (.vdq u r q) s = .next (laneOp s 3 u.g false u.d fun i =>
      dequant8 (ffXf q) ((readV s u.a i).toNat % 256) ((readV s r i).toNat % 256)) := by
  change execVdq u r q s = _
  rw [execVdq, checked_none hc]

/-! ## Lanes in groups -/

/-- The n consecutive lanes of group m. -/
def groupLanes (n m : Nat) : List Nat := (List.range n).map fun k => n * m + k

theorem div_of_mem_groupLanes {n m i : Nat} (h : i ∈ groupLanes n m) : i / n = m ∧ i - n * m = i % n := by
  obtain ⟨k, hk, rfl⟩ := List.mem_map.1 h
  have hk := List.mem_range.1 hk
  rw [Nat.mul_add_div (by omega), Nat.div_eq_of_lt hk, Nat.mul_add_mod, Nat.mod_eq_of_lt hk]
  omega

theorem flatten_groupLanes (n c : Nat) : ((List.range c).map (groupLanes n)).flatten = List.range (n * c) := by
  induction c with
  | zero => rfl
  | succ c ih =>
    rw [List.range_succ, List.map_append, List.flatten_append, ih, Nat.mul_succ, List.range_add, List.map_singleton,
      List.flatten_singleton, groupLanes]

/-- What the groups' lanes under a mask give, one after the other, is what the team's lanes under it give. -/
theorem flatten_groups {α : Type} {n lanes : Nat} (h : lanes % n = 0) (m : Lanes) (f : Nat → α) :
    ((List.range (lanes / n)).map fun gr => ((groupLanes n gr).filter fun i => m.getLsbD i).map f).flatten = (lanesOf m lanes).map f := by
  have hlanes : n * (lanes / n) = lanes := Nat.mul_div_cancel' (Nat.dvd_of_mod_eq_zero h)
  rw [lanesOf, ← hlanes, ← flatten_groupLanes, List.filter_flatten, List.map_flatten, List.map_map, List.map_map, hlanes]
  rfl

theorem filterMap_guard {α : Type} (p : Nat → Bool) (f : Nat → α) (xs : List Nat) :
    (xs.filterMap fun i => if p i then some (f i) else none) = (xs.filter p).map f := by
  induction xs with
  | nil => rfl
  | cons x xs ih =>
    by_cases hp : p x = true
    · simp only [List.filterMap_cons, List.filter_cons, hp, if_true, List.map_cons, ih]
    · simp only [List.filterMap_cons, List.filter_cons, hp, Bool.false_eq_true, if_false, ih]

/-- A group's Active lanes, as the instructions on groups list them. -/
theorem filterMap_groupLanes (p : Nat → Bool) (n m : Nat) :
    ((List.range n).filterMap fun k => if p (n * m + k) then some (n * m + k) else none) = (groupLanes n m).filter p := by
  have h := filterMap_guard p id (groupLanes n m)
  rwa [List.map_id, groupLanes, List.filterMap_map] at h

theorem finish_eq_laneOp {s : State} {unit g d : Nat} {f : Nat → Nat × Nat} {out : List LaneOut}
    (h : out = (active s g).map fun i => (i, f i)) :
    (finish s unit out fun s => writeV s d (out.map fun x => (x.1, BitVec.ofNat 32 x.2.1))) = laneOp s unit g false d f := by
  simp only [laneOp, ← h, writeN_word, resultsOf, List.map_map, Function.comp_def]

/-! ## VBSD (R137, R138) -/

/-- The exact scaled sum of a group of eight lanes. -/
def vbsdGroup (s : State) (o : V3) (q gr : Nat) : El × Bool :=
  let scaleLane := gr / (s.block.w / 8) * s.block.w + (q % 64 + gr % (s.block.w / 8))
  vbsdSum (if o.t = 0 then ffE4M3 else ffE5M2)
    (byteOf (readV s (o.a + 1) scaleLane).toNat (q / 64 % 4)) (byteOf (readV s (o.b + 1) scaleLane).toNat (q / 64 % 4))
    (((groupLanes 8 gr).filter fun i => (guarded s o.g).getLsbD i).flatMap fun i => (List.range 4).map fun k =>
      (byteOf (readV s o.a i).toNat k, byteOf (readV s o.b i).toNat k))

/-- What a lane gets: its accumulator and its group's sum, with one rounding. -/
def vbsdLane (s : State) (o : V3) (r q mode k : Nat) : Nat × Nat :=
  let c := (readV s r k).toNat
  let inv := if (vbsdGroup s o q (k / 8)).2 then 1 else 0
  if ffF32.isNaN c then (ffF32.quiet c, orNat inv (if ffF32.isSig c then 1 else 0))
  else
    let x := ffF32.accumulate mode c (vbsdGroup s o q (k / 8)).1
    (x.1, orNat inv x.2)

theorem sigFlag_singleton (f : FF) (c : Nat) : f.sigFlag [c] = if f.isSig c then 1 else 0 := by
  rw [FF.sigFlag, List.any_cons, List.any_nil, Bool.or_false, flagNV]

theorem exec_vbsd {o : V3} {r q rm : Nat} {s : State} (hl : s.block.lanes % 8 = 0) (hc : operandCause (.vbsd o r q rm) s = none) :
    exec (.vbsd o r q rm) s = .next (laneOp s 3 o.g false o.d (vbsdLane s o r q (roundMode s rm))) := by
  change execVbsd o r q rm s = _
  rw [execVbsd, checked_none hc]
  refine congrArg Host.Outcome.next (finish_eq_laneOp ?_)
  rw [active, ← flatten_groups hl]
  refine congrArg List.flatten (List.map_congr_left fun gr _ => ?_)
  rw [filterMap_groupLanes]
  refine List.map_congr_left fun i hi => ?_
  obtain ⟨rfl, -⟩ := div_of_mem_groupLanes (List.mem_filter.1 hi).1
  rw [vbsdLane, ← sigFlag_singleton]
  exact (apply_ite (Prod.mk i) _ _ _).symm

/-! ## VHQ (R134, R135) -/

/-- The quantised block m: an inactive lane counts as zero. -/
def vhqOf (s : State) (o : V3) (r q m : Nat) : List Nat × Nat × Nat × Nat :=
  vhqBlock q (readS s r) (readV s o.b (32 * m)) ((List.range 32).map fun k =>
    if (guarded s o.g).getLsbD (32 * m + k) then (readV s o.a (32 * m + k)).toNat else 0)

/-- The word of a lane's block that stands in the lane, and the block's flags. -/
def vhqLane (s : State) (o : V3) (r q k : Nat) : Nat × Nat :=
  let block := vhqOf s o r q (k / 32)
  (q4Word block.1 block.2.1 block.2.2.1 (k % 32), block.2.2.2)

theorem filter_activeAll (s : State) (g : Nat) : ((activeAll s).filter fun i => (guarded s g).getLsbD i) = active s g := by
  rw [activeAll, active, lanesOf, lanesOf, List.filter_filter]
  congr 1
  funext i
  rw [guarded]
  split
  · rw [BitVec.getLsbD_and, Bool.and_comm, ← Bool.and_assoc, Bool.and_self]
  · exact Bool.and_self _

theorem finish_filter_eq {s : State} {unit g d : Nat} {f : Nat → Nat × Nat} {out : List LaneOut}
    (h : out = (activeAll s).map fun k => (k, f k)) :
    (finish s unit out fun s' => writeV s' d ((out.filter fun x => (guarded s g).getLsbD x.1).map fun x => (x.1, BitVec.ofNat 32 x.2.1))) =
      finish s unit ((activeAll s).map fun k => (k, f k)) fun s' => writeN s' false d ((active s g).map fun k => (k, (f k).1)) := by
  subst h
  simp only [writeN_word, ← filter_activeAll, List.filter_map, List.map_map, Function.comp_def]

/-- A block without a lane in the mask gives what its lanes in the mask give: nothing. -/
theorem filterMap_of_any {α : Type} (p : Nat → Bool) (f : Nat → α) (xs : List Nat) :
    (if xs.any p then xs.filterMap fun i => if p i then some (f i) else none else []) = (xs.filter p).map f := by
  rw [filterMap_guard]
  split
  · rfl
  · next h => rw [List.filter_eq_nil_iff.2 fun x hx hp => h (List.any_eq_true.2 ⟨x, hx, hp⟩), List.map_nil]

theorem exec_vhq {o : V3} {r q : Nat} {s : State} (hl : s.block.lanes % 32 = 0) (hc : operandCause (.vhq o r q) s = none) :
    exec (.vhq o r q) s = .next (finish s 7 ((activeAll s).map fun k => (k, vhqLane s o r q k)) fun s' =>
      writeN s' false o.d ((active s o.g).map fun k => (k, (vhqLane s o r q k).1))) := by
  change execVhq o r q s = _
  rw [execVhq, checked_none hc]
  refine congrArg Host.Outcome.next (finish_filter_eq ?_)
  rw [activeAll, ← flatten_groups hl]
  refine congrArg List.flatten (List.map_congr_left fun m _ => ?_)
  refine (filterMap_of_any s.src.mask.getLsbD _ (groupLanes 32 m)).trans (List.map_congr_left fun i hi => ?_)
  obtain ⟨rfl, hi⟩ := div_of_mem_groupLanes (List.mem_filter.1 hi).1
  rw [vhqLane, ← hi]
  simp only [vhqOf, List.map_map, Function.comp_def]

theorem writesLanes_vhq {o : V3} {r q : Nat} {s : State} (hl : s.block.lanes % 32 = 0) (hc : operandCause (.vhq o r q) s = none)
    (hen : ∀ k ∈ activeAll s, Nat.land (enables s) (vhqLane s o r q k).2 = 0) :
    WritesLanes (.vhq o r q) s false o.d (active s o.g) (fun k => (vhqLane s o r q k).1)
      ((activeAll s).foldl (fun a k => orNat a (vhqLane s o r q k).2) 0) := by
  rw [← allFlags_map]
  refine writesLanes_of_finish (fun _ => active_lt) (fun x hx => ?_) (exec_vhq hl hc)
  obtain ⟨k, hk, rfl⟩ := List.mem_map.1 hx
  exact hen k hk

end Sys2Proof.Machine
open Sys2Proof Sys2Proof.Machine

/-- Settles O16: the quantising instructions as what each lane gets, and the transform as H_32 taken twice. -/
theorem quantisingAndTheKeyedTransform : Obligations.QuantisingAndTheKeyedTransform := by
  unfold Obligations.QuantisingAndTheKeyedTransform
  refine ⟨fun s u o r q rm sat => ⟨?_, ?_, fun hl => ?_, fun hl hc => writesLanes_vhq hl hc⟩, fun lo hi b xs k hlen hk => ?_⟩
  · exact laneResults_of_laneOp_word exec_vq8
  · exact laneResults_of_laneOp_word exec_vdq
  · exact laneResults_of_laneOp_word (exec_vbsd hl)
  · rw [eq_map_range_getD Dy.zero hlen]
    obtain ⟨v, hv, hvk⟩ := hadamardInv_hadamard lo hi b (fun k => xs.getD k Dy.zero) hk
    obtain ⟨w, hw, hwk⟩ := hadamard_hadamardInv lo hi b (fun k => xs.getD k Dy.zero) hk
    rw [hv, hw, getD_map_range _ _ hk, getD_map_range _ _ hk, getD_map_range _ _ hk]
    exact ⟨isZero_sub_of_toRat_eq hvk, isZero_sub_of_toRat_eq hwk⟩
end

section
namespace Sys2Proof.Machine

/-! ## Checked instructions -/

/-- An instruction that nothing but its operands may stop does its work where they are in order. -/
theorem exec_of_checked {i : Instr} {s : State} {k : State → State} (hc : operandCause i s = none)
    (h : exec i s = .next (checked (operandCause i s) s k)) : exec i s = .next (k s) := by
  rw [h, checked_none hc]

/-- One with a check of its own before the operands' does its work where both pass. -/
theorem exec_of_need_true {i : Instr} {s : State} {k : State → State} {b : Bool} {c : Nat} (hb : b = true) (hc : operandCause i s = none)
    (h : exec i s = .next (checked ((need b c).or (operandCause i s)) s k)) : exec i s = .next (k s) := by
  rw [h, need_true hb, Option.none_or, checked_none hc]

/-- Its own check comes first. -/
theorem raises_of_need_false {i : Instr} {s : State} {k : State → State} {b : Bool} {c : Nat} (hb : b = false)
    (h : exec i s = .next (checked ((need b c).or (operandCause i s)) s k)) : Raises i s (causeOf c) := by
  rw [Raises, h, need_false hb, Option.some_or, checked_some rfl, raiseCode]

/-! ## Registers as numbers -/

/-- The width of a register or of a pair. -/
def regWidth (wide : Bool) : Nat := if wide then 64 else 32

theorem regWidth_beq_three (t : Nat) : regWidth (t == 3) = if t = 3 then 64 else 32 := by
  simp only [regWidth, beq_iff_eq]

theorem readN_lt (s : State) (wide : Bool) (k i : Nat) : readN s wide k i < 2 ^ regWidth wide := by
  cases wide
  · exact (readV s k i).isLt
  · exact (readV64 s k i).isLt

theorem elem_zero (w x : Nat) : elem w x 0 = x % 2 ^ w := by
  rw [elem, Nat.mul_zero, Nat.pow_zero, Nat.div_one]

@[simp] theorem toNat_ofNat_elem (w x e : Nat) : (BitVec.ofNat w (elem w x e)).toNat = elem w x e := by
  rw [BitVec.toNat_ofNat, elem, Nat.mod_mod]

/-! ## One whole register a lane -/

/-- Of a value written to a register or to a pair only its low bits count. -/
theorem WritesLanes.congr_mod {i : Instr} {s : State} {wide : Bool} {d : Nat} {ls : List Nat} {f g : Nat → Nat} {fl fl' : Nat}
    (h : WritesLanes i s wide d ls f fl) (hf : ∀ k ∈ ls, f k % 2 ^ regWidth wide = g k % 2 ^ regWidth wide) (hfl : fl = fl') :
    WritesLanes i s wide d ls g fl' := by
  cases wide with
  | false => exact h.congr_word hf hfl
  | true =>
    have hlow : ∀ k ∈ ls, f k % 2 ^ 32 = g k % 2 ^ 32 := fun k hk => by
      have := hf k hk
      simp only [regWidth, if_true] at this
      omega
    have hhigh : ∀ k ∈ ls, f k / 2 ^ 32 % 2 ^ 32 = g k / 2 ^ 32 % 2 ^ 32 := fun k hk => by
      have := hf k hk
      simp only [regWidth, if_true] at this
      omega
    subst hfl
    obtain ⟨t, hexec, honly, hrest, hscalars, hpreds, hlanes, hpair, hothers⟩ := h
    refine ⟨t, hexec, honly, hrest, hscalars, hpreds, fun k hk => ?_, fun _ k hk => ?_, hothers⟩
    · rw [hlanes k hk]
      exact landedAt_congr fun hm => BitVec.eq_of_toNat_eq (by rw [BitVec.toNat_ofNat, BitVec.toNat_ofNat, hlow k hm])
    · rw [hpair rfl k hk]
      exact landedAt_congr fun hm => BitVec.eq_of_toNat_eq (by rw [BitVec.toNat_ofNat, BitVec.toNat_ofNat, hhigh k hm])

theorem foldl_orNat_zero (ls : List Nat) : ls.foldl (fun a _ => orNat a 0) 0 = 0 := by
  induction ls with
  | nil => rfl
  | cons k ls ih => exact ih

/-- One element as wide as the register is what the lane gets. -/
theorem laneResults_of_writesLanes {i : Instr} {s : State} {g : Nat} {wide : Bool} {d w : Nat} {f : Nat → Nat × Nat}
    (hw : regWidth wide = w)
    (h : operandCause i s = none → (∀ k ∈ active s g, Nat.land (enables s) (f k).2 = 0) →
      WritesLanes i s wide d (active s g) (fun k => (f k).1) ((active s g).foldl (fun a k => orNat a (f k).2) 0)) :
    LaneResults i s g wide d w 1 fun k _ => f k := by
  subst hw
  intro hc r fl hr hfl hen
  have hflag : ∀ k ∈ active s g, (f k).2 = fl k := fun k hk => ((hfl k hk).trans (Nat.zero_or _)).symm
  refine (h hc fun k hk => ?_).congr_mod (fun k hk => ?_) (foldl_or_congr hflag 0)
  · rw [hflag k hk]
    exact hen k hk
  · rw [← elem_zero _ (r k)]
    exact ((hr k hk).2 0 Nat.one_pos).symm

theorem laneResults_of_laneOp_whole {i : Instr} {s : State} {unit g : Nat} {wide : Bool} {d w : Nat} {f : Nat → Nat × Nat}
    (hw : regWidth wide = w) (h : operandCause i s = none → exec i s = .next (laneOp s unit g wide d f)) :
    LaneResults i s g wide d w 1 fun k _ => f k :=
  laneResults_of_writesLanes hw fun hc hen => writesLanes_of_laneOp hen (h hc)

theorem laneResults_of_laneSet_whole {i : Instr} {s : State} {g : Nat} {wide : Bool} {d w : Nat} {f : Nat → Nat}
    (hw : regWidth wide = w) (h : operandCause i s = none → exec i s = .next (laneSet s g wide d f)) :
    LaneResults i s g wide d w 1 fun k _ => (f k, 0) :=
  laneResults_of_writesLanes hw fun hc _ => (writesLanes_of_laneSet (h hc)).congr (fun _ _ => rfl) (foldl_orNat_zero _).symm

/-- What an elementwise instruction gives is fixed by the elements that its operands have. -/
theorem LaneResults.congr {i : Instr} {s : State} {g : Nat} {wide : Bool} {d w n : Nat} {f f' : Nat → Nat → Nat × Nat}
    (h : LaneResults i s g wide d w n f) (hf : ∀ k e, e < n → f k e = f' k e) : LaneResults i s g wide d w n f' := by
  intro hc r fl hr hfl hen
  refine h hc r fl (fun k hk => ⟨(hr k hk).1, fun e he => ?_⟩) (fun k hk => (hfl k hk).trans ?_) hen
  · rw [(hr k hk).2 e he, hf k e he]
  · exact foldl_or_congr (fun e he => by rw [hf k e (List.mem_range.1 he)]) 0

/-! ## Predicates -/

theorem WritesPred.congr {i : Instr} {s : State} {d : Nat} {ls : List Nat} {f g : Nat → Bool} {fl : Nat} (h : WritesPred i s d ls f fl)
    (hf : ∀ k ∈ ls, f k = g k) : WritesPred i s d ls g fl := by
  obtain ⟨t, hexec, honly, hrest, hscalars, hlanes, hpred, hothers⟩ := h
  exact ⟨t, hexec, honly, hrest, hscalars, hlanes, fun k hk => by rw [hpred k hk]; exact landedAt_congr (hf k), hothers⟩

end Sys2Proof.Machine
end

section
namespace Sys2Proof.Machine

/-! ## Numbers of the model as bit vectors -/

theorem sgn_eq_toInt (w x : Nat) : sgn w x = (BitVec.ofNat w x).toInt := by
  have hhalf : x % 2 ^ w < 2 ^ (w - 1) ↔ 2 * (x % 2 ^ w) < 2 ^ w := by
    cases w with
    | zero => rw [Nat.pow_zero, Nat.mod_one]
    | succ w => rw [Nat.pow_succ, Nat.succ_sub_one]; omega
  simp only [sgn, hhalf, BitVec.toInt_eq_toNat_cond, BitVec.toNat_ofNat, Int.natCast_pow, Int.cast_ofNat_Int]

@[simp] theorem sgn_toNat {w : Nat} (a : BitVec w) : sgn w a.toNat = a.toInt := by
  rw [sgn_eq_toInt, BitVec.ofNat_toNat, BitVec.setWidth_eq]

theorem toNat_emod_two_pow (w : Nat) (v : Int) : (v % (2 : Int) ^ w).toNat = (BitVec.ofInt w v).toNat := by
  rw [BitVec.toNat_ofInt, Int.natCast_pow, Int.cast_ofNat_Int]

theorem clampInt_eq (w : Nat) (v : Int) :
    clampInt w v = if v < -(2 : Int) ^ (w - 1) then (2 ^ (w - 1), 64) else if (2 : Int) ^ (w - 1) - 1 < v then (2 ^ (w - 1) - 1, 64)
      else ((BitVec.ofInt w v).toNat, 0) := by
  have hlast : (2 : Int) ^ (w - 1) ≤ v ↔ (2 : Int) ^ (w - 1) - 1 < v := by omega
  simp only [clampInt, flagIOF, toNat_emod_two_pow, hlast]

/-! ## Two-source elements (R109) -/

theorem elemVadd_toNat {w : Nat} (a b : BitVec w) : elemVadd w a.toNat b.toNat = (a + b).toNat := rfl

theorem elemVsub_toNat {w : Nat} (a b : BitVec w) : elemVsub w a.toNat b.toNat = (a - b).toNat := by
  rw [elemVsub, BitVec.toNat_sub, Nat.add_comm]

theorem elemVmul_toNat {w : Nat} (a b : BitVec w) : elemVmul w a.toNat b.toNat = (a * b).toNat := by
  rw [elemVmul, BitVec.toNat_mul]

theorem elemVmulh_toNat {w : Nat} (a b : BitVec w) :
    elemVmulh w a.toNat b.toNat = (BitVec.ofInt w (a.toInt * b.toInt / 2 ^ w)).toNat := by
  rw [elemVmulh, sgn_toNat, sgn_toNat, toNat_emod_two_pow]

theorem elemVand_toNat {w : Nat} (a b : BitVec w) : elemVand w a.toNat b.toNat = (a &&& b).toNat := rfl
theorem elemVor_toNat {w : Nat} (a b : BitVec w) : elemVor w a.toNat b.toNat = (a ||| b).toNat := rfl
theorem elemVxor_toNat {w : Nat} (a b : BitVec w) : elemVxor w a.toNat b.toNat = (a ^^^ b).toNat := rfl

theorem elemVshl_toNat {w : Nat} (a b : BitVec w) : elemVshl w a.toNat b.toNat = (a <<< (b.toNat % w)).toNat := by
  rw [elemVshl, BitVec.toNat_shiftLeft, Nat.shiftLeft_eq]

theorem elemVshr_toNat {w : Nat} (a b : BitVec w) : elemVshr w a.toNat b.toNat = (a >>> (b.toNat % w)).toNat := by
  rw [elemVshr, BitVec.toNat_ushiftRight, Nat.shiftRight_eq_div_pow]

theorem elemVsar_toNat {w : Nat} (a b : BitVec w) :
    elemVsar w a.toNat b.toNat = (BitVec.ofInt w (a.toInt / 2 ^ (b.toNat % w))).toNat := by
  rw [elemVsar, sgn_toNat, toNat_emod_two_pow]

theorem elemVmin_toNat {w : Nat} (a b : BitVec w) : elemVmin w a.toNat b.toNat = (if a.toInt < b.toInt then a else b).toNat := by
  rw [elemVmin, sgn_toNat, sgn_toNat, apply_ite BitVec.toNat]

theorem elemVmax_toNat {w : Nat} (a b : BitVec w) : elemVmax w a.toNat b.toNat = (if a.toInt < b.toInt then b else a).toNat := by
  rw [elemVmax, sgn_toNat, sgn_toNat, apply_ite BitVec.toNat]

theorem elemVminu_toNat {w : Nat} (a b : BitVec w) : elemVminu w a.toNat b.toNat = (if a.toNat < b.toNat then a else b).toNat := by
  rw [elemVminu, apply_ite BitVec.toNat]

theorem elemVmaxu_toNat {w : Nat} (a b : BitVec w) : elemVmaxu w a.toNat b.toNat = (if a.toNat < b.toNat then b else a).toNat := by
  rw [elemVmaxu, apply_ite BitVec.toNat]

/-! ## One-source elements (R111) -/

theorem elemVneg_toNat {w : Nat} (a : BitVec w) : elemVneg w a.toNat = (-a).toNat := by
  rw [elemVneg, BitVec.toNat_neg]

theorem elemVabs_toNat {w : Nat} (a : BitVec w) : elemVabs w a.toNat = if a.toInt < 0 then (-a).toNat else a.toNat := by
  rw [elemVabs, sgn_toNat, BitVec.toNat_neg]

theorem popCount_eq_length_filter (x w : Nat) : popCount x w = ((List.range w).filter fun j => x.testBit j).length := by
  induction w with
  | zero => rfl
  | succ w ih =>
    rw [popCount, ih, ← Nat.toNat_testBit, List.range_succ, List.filter_append, List.length_append]
    cases h : x.testBit w <;> simp [h]

theorem elemVpopc_toNat {w : Nat} (a : BitVec w) : elemVpopc w a.toNat = ((List.range w).filter fun j => a.getLsbD j).length :=
  popCount_eq_length_filter a.toNat w

/-- The count of leading zeros is the number of clear bits above the highest set one. -/
theorem elemVclz_toNat {w c : Nat} {a : BitVec w} (hc : c ≤ w) (hzero : ∀ j, j < w → w - c ≤ j → a.getLsbD j = false)
    (hone : c < w → a.getLsbD (w - 1 - c) = true) : elemVclz w a.toNat = c := by
  have hclear : ∀ j, w - c ≤ j → a.toNat.testBit j = false := fun j hj => by
    by_cases hw : j < w
    · exact hzero j hw hj
    · exact a.getLsbD_of_ge j (Nat.le_of_not_lt hw)
  have hlt : a.toNat < 2 ^ (w - c) := Nat.lt_pow_two_of_testBit _ hclear
  rw [elemVclz, leadingZeros, Nat.mod_eq_of_lt a.isLt]
  by_cases hw : c < w
  · have hge : 2 ^ (w - 1 - c) ≤ a.toNat := Nat.ge_two_pow_of_testBit (hone hw)
    have hne : a.toNat ≠ 0 := Nat.ne_of_gt (Nat.lt_of_lt_of_le (Nat.two_pow_pos _) hge)
    have hlog : a.toNat.log2 = w - 1 - c := (Nat.log2_eq_iff hne).2 ⟨hge, by rwa [show w - 1 - c + 1 = w - c by omega]⟩
    rw [if_neg hne, hlog]
    omega
  · have hcw : w - c = 0 := by omega
    rw [hcw, Nat.pow_zero] at hlt
    rw [if_pos (by omega)]
    omega

/-! ## Instructions on every element -/

theorem laneResults_vecTwo {i : Instr} {s : State} {o : V3} {f : Nat → Nat → Nat → Nat}
    {g : BitVec (intWidth o.t) → BitVec (intWidth o.t) → BitVec (intWidth o.t)}
    (hf : ∀ a b : BitVec (intWidth o.t), f (intWidth o.t) a.toNat b.toNat = (g a b).toNat)
    (h : operandCause i s = none → exec i s = .next (vecTwo f o s)) :
    LaneResults i s o.g (o.t == 3) o.d (intWidth o.t) (elemCount o.t (intWidth o.t)) fun k e =>
      ((g (BitVec.ofNat _ (elem (intWidth o.t) (readN s (o.t == 3) o.a k) e))
        (BitVec.ofNat _ (elem (intWidth o.t) (readN s (o.t == 3) o.b k) e))).toNat, 0) := by
  refine laneResults_of_laneSet fun hc => (h hc).trans ?_
  simp only [vecTwo, elemwise2, ← hf, toNat_ofNat_elem]

theorem laneResults_vecOne {i : Instr} {s : State} {o : V2} {f : Nat → Nat → Nat} {g : Nat → Nat → Nat}
    (hf : ∀ k e, f (intWidth o.t) (elem (intWidth o.t) (readN s (o.t == 3) o.a k) e) = g k e)
    (h : operandCause i s = none → exec i s = .next (vecOne f o s)) :
    LaneResults i s o.g (o.t == 3) o.d (intWidth o.t) (elemCount o.t (intWidth o.t)) fun k e => (g k e, 0) := by
  refine laneResults_of_laneSet fun hc => (h hc).trans ?_
  simp only [vecOne, elemwise1, hf]

/-- The same with the element's bit vector for its number. -/
theorem laneResults_vecOne_toNat {i : Instr} {s : State} {o : V2} {f : Nat → Nat → Nat} {g : BitVec (intWidth o.t) → Nat}
    (hf : ∀ a : BitVec (intWidth o.t), f (intWidth o.t) a.toNat = g a) (h : operandCause i s = none → exec i s = .next (vecOne f o s)) :
    LaneResults i s o.g (o.t == 3) o.d (intWidth o.t) (elemCount o.t (intWidth o.t)) fun k e =>
      (g (BitVec.ofNat _ (elem (intWidth o.t) (readN s (o.t == 3) o.a k) e)), 0) :=
  laneResults_vecOne (fun k e => by rw [← hf, toNat_ofNat_elem]) h

theorem laneResults_vecSat {i : Instr} {s : State} {o : V3} {f : Int → Int → Int}
    (h : operandCause i s = none → exec i s = .next (vecSat f o s)) :
    LaneResults i s o.g (o.t == 3) o.d (intWidth o.t) (elemCount o.t (intWidth o.t)) fun k e =>
      clampInt (intWidth o.t) (f (BitVec.ofNat (intWidth o.t) (elem (intWidth o.t) (readN s (o.t == 3) o.a k) e)).toInt
        (BitVec.ofNat (intWidth o.t) (elem (intWidth o.t) (readN s (o.t == 3) o.b k) e)).toInt) := by
  refine laneResults_of_laneOp (unit := 0) fun hc => (h hc).trans ?_
  simp only [vecSat, elemwise2, sgn_eq_toInt]

theorem laneResults_vmad (s : State) (o : V3) (r : Nat) :
    LaneResults (.vmad o r) s o.g (o.t == 3) o.d (intWidth o.t) (elemCount o.t (intWidth o.t)) fun k e =>
      ((BitVec.ofNat (intWidth o.t) (elem (intWidth o.t) (readN s (o.t == 3) o.a k) e) *
        BitVec.ofNat (intWidth o.t) (elem (intWidth o.t) (readN s (o.t == 3) o.b k) e) +
        BitVec.ofNat (intWidth o.t) (elem (intWidth o.t) (readN s (o.t == 3) r k) e)).toNat, 0) := by
  refine laneResults_of_laneSet fun hc => (exec_of_checked hc rfl).trans ?_
  simp only [elemwise3, BitVec.toNat_add, BitVec.toNat_mul, toNat_ofNat_elem, Nat.mod_add_mod]

/-! ## Broadcasts and bit fields (R111, R112) -/

theorem buildElems_const_eq_broadcast {t : Nat} (ht : t < 4) (x : DWord) :
    (buildElems (intWidth t) (fun _ => (x.toNat, 0)) (elemCount t (intWidth t))).1 = broadcast t x.toNat := by
  have hx := x.isLt
  obtain rfl | rfl | rfl | rfl : t = 0 ∨ t = 1 ∨ t = 2 ∨ t = 3 := by omega
  all_goals
    simp only [intWidth, elemCount, broadcast, buildElems, reduceIte, Nat.reduceEqDiff, Nat.reduceDiv, Nat.reduceMul, Nat.reducePow,
      or_true, true_or, or_self]
    omega

/-- A register with a field replaced, from its parts above, in and below the field. -/
theorem bitInsert_eq (x y p n : Nat) : bitInsert x y p n = 2 ^ p * (2 ^ n * (x / 2 ^ p / 2 ^ n) + y % 2 ^ n) + x % 2 ^ p := by
  have hx := Nat.div_add_mod x (2 ^ p)
  have hfield := Nat.div_add_mod (x / 2 ^ p) (2 ^ n)
  have hmul := congrArg (2 ^ p * ·) hfield
  simp only [Nat.mul_add] at hmul
  rw [bitInsert, bitField, Nat.mul_comm _ (2 ^ p), Nat.mul_comm _ (2 ^ p), Nat.mul_add]
  omega

theorem testBit_bitInsert (x y p n j : Nat) :
    (bitInsert x y p n).testBit j = if p ≤ j ∧ j < p + n then y.testBit (j - p) else x.testBit j := by
  rw [bitInsert_eq, Nat.testBit_two_pow_mul_add _ (Nat.mod_lt _ (Nat.two_pow_pos p)),
    Nat.testBit_two_pow_mul_add _ (Nat.mod_lt _ (Nat.two_pow_pos n)), Nat.testBit_mod_two_pow, Nat.testBit_mod_two_pow,
    Nat.testBit_div_two_pow, Nat.testBit_div_two_pow]
  rcases Nat.lt_or_ge j p with hp | hp
  · rw [if_pos hp, if_neg (by omega), decide_eq_true hp, Bool.true_and]
  · rw [if_neg (by omega)]
    rcases Nat.lt_or_ge (j - p) n with hn | hn
    · rw [if_pos hn, if_pos (by omega), decide_eq_true hn, Bool.true_and]
    · rw [if_neg (by omega), if_neg (by omega)]
      exact congrArg _ (by omega)

theorem laneResults_vbfx {s : State} {o : V2} {p l : Nat} (h : p + (l + 1) ≤ regWidth (o.t == 3)) :
    LaneResults (.vbfx o p l) s o.g (o.t == 3) o.d (regWidth (o.t == 3)) 1 fun k _ =>
      (readN s (o.t == 3) o.a k / 2 ^ p % 2 ^ (l + 1), 0) :=
  laneResults_of_laneSet_whole rfl fun hc =>
    exec_of_need_true (decide_eq_true (Nat.lt_of_lt_of_eq h (regWidth_beq_three o.t))) hc rfl

theorem laneResults_vbfi {s : State} {o : V2} {p l : Nat} (h : p + (l + 1) ≤ regWidth (o.t == 3)) {q : Nat → Nat}
    (hq : ∀ k j, (q k).testBit j =
      if p ≤ j ∧ j ≤ p + l then (readN s (o.t == 3) o.a k).testBit (j - p) else (readN s (o.t == 3) o.d k).testBit j) :
    LaneResults (.vbfi o p l) s o.g (o.t == 3) o.d (regWidth (o.t == 3)) 1 fun k _ => (q k, 0) := by
  have hinsert : q = fun k => bitInsert (readN s (o.t == 3) o.d k) (readN s (o.t == 3) o.a k) p (l + 1) :=
    funext fun k => Nat.eq_of_testBit_eq fun j => by rw [hq, testBit_bitInsert]; simp only [← Nat.add_assoc, Nat.lt_succ_iff]
  rw [hinsert]
  exact laneResults_of_laneSet_whole rfl fun hc =>
    exec_of_need_true (decide_eq_true (Nat.lt_of_lt_of_eq h (regWidth_beq_three o.t))) hc rfl

theorem raises_bitFields {s : State} {o : V2} {p l : Nat} (h : regWidth (o.t == 3) < p + (l + 1)) :
    Raises (.vbfx o p l) s (causeOf 11) ∧ Raises (.vbfi o p l) s (causeOf 11) := by
  have hout : decide (p + l < if o.t = 3 then 64 else 32) = false :=
    decide_eq_false (Nat.not_lt.2 (Nat.le_of_lt_succ (by rwa [← regWidth_beq_three])))
  exact ⟨raises_of_need_false hout rfl, raises_of_need_false hout rfl⟩

/-! ## Immediates (R112) -/

theorem toNat_sext64_mod (n x : Nat) : (sext64 n x).toNat % 2 ^ 32 = ((BitVec.ofNat n x).signExtend 32).toNat := by
  rw [sext64, sgn_eq_toInt, BitVec.signExtend, BitVec.toNat_ofInt, BitVec.toNat_ofInt]
  omega

/-! ## The packed dot product (R110) -/

theorem foldl_add_eq_sum (h : Nat → Int) (ls : List Nat) (c : Int) : ls.foldl (fun x e => x + h e) c = (ls.map h).sum + c := by
  induction ls generalizing c with
  | nil => exact (Int.zero_add c).symm
  | cons k ls ih => rw [List.foldl_cons, ih, List.map_cons, List.sum_cons]; omega

theorem dotSum_eq (w n a b c : Nat) :
    dotSum w n a b c = ((List.range n).map fun e => (BitVec.ofNat w (elem w a e)).toInt * (BitVec.ofNat w (elem w b e)).toInt).sum +
      (BitVec.ofNat 32 c).toInt := by
  rw [dotSum, foldl_add_eq_sum]
  simp only [sgn_eq_toInt]

theorem dotResult_eq (sat : Bool) (v : Int) :
    dotResult sat v = if v < -2147483648 then (if sat then 0x80000000 else (BitVec.ofInt 32 v).toNat, 64)
      else if 2147483647 < v then (if sat then 0x7FFFFFFF else (BitVec.ofInt 32 v).toNat, 64) else ((BitVec.ofInt 32 v).toNat, 0) := by
  have hclamp := clampInt_eq 32 v
  simp only [Nat.reduceSub, Int.reducePow, Int.reduceNeg, Int.reduceSub, Nat.reducePow] at hclamp
  rw [dotResult, toNat_emod_two_pow, hclamp]
  split
  · cases sat <;> rfl
  · split
    · cases sat <;> rfl
    · rfl

theorem laneResults_vdot4 (s : State) (o : V3) (r : Nat) (sat : Bool) :
    LaneResults (.vdot4 o r sat) s o.g false o.d 32 1 fun k _ =>
      dotResult sat (((List.range (32 / intWidth o.t)).map fun e =>
        (BitVec.ofNat (intWidth o.t) (elem (intWidth o.t) (readV s o.a k).toNat e)).toInt *
          (BitVec.ofNat (intWidth o.t) (elem (intWidth o.t) (readV s o.b k).toNat e)).toInt).sum + (readV s r k).toInt) := by
  refine laneResults_of_laneOp_word (unit := 0) fun hc => (exec_of_checked hc rfl).trans ?_
  simp only [dotSum_eq, BitVec.ofNat_toNat, BitVec.setWidth_eq]

/-! ## Comparisons (R112) -/

section
variable {w : Nat} (a b : BitVec w)

theorem vecCmp_eq : vecCmp 0 w a.toNat b.toNat = (a == b) := by
  rw [vecCmp, Bool.eq_iff_iff, beq_iff_eq, beq_iff_eq, BitVec.toNat_inj]

theorem vecCmp_ne : vecCmp 1 w a.toNat b.toNat = (a != b) := congrArg not (vecCmp_eq a b)

theorem vecCmp_lt : vecCmp 2 w a.toNat b.toNat = decide (a.toInt < b.toInt) := by simp only [vecCmp, sgn_toNat]
theorem vecCmp_le : vecCmp 3 w a.toNat b.toNat = decide (a.toInt ≤ b.toInt) := by simp only [vecCmp, sgn_toNat]
theorem vecCmp_gt : vecCmp 4 w a.toNat b.toNat = decide (b.toInt < a.toInt) := vecCmp_lt b a
theorem vecCmp_ge : vecCmp 5 w a.toNat b.toNat = decide (b.toInt ≤ a.toInt) := vecCmp_le b a
theorem vecCmp_ltu : vecCmp 6 w a.toNat b.toNat = decide (a.toNat < b.toNat) := rfl
theorem vecCmp_leu : vecCmp 7 w a.toNat b.toNat = decide (a.toNat ≤ b.toNat) := rfl
theorem vecCmp_gtu : vecCmp 8 w a.toNat b.toNat = decide (b.toNat < a.toNat) := rfl
theorem vecCmp_geu : vecCmp 9 w a.toNat b.toNat = decide (b.toNat ≤ a.toNat) := rfl

end

/-- What VCMP writes, its two registers taken as bit vectors of their width. -/
theorem writesPred_vcmp {s : State} {o : V3} {q : Nat} {f : Nat → Bool} (hq : q < 10) (ht : o.t = 0 ∨ o.t = 3)
    (hc : operandCause (.vcmp o q) s = none)
    (hf : ∀ k, vecCmp q (intWidth o.t) (BitVec.ofNat (intWidth o.t) (readN s (o.t == 3) o.a k)).toNat
      (BitVec.ofNat (intWidth o.t) (readN s (o.t == 3) o.b k)).toNat = f k) :
    WritesPred (.vcmp o q) s o.d (active s o.g) f 0 := by
  have hw : intWidth o.t = regWidth (o.t == 3) := by rcases ht with h | h <;> rw [h] <;> rfl
  have hread : ∀ r k, (BitVec.ofNat (intWidth o.t) (readN s (o.t == 3) r k)).toNat = readN s (o.t == 3) r k := fun r k => by
    rw [BitVec.toNat_ofNat, Nat.mod_eq_of_lt (hw ▸ readN_lt s (o.t == 3) r k)]
  refine (writesPred_of_writeP (exec_of_need_true (decide_eq_true hq) hc rfl)).congr fun k (hk : k ∈ active s o.g) => ?_
  rw [getLsbD_maskOf _ _ (active_lt hk), ← hf, hread, hread]
  simp only [List.mem_filter, hk, true_and, Bool.decide_eq_true]

end Sys2Proof.Machine
open Sys2Proof Sys2Proof.Machine

/-- Settles O10: every element function of the model is the operation on bit vectors that the statement names. -/
theorem vectorIntegerElements : Obligations.VectorIntegerElements := by
  unfold Obligations.VectorIntegerElements
  refine ⟨fun s o => ?_, fun s o v p l r imm => ?_, fun s o r => ?_, fun s o q => ⟨fun hq => ?_, fun ht hc => ?_⟩⟩
  · intro w wide each
    have heach : ∀ {i : Instr} {f : Nat → Nat → Nat → Nat} {g : BitVec w → BitVec w → BitVec w},
        (∀ a b : BitVec w, f w a.toNat b.toNat = (g a b).toNat) → (operandCause i s = none → exec i s = .next (vecTwo f o s)) → each i g :=
      laneResults_vecTwo
    clear_value each
    refine ⟨heach elemVadd_toNat ?_, heach elemVsub_toNat ?_, heach elemVmul_toNat ?_, heach elemVmulh_toNat ?_, heach elemVand_toNat ?_,
      heach elemVor_toNat ?_, heach elemVxor_toNat ?_, heach elemVshl_toNat ?_, heach elemVshr_toNat ?_, heach elemVsar_toNat ?_,
      heach elemVmin_toNat ?_, heach elemVmax_toNat ?_, heach elemVminu_toNat ?_, heach elemVmaxu_toNat ?_⟩
    all_goals exact fun hc => exec_of_checked hc rfl
  · rw [← regWidth_beq_three, ← regWidth_beq_three]
    refine ⟨laneResults_vecOne_toNat elemVabs_toNat fun hc => exec_of_checked hc rfl,
      laneResults_vecOne_toNat elemVneg_toNat fun hc => exec_of_checked hc rfl,
      laneResults_vecOne_toNat elemVpopc_toNat fun hc => exec_of_checked hc rfl, fun c hclz => ?_,
      laneResults_vecOne_toNat (fun _ => rfl) fun hc => exec_of_checked hc rfl, ?_, fun ht => ?_,
      laneResults_vbfx, fun h q hq => laneResults_vbfi h hq, raises_bitFields, ?_, ?_, ?_⟩
    · refine laneResults_vecOne (f := elemVclz) (fun k e => ?_) fun hc => exec_of_checked hc rfl
      obtain ⟨hle, hzero, hone⟩ := hclz k e
      rw [← toNat_ofNat_elem]
      exact elemVclz_toNat hle hzero hone
    · exact laneResults_of_laneSet_whole rfl fun hc => exec_of_checked hc rfl
    · refine laneResults_of_laneSet fun hc => (exec_of_checked hc rfl).trans ?_
      simp only [buildElems_const_eq_broadcast ht]
    · exact laneResults_of_laneSet_whole rfl fun hc => exec_of_checked hc rfl
    · rw [← toNat_sext64_mod]
      exact laneResults_of_laneSet_whole rfl fun hc => exec_of_checked hc rfl
    · rw [← BitVec.toNat_ofNat, ← BitVec.signExtend_eq (BitVec.ofNat 32 imm), ← toNat_sext64_mod]
      exact laneResults_of_laneSet_whole rfl fun hc => exec_of_checked hc rfl
  · intro w n wide x y clamp sum
    have hclamp : clampInt w = clamp := funext (clampInt_eq w)
    refine ⟨?_, ?_, laneResults_vmad s o r, fun sat => ?_⟩
    · rw [← hclamp]
      exact laneResults_vecSat fun hc => exec_of_checked hc rfl
    · rw [← hclamp]
      exact laneResults_vecSat fun hc => exec_of_checked hc rfl
    · simp only [← dotResult_eq]
      exact laneResults_vdot4 s o r sat
  · exact raises_of_need_false (decide_eq_false (Nat.not_lt.2 hq)) rfl
  · refine ⟨?_, ?_, ?_, ?_, ?_, ?_, ?_, ?_, ?_, ?_⟩ <;> rintro rfl
    · exact writesPred_vcmp (by decide) ht hc fun _ => vecCmp_eq _ _
    · exact writesPred_vcmp (by decide) ht hc fun _ => vecCmp_ne _ _
    · exact writesPred_vcmp (by decide) ht hc fun _ => vecCmp_lt _ _
    · exact writesPred_vcmp (by decide) ht hc fun _ => vecCmp_le _ _
    · exact writesPred_vcmp (by decide) ht hc fun _ => vecCmp_gt _ _
    · exact writesPred_vcmp (by decide) ht hc fun _ => vecCmp_ge _ _
    · exact writesPred_vcmp (by decide) ht hc fun _ => vecCmp_ltu _ _
    · exact writesPred_vcmp (by decide) ht hc fun _ => vecCmp_leu _ _
    · exact writesPred_vcmp (by decide) ht hc fun _ => vecCmp_gtu _ _
    · exact writesPred_vcmp (by decide) ht hc fun _ => vecCmp_geu _ _
end

section
namespace Sys2Proof.Machine

/-! ## Float elements (R113) -/

theorem laneResults_floatOne {i : Instr} {s : State} {u : V2} {f : FF → Nat → Nat × Nat}
    (h : operandCause i s = none → exec i s = .next (floatOne f u s)) :
    LaneResults i s u.g (u.t == 3) u.d (floatWidth u.t) (elemCount u.t (floatWidth u.t)) fun k e =>
      f (ffOf u.t) (elem (floatWidth u.t) (readN s (u.t == 3) u.a k) e) :=
  laneResults_of_laneOp h

theorem laneResults_floatTwo {i : Instr} {s : State} {o : V3} (f : FF → Nat → Nat → Nat × Nat)
    (h : operandCause i s = none → exec i s = .next (floatTwo f o s)) :
    LaneResults i s o.g (o.t == 3) o.d (floatWidth o.t) (elemCount o.t (floatWidth o.t)) fun k e =>
      f (ffOf o.t) (elem (floatWidth o.t) (readN s (o.t == 3) o.a k) e) (elem (floatWidth o.t) (readN s (o.t == 3) o.b k) e) :=
  laneResults_of_laneOp h

theorem laneResults_ffma (s : State) (o : V3) (r rm : Nat) :
    LaneResults (.ffma o r rm) s o.g (o.t == 3) o.d (floatWidth o.t) (elemCount o.t (floatWidth o.t)) fun k e =>
      (ffOf o.t).fma (roundMode s rm) (elem (floatWidth o.t) (readN s (o.t == 3) o.a k) e)
        (elem (floatWidth o.t) (readN s (o.t == 3) o.b k) e) (elem (floatWidth o.t) (readN s (o.t == 3) r k) e) :=
  laneResults_of_laneOp fun hc => exec_of_checked hc rfl

/-! ## Scaling (R114) -/

/-- The width of the count of FSCL: the 32-bit register for an element of its own lane, the signed half for a packed one. -/
def sclWidth (t : Nat) : Nat := if t = 0 ∨ t = 3 then 32 else 16

theorem sclWidth_eq_floatWidth {t : Nat} (h : t ≠ 3) : sclWidth t = floatWidth t := by
  simp only [sclWidth, floatWidth, h, or_false, if_false]

theorem laneResults_scaleLanes {i : Instr} {s : State} {o : V3} {rm : Nat}
    (h : operandCause i s = none → exec i s = .next (scaleLanes rm o s)) :
    LaneResults i s o.g (o.t == 3) o.d (floatWidth o.t) (elemCount o.t (floatWidth o.t)) fun k e =>
      (ffOf o.t).scaleBy rm (elem (floatWidth o.t) (readN s (o.t == 3) o.a k) e)
        (sclCount (sclWidth o.t) (elem (sclWidth o.t) (readV s o.b k).toNat e)) := by
  by_cases ht : o.t = 3
  · obtain ⟨d, a, b, g, t⟩ := o
    obtain rfl : t = 3 := ht
    have hwhole : LaneResults i s g true d 64 1 fun k _ => ffF64.scaleBy rm (readN s true a k) (sclCount 32 (readV s b k).toNat) :=
      laneResults_of_laneOp_whole (unit := floatUnit 3) rfl h
    refine hwhole.congr fun k e he => ?_
    obtain rfl : e = 0 := Nat.lt_one_iff.1 he
    change _ = ffF64.scaleBy rm (elem 64 (readN s true a k) 0) (sclCount 32 (elem 32 (readV s b k).toNat 0))
    have hpair : readN s true a k < 2 ^ 64 := readN_lt s true a k
    rw [elem_zero, elem_zero, Nat.mod_eq_of_lt hpair, Nat.mod_eq_of_lt (readV s b k).isLt]
  · refine laneResults_of_laneOp (unit := floatUnit o.t) fun hc => (h hc).trans ?_
    simp only [scaleLanes, elemwise2, sclWidth_eq_floatWidth ht, ht, if_false, beq_eq_false_iff_ne.2 ht, readN, Bool.false_eq_true]

end Sys2Proof.Machine
open Sys2Proof Sys2Proof.Machine

/-- Settles O11: each instruction applies the operation of its row to the elements of one source, of two or of three, or scales. -/
theorem vectorFloatArithmeticElements : Obligations.VectorFloatArithmeticElements := by
  unfold Obligations.VectorFloatArithmeticElements
  intro s o u r rm mode x y z each one F
  have hone : ∀ {i : Instr} {f : FF → Nat → Nat × Nat}, (operandCause i s = none → exec i s = .next (floatOne f u s)) → one i f :=
    laneResults_floatOne
  have htwo : ∀ {i : Instr} (f : FF → Nat → Nat → Nat × Nat), (operandCause i s = none → exec i s = .next (floatTwo f o s)) →
      each i fun k e => f F (x k e) (y k e) :=
    laneResults_floatTwo
  have hfma : each (.ffma o r rm) fun k e => F.fma (mode rm) (x k e) (y k e) (z k e) := laneResults_ffma s o r rm
  have hscale : ∀ {i : Instr} {m : Nat}, (operandCause i s = none → exec i s = .next (scaleLanes m o s)) →
      each i fun k e => F.scaleBy m (x k e) (sclCount (sclWidth o.t) (elem (sclWidth o.t) (readV s o.b k).toNat e)) :=
    laneResults_scaleLanes
  clear_value each one
  refine ⟨htwo (fun f => f.add (mode 7)) ?_, htwo (fun f => f.add (mode rm)) ?_, htwo (fun f => f.sub (mode 7)) ?_,
    htwo (fun f => f.sub (mode rm)) ?_, htwo (fun f => f.mul (mode 7)) ?_, htwo (fun f => f.mul (mode rm)) ?_,
    htwo (fun f => f.div (mode 7)) ?_, htwo (fun f => f.div (mode rm)) ?_, hfma, hone ?_, hone ?_, hone ?_, hone ?_,
    ⟨hscale ?_, hscale ?_⟩, hone ?_, hone ?_, hone ?_, hone ?_, hone ?_, hone ?_, hone ?_, hone ?_⟩
  all_goals exact fun hc => (exec_of_checked hc rfl).trans rfl
end

section
namespace Sys2Proof.Machine

/-! ## A sign operation on halves of no format

The type T of `V2` is any number, and the statement speaks of each. Of T = 4 the elements are halves (`floatWidth`), the format is FP64
(`ffOf`), whose sign no half holds. -/

/-- A team of 16 lanes whose registers are all zero. -/
def zeroLanes : State := State.reset.withFetchWord 32 0

/-- V0 to V1 in the lanes of the mask, with T = 4. -/
def halvesOfNone : V2 := ⟨1, 0, 15, 4⟩

/-- The word that lane k of register r holds after an instruction. -/
def wordAfter (res : Result) (r k : Nat) : Option Word :=
  match res with
  | .next s => s.team.laneAt r k
  | .fault _ => none
  | .refused _ => none

theorem operandCause_fneg_halvesOfNone : operandCause (.fneg halvesOfNone) zeroLanes = none := by decide +kernel

/-- The model inverts no sign. -/
theorem wordAfter_fneg_halvesOfNone : wordAfter (exec (.fneg halvesOfNone) zeroLanes) (logV zeroLanes 1) 0 = some 0 := by decide +kernel

/-- The word of two halves with nothing but their highest bits is what the statement lands in lane 0. -/
theorem landedAt_zeroLanes : landedAt (zeroLanes.team.inFlight 0 (logV zeroLanes 1)) (active zeroLanes 15) 0 (BitVec.ofNat 32 0x80008000)
    (zeroLanes.team.laneAt (logV zeroLanes 1) 0) = some 0x80008000 := by decide +kernel

end Sys2Proof.Machine
open Sys2Proof Sys2Proof.Machine

/-- Refutes O12: clause (1) inverts the highest bit of each element of FNEG for every T; with T = 4 the model takes 16-bit elements and the
sign of FP64, so that FNEG of zero halves writes zero where the statement has 0x8000. -/
theorem not_vectorFloatSelectionConversionAndDot : ¬ Obligations.VectorFloatSelectionConversionAndDot := by
  unfold Obligations.VectorFloatSelectionConversionAndDot
  intro h
  obtain ⟨-, -, -, -, -, hneg, -⟩ := h.1 zeroLanes ⟨0, 0, 0, 15, 0⟩ halvesOfNone 0
  obtain ⟨t, hexec, -, -, -, -, hlanes, -⟩ := hneg operandCause_fneg_halvesOfNone (fun _ => 0x80008000) (fun _ => 0)
    (by decide +kernel) (by decide +kernel) (by decide +kernel)
  have hword : wordAfter (exec (.fneg halvesOfNone) zeroLanes) (logV zeroLanes 1) 0 = some 0x80008000 := by
    rw [hexec]
    exact (hlanes 0 (by decide)).trans landedAt_zeroLanes
  rw [wordAfter_fneg_halvesOfNone] at hword
  exact absurd hword (by decide)
end

section
namespace Sys2Proof.Machine

/-! ## Sections (R130) -/

theorem mem_sectionLanes {s : State} {m : Lanes} {j i : Nat} :
    i ∈ sectionLanes s m j ↔ (i < s.block.lanes ∧ m.getLsbD i = true) ∧ i / s.block.w = j := by
  rw [sectionLanes, List.mem_filter, mem_lanesOf, beq_iff_eq]

theorem sectionLanes_lt {s : State} {m : Lanes} {j i : Nat} (h : i ∈ sectionLanes s m j) : i < 1024 :=
  lanesOf_lt (List.mem_filter.1 h).1

theorem pairwise_lt_lanesOf (m : Lanes) (n : Nat) : (lanesOf m n).Pairwise (· < ·) := List.pairwise_lt_range.filter _

/-- Of an ascending list the lanes of the sections below n + 1 are those of the sections below n, then those of section n. -/
theorem filter_div_lt_succ (w n : Nat) {ls : List Nat} (h : ls.Pairwise (· < ·)) :
    (ls.filter fun i => decide (i / w < n + 1)) = (ls.filter fun i => decide (i / w < n)) ++ ls.filter fun i => i / w == n := by
  induction ls with
  | nil => rfl
  | cons i ls ih =>
    obtain ⟨hi, hls⟩ := List.pairwise_cons.1 h
    by_cases hlow : i / w < n
    · simp only [List.filter_cons, hlow, Nat.lt_succ_of_lt hlow, decide_true, if_true, beq_eq_false_iff_ne.2 (Nat.ne_of_lt hlow), Bool.false_eq_true,
        if_false, List.cons_append, ih hls]
    · have hnone : (ls.filter fun k => decide (k / w < n)) = [] :=
        List.filter_eq_nil_iff.2 fun k hk hlt => hlow
          (Nat.lt_of_le_of_lt (Nat.div_le_div_right (Nat.le_of_lt (hi k hk))) (of_decide_eq_true hlt))
      have hhere : decide (i / w < n + 1) = (i / w == n) := by
        rw [Bool.eq_iff_iff, decide_eq_true_iff, beq_iff_eq]
        omega
      rw [List.filter_cons, List.filter_cons, List.filter_cons, hhere, ih hls, hnone, decide_eq_false hlow]
      rfl

/-- The lanes of a mask in the first n sections, one section after the other, are its lanes in them in ascending order. -/
theorem flatten_sectionLanes (s : State) (m : Lanes) (n : Nat) :
    ((List.range n).map (sectionLanes s m)).flatten = (lanesOf m s.block.lanes).filter fun i => decide (i / s.block.w < n) := by
  induction n with
  | zero => simp
  | succ n ih =>
    rw [List.range_succ, List.map_append, List.flatten_append, ih, filter_div_lt_succ _ _ (pairwise_lt_lanesOf m _), List.map_singleton,
      List.flatten_singleton, sectionLanes]

/-- What the lanes of each section give, where it depends on the lane and on its section alone. -/
theorem flatten_sections {α : Type} (s : State) (m : Lanes) (f : Nat → Nat → α) :
    ((List.range (sections s)).map fun j => (sectionLanes s m j).map (f j)).flatten =
      ((lanesOf m s.block.lanes).filter fun i => decide (i / s.block.w < sections s)).map fun i => f (i / s.block.w) i := by
  rw [← flatten_sectionLanes, List.map_flatten, List.map_map]
  refine congrArg List.flatten (List.map_congr_left fun j _ => List.map_congr_left fun i hi => ?_)
  rw [(mem_sectionLanes.1 hi).2]

/-! ## Masks of positions (R133) -/

/-- Distinct powers of two, added up in ascending order, set their bits and no other. -/
theorem testBit_foldl_two_pow {js : List Nat} (hjs : js.Pairwise (· < ·)) {x : Nat} (hx : ∀ j ∈ js, x < 2 ^ j) (k : Nat) :
    (js.foldl (fun x j => x + 2 ^ j) x).testBit k = (x.testBit k || decide (k ∈ js)) := by
  induction js generalizing x with
  | nil => simp
  | cons j js ih =>
    obtain ⟨hj, hjs⟩ := List.pairwise_cons.1 hjs
    have hxj : x < 2 ^ j := hx j List.mem_cons_self
    have hor : x + 2 ^ j = 2 ^ j ||| x := by
      have := Nat.two_pow_add_eq_or_of_lt hxj 1
      rwa [Nat.mul_one, Nat.add_comm] at this
    have hbound : ∀ i ∈ js, x + 2 ^ j < 2 ^ i := fun i hi => by
      have : 2 ^ (j + 1) ≤ 2 ^ i := Nat.pow_le_pow_right Nat.two_pos (hj i hi)
      omega
    rw [List.foldl_cons, ih hjs hbound, hor, Nat.testBit_or, Nat.testBit_two_pow, Bool.or_comm (decide _), Bool.or_assoc]
    simp only [← Bool.decide_or, List.mem_cons, eq_comm]

theorem positionMask_eq_foldl (s : State) (ls : List Nat) (p : Nat → Bool) :
    positionMask s ls p = ((ls.filter p).map (· % s.block.w)).foldl (fun x j => x + 2 ^ j) 0 := by
  rw [List.foldl_map, List.foldl_filter, positionMask]

/-- In one section the positions ascend with the lanes. -/
theorem pairwise_lt_positions (s : State) (m : Lanes) (j : Nat) (p : Nat → Bool) :
    (((sectionLanes s m j).filter p).map (· % s.block.w)).Pairwise (· < ·) := by
  have hlanes : ((sectionLanes s m j).filter p).Pairwise (· < ·) := ((pairwise_lt_lanesOf m _).filter _).filter _
  refine List.pairwise_map.2 (hlanes.imp_of_mem fun {i k} hi hk hlt => ?_)
  have hij := (mem_sectionLanes.1 (List.mem_filter.1 hi).1).2
  have hkj := (mem_sectionLanes.1 (List.mem_filter.1 hk).1).2
  rw [← Nat.div_add_mod i s.block.w, ← Nat.div_add_mod k s.block.w, hij, hkj] at hlt
  exact Nat.lt_of_add_lt_add_left hlt

theorem mem_positions {s : State} (hw : 0 < s.block.w) {m : Lanes} {j k : Nat} {p : Nat → Bool} :
    k ∈ ((sectionLanes s m j).filter p).map (· % s.block.w) ↔
      k < s.block.w ∧ j * s.block.w + k ∈ (sectionLanes s m j).filter p := by
  rw [List.mem_map]
  constructor
  · rintro ⟨i, hi, rfl⟩
    obtain rfl := (mem_sectionLanes.1 (List.mem_filter.1 hi).1).2
    exact ⟨Nat.mod_lt _ hw, (Nat.div_add_mod' i s.block.w).symm ▸ hi⟩
  · rintro ⟨hk, hi⟩
    exact ⟨_, hi, by rw [Nat.mul_add_mod', Nat.mod_eq_of_lt hk]⟩

theorem testBit_positionMask {s : State} (hw : 0 < s.block.w) (m : Lanes) (j k : Nat) (p : Nat → Bool) :
    (positionMask s (sectionLanes s m j) p).testBit k =
      (decide (k < s.block.w ∧ j * s.block.w + k < s.block.lanes) && m.getLsbD (j * s.block.w + k) && p (j * s.block.w + k)) := by
  rw [positionMask_eq_foldl, testBit_foldl_two_pow (pairwise_lt_positions s m j p) fun _ _ => Nat.two_pow_pos _, Nat.zero_testBit,
    Bool.false_or, Bool.eq_iff_iff, decide_eq_true_iff, mem_positions hw, List.mem_filter, mem_sectionLanes]
  have hdiv : k < s.block.w → (j * s.block.w + k) / s.block.w = j := fun hk => by
    rw [Nat.mul_comm, Nat.mul_add_div hw, Nat.div_eq_of_lt hk, Nat.add_zero]
  simp only [Bool.and_eq_true, decide_eq_true_iff]
  constructor
  · rintro ⟨hk, ⟨⟨hlanes, hm⟩, -⟩, hp⟩
    exact ⟨⟨⟨hk, hlanes⟩, hm⟩, hp⟩
  · rintro ⟨⟨⟨hk, hlanes⟩, hm⟩, hp⟩
    exact ⟨hk, ⟨⟨hlanes, hm⟩, hdiv hk⟩, hp⟩

/-! ## Shuffles, ballot, match and compact -/

/-- With no guard every lane of the mask is Active. -/
theorem active_unguarded (s : State) : active s 15 = activeAll s := rfl

/-- A shuffle whose source position is `from_ k` for lane k. -/
theorem laneResults_shuffle {i : Instr} {s : State} {g : Nat} {wide : Bool} {d w a : Nat} {from_ : Nat → Nat} (pos : Nat → Nat → Nat)
    (hw : regWidth wide = w) (hpos : ∀ k, pos k (k % s.block.w) = from_ k)
    (h : operandCause i s = none → exec i s = .next (shuffle s g wide d a pos)) :
    LaneResults i s g wide d w 1 fun k _ => (readN s wide a (k / s.block.w * s.block.w + from_ k), 0) := by
  simp only [← hpos]
  exact laneResults_of_laneSet_whole hw h

theorem regWidth_beq_64 (w : Nat) : regWidth (w == 64) = if w = 64 then 64 else 32 := by
  simp only [regWidth, beq_iff_eq]

theorem laneResultsOn_ball {s : State} (hw : 0 < s.block.w) (d a g : Nat) {m : Nat → Nat}
    (hm : ∀ k j, (m k).testBit j = (decide (j < s.block.w ∧ k / s.block.w * s.block.w + j < s.block.lanes) &&
      (guarded s g &&& readP s a).getLsbD (k / s.block.w * s.block.w + j))) :
    LaneResultsOn (.ball d a g) s (activeAll s) (s.block.w == 64) d (if s.block.w = 64 then 64 else 32) 1 fun k _ => (m k, 0) := by
  have hmask : m = fun k => positionMask s (sectionLanes s (guarded s g &&& readP s a) (k / s.block.w)) fun _ => true := by
    funext k
    refine Nat.eq_of_testBit_eq fun j => ?_
    rw [hm, testBit_positionMask hw, Bool.and_true]
  rw [hmask, ← active_unguarded]
  exact laneResults_of_laneSet_whole (regWidth_beq_64 _) fun hc => exec_of_checked hc rfl

theorem laneResults_vmtc {s : State} (hw : 0 < s.block.w) (u : V2) {m : Nat → Nat}
    (hm : ∀ k j, (m k).testBit j = (decide (j < s.block.w ∧ k / s.block.w * s.block.w + j < s.block.lanes) &&
      (guarded s u.g).getLsbD (k / s.block.w * s.block.w + j) &&
      readN s (u.t == 3) u.a (k / s.block.w * s.block.w + j) == readN s (u.t == 3) u.a k)) :
    LaneResults (.vmtc u) s u.g (s.block.w == 64) u.d (if s.block.w = 64 then 64 else 32) 1 fun k _ => (m k, 0) := by
  have hmask : m = fun k => positionMask s (sectionLanes s (guarded s u.g) (k / s.block.w)) fun i =>
      readN s (u.t == 3) u.a i == readN s (u.t == 3) u.a k := by
    funext k
    refine Nat.eq_of_testBit_eq fun j => ?_
    rw [hm, testBit_positionMask hw]
  rw [hmask]
  exact laneResults_of_laneSet_whole (regWidth_beq_64 _) fun hc => exec_of_checked hc rfl

/-- The lanes that VCPT writes, each with the Active lane whose value it takes. -/
def compactPairs (s : State) (g : Nat) : List (Nat × Nat) :=
  (List.range (sections s)).flatMap fun j => (sectionLanes s s.src.mask j).zip (sectionLanes s (guarded s g) j)

theorem lt_of_mem_compactPairs {s : State} {g : Nat} {p : Nat × Nat} (h : p ∈ compactPairs s g) : p.1 < 1024 := by
  obtain ⟨j, -, hp⟩ := List.mem_flatMap.1 h
  exact sectionLanes_lt (List.of_mem_zip hp).1

theorem writesLanes_vcpt {s : State} {u : V2} {v : Nat → Nat}
    (hv : ∀ p ∈ compactPairs s u.g, v p.1 = readN s (u.t == 3) u.a p.2) (hc : operandCause (.vcpt u) s = none) :
    WritesLanes (.vcpt u) s (u.t == 3) u.d ((compactPairs s u.g).map Prod.fst) v 0 := by
  have hvalues : ((compactPairs s u.g).map Prod.fst).map (fun i => (i, v i)) =
      (compactPairs s u.g).map fun p => (p.1, readN s (u.t == 3) u.a p.2) := by
    rw [List.map_map]
    exact List.map_congr_left fun p hp => congrArg (Prod.mk p.1) (hv p hp)
  refine writesLanes_of_writeN (fun k hk => ?_) ((exec_of_checked hc rfl).trans ?_)
  · obtain ⟨p, hp, rfl⟩ := List.mem_map.1 hk
    exact lt_of_mem_compactPairs hp
  · rw [hvalues, compactPairs, List.flatMap, List.map_flatten, List.map_map]
    rfl

end Sys2Proof.Machine
end

section
namespace Sys2Proof.Machine

/-! ## Reductions and scans (R131) -/

/-- An instruction that ends in `finish` with the elements of each lane it writes. -/
theorem laneResultsOn_of_finish {i : Instr} {s : State} {unit : Nat} {ls : List Nat} {wide : Bool} {d w n : Nat}
    {f : Nat → Nat → Nat × Nat} {out : List LaneOut} (hl : ∀ k ∈ ls, k < 1024) (hout : out = ls.map fun k => (k, buildElems w (f k) n))
    (h : operandCause i s = none → exec i s = .next (finish s unit out fun s => writeN s wide d (resultsOf out))) :
    LaneResultsOn i s ls wide d w n f := by
  subst hout
  intro hc r fl hr hfl hen
  have hflag : ∀ k ∈ ls, (buildElems w (f k) n).2 = fl k := fun k hk => by rw [buildElems_flags, hfl k hk]
  have hres : resultsOf (ls.map fun k => (k, buildElems w (f k) n)) = ls.map fun k => (k, (buildElems w (f k) n).1) := by
    rw [resultsOf, List.map_map]
    rfl
  simp only [hres] at h
  refine (writesLanes_of_finish hl (fun x hx => ?_) (h hc)).congr (fun k hk => buildElems_eq (hr k hk).1 (hr k hk).2) ?_
  · obtain ⟨k, hk, rfl⟩ := List.mem_map.1 hx
    exact (hflag k hk).symm ▸ hen k hk
  · rw [allFlags_map, foldl_or_congr hflag]

theorem laneResultsOn_reduceLanes {i : Instr} {s : State} {unit w : Nat} {u : V2} {f : List Nat → Nat × Nat}
    (h : operandCause i s = none → exec i s = .next (reduceLanes s unit w u f)) :
    LaneResultsOn i s ((activeAll s).filter fun k => decide (k / s.block.w < sections s)) (u.t == 3) u.d w (elemCount u.t w) fun k e =>
      f (laneElems s (u.t == 3) w u.a e (sectionLanes s (guarded s u.g) (k / s.block.w))) :=
  laneResultsOn_of_finish (fun _ hk => lanesOf_lt (List.mem_filter.1 hk).1) (flatten_sections s s.src.mask fun j k =>
    (k, buildElems w (fun e => f (laneElems s (u.t == 3) w u.a e (sectionLanes s (guarded s u.g) j))) (elemCount u.t w))) h

theorem laneResultsOn_scanLanes {i : Instr} {s : State} {unit w : Nat} {u : V2} {f : List Nat → Nat × Nat}
    (h : operandCause i s = none → exec i s = .next (scanLanes s unit w u f)) :
    LaneResultsOn i s ((active s u.g).filter fun k => decide (k / s.block.w < sections s)) (u.t == 3) u.d w (elemCount u.t w) fun k e =>
      f (laneElems s (u.t == 3) w u.a e ((sectionLanes s (guarded s u.g) (k / s.block.w)).filter fun i => decide (i ≤ k))) :=
  laneResultsOn_of_finish (fun _ hk => active_lt (List.mem_filter.1 hk).1) (flatten_sections s (guarded s u.g) fun j k =>
    (k, buildElems w (fun e => f (laneElems s (u.t == 3) w u.a e ((sectionLanes s (guarded s u.g) j).filter fun i => decide (i ≤ k))))
      (elemCount u.t w))) h

/-! ## Integer operations (R56) -/

/-- The fold of R56 on bit vectors, from the identity of its operation. -/
def bitRed (w q : Nat) (xs : List (BitVec w)) : BitVec w :=
  if q = 0 then xs.foldl (· + ·) 0
  else if q = 1 then xs.foldl (fun a b => if b.toInt < a.toInt then b else a) (BitVec.intMax w)
  else if q = 2 then xs.foldl (fun a b => if a.toInt < b.toInt then b else a) (BitVec.intMin w)
  else if q = 3 then xs.foldl (fun a b => if b.toNat < a.toNat then b else a) (BitVec.allOnes w)
  else if q = 4 then xs.foldl (fun a b => if a.toNat < b.toNat then b else a) 0
  else if q = 5 then xs.foldl (· &&& ·) (BitVec.allOnes w)
  else if q = 6 then xs.foldl (· ||| ·) 0
  else xs.foldl (· ^^^ ·) 0

theorem elemVmin_toNat_of_lt {w : Nat} (a b : BitVec w) :
    elemVmin w a.toNat b.toNat = (if b.toInt < a.toInt then b else a).toNat := by
  rw [elemVmin_toNat]
  rcases Int.lt_trichotomy a.toInt b.toInt with h | h | h
  · rw [if_pos h, if_neg (Int.lt_asymm h)]
  · rw [BitVec.toInt_inj.1 h, if_neg (Int.lt_irrefl _)]
  · rw [if_neg (Int.lt_asymm h), if_pos h]

theorem elemVminu_toNat_of_lt {w : Nat} (a b : BitVec w) :
    elemVminu w a.toNat b.toNat = (if b.toNat < a.toNat then b else a).toNat := by
  rw [elemVminu_toNat]
  rcases Nat.lt_trichotomy a.toNat b.toNat with h | h | h
  · rw [if_pos h, if_neg (Nat.lt_asymm h)]
  · rw [BitVec.eq_of_toNat_eq h, if_neg (Nat.lt_irrefl _)]
  · rw [if_neg (Nat.lt_asymm h), if_pos h]

/-- A fold of an operation on numbers that does what `g` does on bit vectors. -/
theorem foldl_map_toNat {w c : Nat} {op : Nat → Nat → Nat} {g : BitVec w → BitVec w → BitVec w} {init : BitVec w}
    (hop : ∀ a b, op a.toNat b.toNat = (g a b).toNat) (hinit : c = init.toNat) (xs : List (BitVec w)) :
    ((xs.map BitVec.toNat).foldl op c, 0) = ((xs.foldl g init).toNat, 0) := by
  rw [hinit, List.foldl_map, List.foldl_hom BitVec.toNat hop]

theorem intRed_toNat {w : Nat} (hw : 0 < w) (q : Nat) (xs : List (BitVec w)) :
    intRed w q (xs.map BitVec.toNat) = ((bitRed w q xs).toNat, 0) := by
  have hmin : 2 ^ (w - 1) = (BitVec.intMin w).toNat := by
    rw [BitVec.toNat_intMin, Nat.mod_eq_of_lt (Nat.pow_lt_pow_right Nat.one_lt_two (Nat.sub_lt hw Nat.one_pos))]
  match q with
  | 0 => exact foldl_map_toNat elemVadd_toNat BitVec.toNat_zero.symm xs
  | 1 => exact foldl_map_toNat elemVmin_toNat_of_lt BitVec.toNat_intMax.symm xs
  | 2 => exact foldl_map_toNat elemVmax_toNat hmin xs
  | 3 => exact foldl_map_toNat elemVminu_toNat_of_lt BitVec.toNat_allOnes.symm xs
  | 4 => exact foldl_map_toNat elemVmaxu_toNat BitVec.toNat_zero.symm xs
  | 5 => exact foldl_map_toNat elemVand_toNat BitVec.toNat_allOnes.symm xs
  | 6 => exact foldl_map_toNat elemVor_toNat BitVec.toNat_zero.symm xs
  | _ + 7 => exact foldl_map_toNat elemVxor_toNat BitVec.toNat_zero.symm xs

theorem intWidth_pos (t : Nat) : 0 < intWidth t := by
  unfold intWidth
  repeat' split
  all_goals decide

/-- The integer operation on elements of lanes. -/
theorem intRed_laneElems (s : State) (wide : Bool) {w : Nat} (hw : 0 < w) (q a e : Nat) (ls : List Nat) :
    intRed w q (laneElems s wide w a e ls) = ((bitRed w q ((laneElems s wide w a e ls).map (BitVec.ofNat w))).toNat, 0) := by
  rw [← intRed_toNat hw, laneElems, List.map_map, List.map_map]
  refine congrArg (intRed w q) (List.map_congr_left fun i _ => ?_)
  exact (toNat_ofNat_elem w _ e).symm

/-! ## Float operations (R132) -/

/-- The sum of R132: nothing gives +0, a NaN the first one quieted. -/
theorem floatRed_add (f : FF) (rm : Nat) (xs : List Nat) : floatRed f rm 0 xs =
    if xs = [] then (0, 0)
    else match xs.find? f.isNaN with
      | some x => (f.quiet x, if xs.any f.isSig then 1 else 0)
      | none => f.sumTerms rm xs := by
  simp only [floatRed, FF.nanOf, FF.sigFlag, flagNV, if_true, List.isEmpty_iff]
  cases xs.find? f.isNaN <;> rfl

/-- The minimum and maximum of R132: of the numbers among the contributors, else the first NaN quieted, else the identity. -/
theorem floatRed_pick (f : FF) (rm : Nat) {q : Nat} (hq : q ≠ 0) (xs : List Nat) : floatRed f rm q xs =
    match xs.filter fun x => !f.isNaN x with
    | y :: ys => (ys.foldl (f.pick (q == 2)) y, if xs.any f.isSig then 1 else 0)
    | [] => match xs with
      | [] => (f.inf (q == 2), 0)
      | x :: _ => (f.quiet x, if xs.any f.isSig then 1 else 0) := by
  simp only [floatRed, FF.sigFlag, flagNV, hq, if_false]
  cases xs.filter fun x => !f.isNaN x with
  | cons y ys => rfl
  | nil => cases xs <;> rfl

end Sys2Proof.Machine
open Sys2Proof Sys2Proof.Machine

/-- Settles O15: the moves within a section by positions, and the reductions and scans by the fold over a section's contributors. -/
theorem shufflesReductionsAndScans : Obligations.ShufflesReductionsAndScans := by
  unfold Obligations.ShufflesReductionsAndScans
  refine ⟨fun s o u d a g n hw => ?_, fun s u q _ => ?_⟩
  · intro W size from_
    have hmove : ∀ {i : Instr} {g : Nat} {wide : Bool} {d w a : Nat} {f : Nat → Nat} (pos : Nat → Nat → Nat), regWidth wide = w →
        (∀ k, pos k (k % W) = f k) → (operandCause i s = none → exec i s = .next (shuffle s g wide d a pos)) → from_ i g wide d w a f :=
      laneResults_shuffle
    have hup : ∀ k, (if W ≤ k % W + n then k % W else k % W + n) = if k % W + n < W then k % W + n else k % W := fun k => by
      simp only [← Nat.not_lt, ite_not]
    have hdown : ∀ k, (if k % W < n then k % W else k % W - n) = if n ≤ k % W then k % W - n else k % W := fun k => by
      simp only [← Nat.not_le, ite_not]
    clear_value from_
    refine ⟨hmove (fun k _ => (readV s o.b k).toNat % W) (regWidth_beq_three _) (fun _ => rfl) ?_,
      hmove (fun _ k => if W ≤ k + n then k else k + n) rfl hup ?_, hmove (fun _ k => if k < n then k else k - n) rfl hdown ?_,
      hmove (fun _ k => k ^^^ n) rfl (fun _ => rfl) ?_, hmove (fun _ _ => n) rfl (fun _ => rfl) ?_,
      fun m => laneResultsOn_ball hw d a g, fun m => laneResults_vmtc hw u, fun v ls hls hv hc => hls ▸ writesLanes_vcpt hv hc⟩
    all_goals exact fun hc => exec_of_checked hc rfl
  · intro w wide F mode int flt whole upTo val inSections _
    have hint : ∀ con : Nat → List Nat, val int w con = fun k e => intRed w q (laneElems s wide w u.a e (con k)) := fun con =>
      funext fun k => funext fun e => (intRed_laneElems s wide (intWidth_pos u.t) q u.a e (con k)).symm
    have hflt : flt = floatRed F mode q := by
      funext xs
      by_cases hq : q = 0
      · subst hq
        exact (floatRed_add F mode xs).symm
      · exact (if_neg hq).trans (floatRed_pick F mode hq xs).symm
    rw [hint, hint, hflt]
    exact ⟨laneResultsOn_reduceLanes fun hc => exec_of_checked hc rfl, laneResultsOn_scanLanes fun hc => exec_of_checked hc rfl,
      fun _ => ⟨laneResultsOn_reduceLanes fun hc => exec_of_checked hc rfl, laneResultsOn_scanLanes fun hc => exec_of_checked hc rfl⟩⟩
end

section
namespace Sys2Proof.Machine

/-! ## An access to a page whose leaf the core holds (R141, R318, R322) -/

theorem fld_one_eq_testBit (x i : Nat) : (fld x i 1 == 1) = x.testBit i := by
  rw [fld, Nat.pow_one, Nat.testBit_eq_decide_div_mod_eq, Bool.beq_eq_decide_eq]

theorem leafR_eq_testBit (e : Nat) : leafR e = e.testBit 3 := fld_one_eq_testBit e 3
theorem leafW_eq_testBit (e : Nat) : leafW e = e.testBit 4 := fld_one_eq_testBit e 4
theorem leafQ_eq_testBit (e : Nat) : leafQ e = e.testBit 5 := fld_one_eq_testBit e 5

theorem lookPage_of_find {s : State} {core req part ctx va : Nat} {e : TlbEntry}
    (h : s.tlb.find? (fun x => x.covers core part ctx va) = some e) : lookPage s core req part ctx va = (s, .leaf e.leaf e.pbits) := by
  rw [lookPage, h]

theorem checkMine_not_canonical {s : State} {va n : Nat} {need : Need} (h : canonical va = false) :
    checkMine s va n need = (s, .bad 64) := by
  rw [checkMine, checkVa, h]
  rfl

/-- What is left of the checks once the page's leaf is found: alignment, then what the leaf permits. -/
theorem checkMine_of_find {s : State} {va n : Nat} {need : Need} {e : TlbEntry} (hc : canonical va = true)
    (hf : s.tlb.find? (fun x => x.covers s.cur.core s.block.part s.block.ctx va) = some e) :
    checkMine s va n need =
      if va % n = 0 then checkLeaf s s.block.part s.block.ctx e.leaf e.pbits va need else (s, .bad (66 + 8 * leafKind e.leaf)) := by
  rw [checkMine, checkVa, hc, lookPage_of_find hf]
  rfl

/-- A leaf of a NORMAL page: permissions and the queue bit decide (R322). -/
theorem checkLeaf_normal {s : State} {part ctx e pbits va : Nat} {n : Need} (h : leafKind e = 0) :
    checkLeaf s part ctx e pbits va n =
      if leafQ e || (n.r && !leafR e) || (n.w && !leafW e) then (s, .bad 65)
      else (s, .ok ⟨0, 0, fld e 16 23 * 65536 + va % 2 ^ pbits, leafHome e, leafHomeid e, part, ctx⟩) := by
  simp [checkLeaf, leafLoc, h]

end Sys2Proof.Machine
open Sys2Proof Sys2Proof.Machine

/-- Settles O18: an address that is not canonical is refused before the TLB is asked; of a leaf found there alignment is tested first, then
what the leaf permits. -/
theorem translationChecksAnAccess : Obligations.TranslationChecksAnAccess := by
  unfold Obligations.TranslationChecksAnAccess
  intro s va n need e chk
  refine ⟨checkMine_not_canonical, fun hc hf hnormal => ?_⟩
  have hkind : leafKind e.leaf = 0 := by rw [leafKind, hnormal]
  have hchk : chk = _ := checkMine_of_find hc hf
  rw [hkind, checkLeaf_normal hkind, leafQ_eq_testBit, leafR_eq_testBit, leafW_eq_testBit] at hchk
  rw [hchk]
  refine ⟨fun halign => if_neg halign, fun halign => ⟨fun hdenied => ?_, fun hq hr hw => ?_⟩⟩
  · rw [if_pos halign, if_pos]
    simpa [or_assoc] using hdenied
  · rw [if_pos halign, if_neg]
    simpa [hq] using And.intro hr hw
end

section
namespace Sys2Proof.Machine

/-! ## The first lane that fails a check (R141) -/

theorem pairwise_lt_active (s : State) (g : Nat) : (active s g).Pairwise (· < ·) := pairwise_lt_lanesOf _ _

theorem find?_eq_some_of_first {p : Nat → Bool} {ls : List Nat} {k : Nat} (hls : ls.Pairwise (· < ·)) (hk : k ∈ ls) (hp : p k = true)
    (hbelow : ∀ j ∈ ls, j < k → p j = false) : ls.find? p = some k := by
  obtain ⟨as, bs, rfl⟩ := List.append_of_mem hk
  have has : ∀ j ∈ as, j < k := fun j hj => (List.pairwise_append.1 hls).2.2 j hj k List.mem_cons_self
  exact List.find?_eq_some_iff_append.2 ⟨hp, as, bs, rfl, fun j hj => by
    rw [hbelow j (List.mem_append_left _ hj) (has j hj)]
    rfl⟩

/-- A lane's access to the window is in order. -/
def laneOk (b : Block) (n ea : Nat) : Bool := winOk b ea n && ea % n == 0

theorem laneOk_iff {b : Block} {n ea : Nat} : laneOk b n ea = true ↔ winOk b ea n = true ∧ ea % n = 0 := by
  rw [laneOk, Bool.and_eq_true, beq_iff_eq]

theorem localCause_map (s : State) (n : Nat) (ea : Nat → Nat) (ls : List Nat) : localCause s n (ls.map fun i => (i, ea i)) =
    (ls.find? fun i => !laneOk s.block n (ea i)).map fun i => (i, ea i, if winOk s.block (ea i) n then 90 else 94) := by
  induction ls with
  | nil => rfl
  | cons i ls ih =>
    rw [List.map_cons, localCause, ih]
    cases hin : winOk s.block (ea i) n
    · simp [laneOk, hin]
    · by_cases halign : ea i % n = 0 <;> simp [laneOk, hin, halign]

section
variable {s : State} {n g : Nat} {write : Bool} {ea : Nat → Nat} {k : State → State}

/-- The lowest lane that is not in order stops the instruction. -/
theorem withLocal?_of_first {i : Nat} (hi : i ∈ active s g) (hbad : laneOk s.block n (ea i) = false)
    (hbelow : ∀ j ∈ active s g, j < i → winOk s.block (ea j) n = true ∧ ea j % n = 0) :
    withLocal? s n write ((active s g).map fun i => (i, ea i)) k = raiseAt (if winOk s.block (ea i) n then 90 else 94) i (ea i) s := by
  rw [withLocal?, localCause_map, find?_eq_some_of_first (pairwise_lt_active s g) hi (by rw [hbad]; rfl) fun j hj hji => by
    rw [laneOk_iff.2 (hbelow j hj hji)]
    rfl]
  rfl

/-- With every lane in order the bytes must be free of operations in flight. -/
theorem withLocal?_of_ok (hok : ∀ i ∈ active s g, winOk s.block (ea i) n = true ∧ ea i % n = 0) :
    withLocal? s n write ((active s g).map fun i => (i, ea i)) k =
      if windowBusy s ((active s g).flatMap fun i => winFoot s.block (ea i) n write) then stall s else k s := by
  have hnone : (active s g).find? (fun i => !laneOk s.block n (ea i)) = none :=
    List.find?_eq_none.2 fun i hi => by simp [laneOk_iff.2 (hok i hi)]
  rw [withLocal?, localCause_map, hnone, List.map_map]
  rfl

/-- Causes 94 and 90 of an instruction that reaches the window with its Active lanes. -/
theorem raises_of_withLocal? {i : Instr} (h : exec i s = .next (withLocal? s n write ((active s g).map fun i => (i, ea i)) k)) :
    ∀ j ∈ active s g, (∀ m ∈ active s g, m < j → winOk s.block (ea m) n = true ∧ ea m % n = 0) →
      (winOk s.block (ea j) n = false → Raises i s { causeOf 94 with lane := j, addr := ea j }) ∧
      (winOk s.block (ea j) n = true → ea j % n ≠ 0 → Raises i s { causeOf 90 with lane := j, addr := ea j }) := by
  intro j hj hbelow
  refine ⟨fun hout => ?_, fun hin halign => ?_⟩
  · rw [Raises, h, withLocal?_of_first hj (by simp [laneOk, hout]) hbelow, hout]
    rfl
  · rw [Raises, h, withLocal?_of_first hj (by simp [laneOk, hin, halign]) hbelow, hin]
    rfl

end

/-! ## A flagged destination that is complete at once (R70, R143) -/

theorem getLsbD_unknown_append_pend (t : Team) (d : PendDest) (c r i : Nat) :
    (({ t with pend := t.pend ++ [d] } : Team).unknown c r).getLsbD i =
      ((t.unknown c r).getLsbD i || (d.cls == c && d.reg == r && (d.lanes ||| d.spoiled).getLsbD i)) := by
  simp only [getLsbD_unknown, List.any_append, List.any_cons, List.any_nil, Bool.or_false]
  ac_rfl

/-- The entry of a destination that enters flight: spoiled where one was in flight on its register. -/
def Team.entering (t : Team) (d : PendDest) : PendDest :=
  if d.lanes != 0 && t.inFlight d.cls d.reg then { d with spoiled := -1 } else d

@[simp] theorem entering_cls (t : Team) (d : PendDest) : (t.entering d).cls = d.cls := by unfold Team.entering; split <;> rfl
@[simp] theorem entering_reg (t : Team) (d : PendDest) : (t.entering d).reg = d.reg := by unfold Team.entering; split <;> rfl
@[simp] theorem entering_lanes (t : Team) (d : PendDest) : (t.entering d).lanes = d.lanes := by unfold Team.entering; split <;> rfl

theorem entering_of_not_inFlight {t : Team} {d : PendDest} (h : t.inFlight d.cls d.reg = false) : t.entering d = d := by
  rw [Team.entering, h, Bool.and_false, if_neg Bool.false_ne_true]

theorem addPend_eq (t : Team) (d : PendDest) :
    t.addPend d = { t.touch d.cls d.reg d.lanes with pend := (t.touch d.cls d.reg d.lanes).pend ++ [t.entering d] } := rfl

/-- A destination in flight is unspecified in its lanes; one that was in flight before, in all lanes. -/
theorem getLsbD_unknown_addPend (t : Team) {d : PendDest} (hd : d.spoiled = 0) (c r i : Nat) (hi : i < 1024) :
    ((t.addPend d).unknown c r).getLsbD i =
      if c = d.cls ∧ r = d.reg ∧ (d.lanes.getLsbD i = true ∨ t.inFlight c r = true ∧ d.lanes ≠ 0) then true
      else (t.unknown c r).getLsbD i := by
  rw [addPend_eq, getLsbD_unknown_append_pend, getLsbD_unknown_touch _ _ _ _ _ _ i hi, entering_cls, entering_reg, entering_lanes]
  by_cases hcr : c = d.cls ∧ r = d.reg
  · obtain ⟨rfl, rfl⟩ := hcr
    by_cases hspoils : t.inFlight d.cls d.reg = true ∧ d.lanes ≠ 0
    · simp only [hspoils, ne_eq, not_false_eq_true, and_self, if_true, or_true, Bool.true_or]
    · have hsp : (t.entering d).spoiled = 0 := by
        rw [Team.entering, if_neg, hd]
        simpa [and_comm] using hspoils
      rw [hsp, if_neg fun h => hspoils h.2.2]
      simp only [hspoils, or_false, true_and, beq_self_eq_true, Bool.true_and]
      cases hm : d.lanes.getLsbD i <;> simp [hm]
  · have hne : (d.cls == c && d.reg == r) = false := by
      rw [Bool.and_eq_false_imp]
      intro hc
      exact beq_false_of_ne fun hr => hcr ⟨(beq_iff_eq.1 hc).symm, hr.symm⟩
    simp [← and_assoc, hcr, hne]

theorem mem_pend_addPend {t : Team} {d p : PendDest} :
    p ∈ (t.addPend d).pend ↔ p ∈ (t.touch d.cls d.reg d.lanes).pend ∨ p = t.entering d := by
  rw [addPend_eq, List.mem_append, List.mem_singleton]

theorem inFlight_addPend_of_reg_ne (t : Team) {d : PendDest} {c r : Nat} (h : r ≠ d.reg) :
    (t.addPend d).inFlight c r = t.inFlight c r := by
  have hentry : ((t.entering d).cls == c && (t.entering d).reg == r) = false := by simp [Ne.symm h]
  rw [← inFlight_touch t d.cls d.reg d.lanes c r, addPend_eq, Team.inFlight, List.any_append, List.any_cons, hentry]
  simp [Team.inFlight]

/-- Lane i of a register is known once flag f has been waited for. -/
def KnownAfter (t : Team) (f c r i : Nat) : Prop :=
  (∀ p ∈ t.pend, p.cls = c → p.reg = r → p.flag = f ∧ p.spoiled.getLsbD i = false) ∧
  ∀ u ∈ t.unspec, u.cls = c → u.reg = r → u.lanes.getLsbD i = false

theorem KnownAfter.laneAt_waited {t : Team} {f r i : Nat} (h : KnownAfter t f 0 r i) :
    (t.waited f).laneAt r i = some (wget t.vregs (r * 1024 + i)) := by
  obtain ⟨hpend, hunspec⟩ := h
  refine if_neg (Bool.not_eq_true _ ▸ ?_)
  rw [getLsbD_unknown, Bool.or_eq_false_iff, List.any_eq_false, List.any_eq_false]
  refine ⟨fun p hp => ?_, fun u hu => ?_⟩
  · obtain ⟨hp, hflag⟩ := List.mem_filter.1 hp
    simp only [Bool.and_eq_true, beq_iff_eq, not_and]
    intro hc
    exact absurd (hpend p hp hc.1 hc.2).1 (by simpa using hflag)
  · simp only [Bool.and_eq_true, beq_iff_eq, not_and]
    intro hc
    rcases List.mem_append.1 hu with hu | hu
    · rw [hunspec u hu hc.1 hc.2]
      exact Bool.false_ne_true
    · obtain ⟨p, hp, rfl⟩ := List.mem_map.1 hu
      rw [(hpend p (List.mem_filter.1 hp).1 hc.1 hc.2).2]
      exact Bool.false_ne_true

theorem mem_pend_touch {t : Team} {c r : Nat} {ls : Lanes} {p : PendDest} (h : p ∈ (t.touch c r ls).pend) :
    ∃ q ∈ t.pend, q.cls = p.cls ∧ q.reg = p.reg ∧ (p.reg ≠ r → q = p) := by
  obtain ⟨q, hq, rfl⟩ := List.mem_map.1 h
  refine ⟨q, hq, ?_⟩
  split
  · next hm => exact ⟨rfl, rfl, fun hne => by simp_all⟩
  · exact ⟨rfl, rfl, fun _ => rfl⟩

theorem mem_unspec_touch {t : Team} {c r : Nat} {ls : Lanes} {u : UnspecDest} (h : u ∈ (t.touch c r ls).unspec) :
    ∃ v ∈ t.unspec, v.cls = u.cls ∧ v.reg = u.reg ∧
      u.lanes = if u.cls = c ∧ u.reg = r then v.lanes &&& ~~~ls else v.lanes := by
  obtain ⟨v, hv, rfl⟩ := List.mem_map.1 (List.mem_filter.1 h).1
  exact ⟨v, hv, by split <;> simp_all⟩

/-- A destination that enters flight under flag f alone on its register. -/
theorem knownAfter_addPend {t : Team} {d : PendDest} (hf : t.inFlight d.cls d.reg = false) (hd : d.spoiled = 0) {i : Nat}
    (hi : d.lanes.getLsbD i = true) : KnownAfter (t.addPend d) d.flag d.cls d.reg i := by
  refine ⟨fun p hp hc hr => ?_, fun u hu hc hr => ?_⟩
  · rcases mem_pend_addPend.1 hp with hp | rfl
    · obtain ⟨q, hq, hqc, hqr, -⟩ := mem_pend_touch hp
      have := List.any_eq_false.1 hf q hq
      simp [hqc, hqr, hc, hr] at this
    · rw [entering_of_not_inFlight hf, hd]
      exact ⟨rfl, BitVec.getLsbD_zero⟩
  · obtain ⟨v, hv, -, -, hl⟩ := mem_unspec_touch hu
    rw [hl, if_pos ⟨hc, hr⟩, BitVec.getLsbD_and, BitVec.getLsbD_not, hi, Bool.not_true, Bool.and_false, Bool.and_false]

theorem KnownAfter.addPend {t : Team} {f c r i : Nat} (h : KnownAfter t f c r i) {d : PendDest} (hr : r ≠ d.reg) :
    KnownAfter (t.addPend d) f c r i := by
  obtain ⟨hpend, hunspec⟩ := h
  refine ⟨fun p hp hpc hpr => ?_, fun u hu huc hur => ?_⟩
  · rcases mem_pend_addPend.1 hp with hp | rfl
    · obtain ⟨q, hq, -, -, hqp⟩ := mem_pend_touch hp
      exact hpend p (hqp (hpr ▸ hr) ▸ hq) hpc hpr
    · exact absurd ((entering_reg t d).symm.trans hpr).symm hr
  · obtain ⟨v, hv, hvc, hvr, hl⟩ := mem_unspec_touch hu
    rw [hl, if_neg fun h => hr (hur ▸ h.2)]
    exact hunspec v hv (hvc.trans huc) (hvr.trans hur)

theorem KnownAfter.spoil {t : Team} {f c r i : Nat} (h : KnownAfter t f c r i) {ls : Lanes} (hi : ls.getLsbD i = false) (op : Nat) :
    KnownAfter (t.spoil op ls) f c r i := by
  refine ⟨fun p hp => ?_, h.2⟩
  obtain ⟨q, hq, rfl⟩ := List.mem_map.1 hp
  split
  · intro hc hr
    obtain ⟨hflag, hspoiled⟩ := h.1 q hq hc hr
    exact ⟨hflag, by rw [BitVec.getLsbD_or, hspoiled, BitVec.getLsbD_and, hi]; rfl⟩
  · exact h.1 q hq

theorem unknown_spoil (t : Team) (op : Nat) (ls : Lanes) (c r i : Nat) :
    ((t.spoil op ls).unknown c r).getLsbD i = (t.unknown c r).getLsbD i := by
  rw [getLsbD_unknown, getLsbD_unknown, Team.spoil, List.any_map]
  congr 2
  funext p
  simp only [Function.comp]
  split
  · simp only [BitVec.getLsbD_or, BitVec.getLsbD_and]
    cases p.lanes.getLsbD i <;> simp
  · rfl

/-! ### The destination of a flagged load, one register or the pair -/

/-- A team whose operation, one under flag f, has its destination in flight in the lanes of m. -/
def Team.landing (t : Team) (f id r : Nat) (wide : Bool) (m : Lanes) : Team :=
  (vecDests r wide m).foldl (fun t x => t.addPend ⟨x.1, x.2.1, x.2.2, f, id, 0⟩) t

/-- Values put into the register, or into the pair. -/
def Team.storeN (t : Team) (r : Nat) (wide : Bool) (xs : List (Nat × Nat)) : Team :=
  let t := t.storeV r (xs.map fun x => (x.1, BitVec.ofNat 32 x.2))
  if wide then t.storeV (r + 1) (xs.map fun x => (x.1, BitVec.ofNat 32 (x.2 / 2 ^ 32))) else t

/-- The registers of a team and what is known of them. -/
def Team.registers (t : Team) : Tab DWord × Tab Word × Tab Lanes × List PendDest × List UnspecDest :=
  (t.sregs, t.vregs, t.pregs, t.pend, t.unspec)

theorem of_registers {t u : Team} (h : u.registers = t.registers) :
    u.scalarAt = t.scalarAt ∧ u.laneAt = t.laneAt ∧ u.predAt = t.predAt ∧ ∀ f, (u.waited f).laneAt = (t.waited f).laneAt := by
  simp only [Team.registers, Prod.mk.injEq] at h
  obtain ⟨hs, hv, hp, hpend, hunspec⟩ := h
  have hunknown : u.unknown = t.unknown := by unfold Team.unknown; rw [hpend, hunspec]
  have hwaited : ∀ f, (u.waited f).unknown = (t.waited f).unknown := fun f => by
    unfold Team.unknown Team.waited
    rw [hpend, hunspec]
  refine ⟨?_, ?_, ?_, fun f => ?_⟩
  · unfold Team.scalarAt; rw [hunknown, hs]
  · unfold Team.laneAt; rw [hunknown, hv]
  · unfold Team.predAt; rw [hunknown, hp]
  · funext r i
    simp only [Team.laneAt, hwaited]
    rw [show (u.waited f).vregs = (t.waited f).vregs from hv]

theorem storeN_keeps (t : Team) (r : Nat) (wide : Bool) (xs : List (Nat × Nat)) :
    (t.storeN r wide xs).sregs = t.sregs ∧ (t.storeN r wide xs).pregs = t.pregs ∧
    (t.storeN r wide xs).pend = t.pend ∧ (t.storeN r wide xs).unspec = t.unspec := by
  unfold Team.storeN
  split <;> exact ⟨rfl, rfl, rfl, rfl⟩

theorem wget_storeV (t : Team) (r : Nat) {ls : List Nat} (hl : ∀ k ∈ ls, k < 1024) (v : Nat → Word) {q i : Nat} (hi : i < 1024) :
    wget (t.storeV r (ls.map fun k => (k, v k))).vregs (q * 1024 + i) =
      if q = r ∧ i ∈ ls then v i else wget t.vregs (q * 1024 + i) := by
  split
  · next h =>
    rw [h.1]
    exact wget_foldl_tset_map (fun k => r * 1024 + k) v ls t.vregs i (fun k _ h => Nat.add_left_cancel h.symm) h.2
  · next h =>
    refine wget_foldl_tset_not_mem (fun k => r * 1024 + k) _ _ _ fun x hx he => ?_
    obtain ⟨k, hk, rfl⟩ := List.mem_map.1 hx
    have := hl k hk
    simp only at he
    exact h ⟨by omega, (show i = k by omega) ▸ hk⟩

theorem wget_storeN (t : Team) (r : Nat) (wide : Bool) {ls : List Nat} (hl : ∀ k ∈ ls, k < 1024) (v : Nat → Nat) {q i : Nat}
    (hi : i < 1024) : wget (t.storeN r wide (ls.map fun k => (k, v k))).vregs (q * 1024 + i) =
      if i ∈ ls then
        if q = r then BitVec.ofNat 32 (v i) else if wide = true ∧ q = r + 1 then BitVec.ofNat 32 (v i / 2 ^ 32)
        else wget t.vregs (q * 1024 + i)
      else wget t.vregs (q * 1024 + i) := by
  simp only [Team.storeN, List.map_map, Function.comp_def]
  cases wide
  · rw [if_neg Bool.false_ne_true, wget_storeV t r hl (fun k => BitVec.ofNat 32 (v k)) hi]
    by_cases hm : i ∈ ls <;> simp [hm]
  · rw [if_pos rfl, wget_storeV _ _ hl (fun k => BitVec.ofNat 32 (v k / 2 ^ 32)) hi, wget_storeV t r hl (fun k => BitVec.ofNat 32 (v k)) hi]
    by_cases hm : i ∈ ls
    · by_cases hq : q = r
      · simp [hm, hq]
      · simp [hm, hq]
    · simp [hm]

theorem landing_word (t : Team) (f id r : Nat) (m : Lanes) : t.landing f id r false m = t.addPend ⟨0, r, m, f, id, 0⟩ := rfl

theorem landing_pair (t : Team) (f id r : Nat) (m : Lanes) :
    t.landing f id r true m = (t.addPend ⟨0, r, m, f, id, 0⟩).addPend ⟨0, r + 1, m, f, id, 0⟩ := rfl

theorem getLsbD_unknown_landing (t : Team) (f id r : Nat) (wide : Bool) (m : Lanes) (c q i : Nat) (hi : i < 1024) :
    ((t.landing f id r wide m).unknown c q).getLsbD i =
      if c = 0 ∧ (q = r ∨ wide = true ∧ q = r + 1) ∧ (m.getLsbD i = true ∨ t.inFlight c q = true ∧ m ≠ 0) then true
      else (t.unknown c q).getLsbD i := by
  cases wide
  · rw [landing_word, getLsbD_unknown_addPend t rfl c q i hi]
    simp only [Bool.false_eq_true, false_and, or_false]
  · rw [landing_pair, getLsbD_unknown_addPend _ rfl c q i hi, getLsbD_unknown_addPend t rfl c q i hi]
    by_cases hq : q = r
    · simp [hq]
    · rw [inFlight_addPend_of_reg_ne t hq]
      simp only [hq, false_and, and_false, false_or, true_and, if_false]

/-- The destination is known after the WAIT where it was not in flight before. -/
theorem knownAfter_landing {t : Team} {f id r : Nat} {wide : Bool} {m : Lanes} {q i : Nat} (hq : q = r ∨ wide = true ∧ q = r + 1)
    (hf : t.inFlight 0 q = false) (hi : m.getLsbD i = true) : KnownAfter (t.landing f id r wide m) f 0 q i := by
  cases wide with
  | false =>
    obtain rfl : q = r := by simpa using hq
    exact knownAfter_addPend (d := ⟨0, q, m, f, id, 0⟩) hf rfl hi
  | true =>
    rcases hq with rfl | ⟨-, rfl⟩
    · exact (knownAfter_addPend (d := ⟨0, q, m, f, id, 0⟩) hf rfl hi).addPend (Nat.ne_of_lt (Nat.lt_succ_self q))
    · refine knownAfter_addPend (d := ⟨0, r + 1, m, f, id, 0⟩) ?_ rfl hi
      rwa [inFlight_addPend_of_reg_ne t (Nat.succ_ne_self r)]

theorem landing_keeps_registers (t : Team) (f id r : Nat) (wide : Bool) (m : Lanes) :
    (t.landing f id r wide m).sregs = t.sregs ∧ (t.landing f id r wide m).vregs = t.vregs ∧
    (t.landing f id r wide m).pregs = t.pregs := by
  cases wide <;> exact ⟨rfl, rfl, rfl⟩

/-- A team with its flagged destination in flight, the values of the good lanes in the register file and the bad lanes spoiled. -/
def Team.landFlagged (t : Team) (f id r : Nat) (wide : Bool) (good : List (Nat × Nat)) (bad : List Nat) : Team :=
  ((t.landing f id r wide (maskOf (good.map Prod.fst ++ bad))).storeN r wide good).spoil id (maskOf bad)

theorem registers_recordFault (t : Team) (f : Nat) (x : FaultRec) : (t.recordFault f x).registers = t.registers := by
  unfold Team.recordFault
  split <;> rfl

theorem registers_landFlagged (s : State) (f d : Nat) (wide : Bool) (good : List (Nat × Nat)) (bad : List Nat) (x : Option FaultRec) :
    (landFlagged s f d wide good bad x).team.registers = (s.team.landFlagged f s.nextOp (logV s d) wide good bad).registers := by
  rw [landFlagged, State.modTeam_team]
  cases x with
  | none => rfl
  | some x => exact registers_recordFault _ _ _

section
variable (t : Team) (f id r : Nat) (wide : Bool) {ls bad : List Nat} (v : Nat → Nat)

theorem getLsbD_unknown_landFlagged (hl : ∀ k ∈ ls, k < 1024) (hb : ∀ k ∈ bad, k < 1024) (c q : Nat) {i : Nat} (hi : i < 1024) :
    ((t.landFlagged f id r wide (ls.map fun k => (k, v k)) bad).unknown c q).getLsbD i =
      if c = 0 ∧ (q = r ∨ wide = true ∧ q = r + 1) ∧ (i ∈ ls ++ bad ∨ t.inFlight c q = true ∧ ls ++ bad ≠ []) then true
      else (t.unknown c q).getLsbD i := by
  obtain ⟨-, -, hpend, hunspec⟩ := storeN_keeps
    (t.landing f id r wide (maskOf ((ls.map fun k => (k, v k)).map Prod.fst ++ bad))) r wide (ls.map fun k => (k, v k))
  have hkeys : (ls.map fun k => (k, v k)).map Prod.fst = ls := by rw [List.map_map]; exact List.map_id' ls
  have hlt : ∀ k ∈ ls ++ bad, k < 1024 := fun k hk => (List.mem_append.1 hk).elim (hl k) (hb k)
  rw [Team.landFlagged, unknown_spoil, getLsbD_unknown, hpend, hunspec, ← getLsbD_unknown, getLsbD_unknown_landing _ _ _ _ _ _ _ _ _ hi,
    hkeys, getLsbD_maskOf _ _ hi]
  simp only [decide_eq_true_eq, maskOf_ne_zero hlt]

theorem wget_landFlagged (hl : ∀ k ∈ ls, k < 1024) {q i : Nat} (hi : i < 1024) :
    wget (t.landFlagged f id r wide (ls.map fun k => (k, v k)) bad).vregs (q * 1024 + i) =
      if i ∈ ls then
        if q = r then BitVec.ofNat 32 (v i) else if wide = true ∧ q = r + 1 then BitVec.ofNat 32 (v i / 2 ^ 32)
        else wget t.vregs (q * 1024 + i)
      else wget t.vregs (q * 1024 + i) := by
  obtain ⟨-, hvregs, -⟩ := landing_keeps_registers t f id r wide (maskOf ((ls.map fun k => (k, v k)).map Prod.fst ++ bad))
  rw [← hvregs]
  exact wget_storeN _ r wide hl v hi

theorem sameScalars_landFlagged (hl : ∀ k ∈ ls, k < 1024) (hb : ∀ k ∈ bad, k < 1024) :
    SameScalars t (t.landFlagged f id r wide (ls.map fun k => (k, v k)) bad) := by
  intro p
  have hsregs : (t.landFlagged f id r wide (ls.map fun k => (k, v k)) bad).sregs = t.sregs :=
    (storeN_keeps _ _ _ _).1.trans (landing_keeps_registers _ _ _ _ _ _).1
  rw [Team.scalarAt, Team.scalarAt, getLsbD_unknown_landFlagged t f id r wide v hl hb 1 p (by decide), hsregs]
  simp

theorem samePreds_landFlagged (hl : ∀ k ∈ ls, k < 1024) (hb : ∀ k ∈ bad, k < 1024) :
    SamePreds t (t.landFlagged f id r wide (ls.map fun k => (k, v k)) bad) := by
  intro p i hi
  have hpregs : (t.landFlagged f id r wide (ls.map fun k => (k, v k)) bad).pregs = t.pregs :=
    (storeN_keeps _ _ _ _).2.1.trans (landing_keeps_registers _ _ _ _ _ _).2.2
  rw [Team.predAt, Team.predAt, getLsbD_unknown_landFlagged t f id r wide v hl hb 2 p hi, hpregs]
  simp

theorem laneAt_landFlagged_of_ne (hl : ∀ k ∈ ls, k < 1024) (hb : ∀ k ∈ bad, k < 1024) {q i : Nat} (hi : i < 1024)
    (h : ¬((q = r ∨ wide = true ∧ q = r + 1) ∧ (i ∈ ls ++ bad ∨ t.inFlight 0 q = true))) :
    (t.landFlagged f id r wide (ls.map fun k => (k, v k)) bad).laneAt q i = t.laneAt q i := by
  have hunknown := getLsbD_unknown_landFlagged t f id r wide v hl hb 0 q hi
  rw [if_neg fun hc => h ⟨hc.2.1, hc.2.2.imp_right And.left⟩] at hunknown
  rw [Team.laneAt, Team.laneAt, hunknown, wget_landFlagged t f id r wide v hl hi]
  by_cases hm : i ∈ ls
  · have hq : ¬(q = r ∨ wide = true ∧ q = r + 1) := fun hq => h ⟨hq, .inl (List.mem_append_left _ hm)⟩
    rw [if_pos hm, if_neg fun hr => hq (.inl hr), if_neg fun hp => hq (.inr hp)]
  · rw [if_neg hm]

theorem laneAt_landFlagged_of_mem (hl : ∀ k ∈ ls, k < 1024) (hb : ∀ k ∈ bad, k < 1024) {i : Nat} (hi : i ∈ ls ++ bad) :
    (t.landFlagged f id r wide (ls.map fun k => (k, v k)) bad).laneAt r i = none := by
  have hlt : i < 1024 := (List.mem_append.1 hi).elim (hl i) (hb i)
  have hunknown := getLsbD_unknown_landFlagged t f id r wide v hl hb 0 r hlt
  rw [if_pos ⟨rfl, .inl rfl, .inl hi⟩] at hunknown
  exact if_pos hunknown

theorem laneAt_waited_landFlagged (hl : ∀ k ∈ ls, k < 1024) {q i : Nat} (hi : i ∈ ls) (hbad : i ∉ bad)
    (hq : q = r ∨ wide = true ∧ q = r + 1) (hf : t.inFlight 0 q = false) :
    ((t.landFlagged f id r wide (ls.map fun k => (k, v k)) bad).waited f).laneAt q i =
      some (if q = r then BitVec.ofNat 32 (v i) else BitVec.ofNat 32 (v i / 2 ^ 32)) := by
  have hmask : (maskOf ((ls.map fun k => (k, v k)).map Prod.fst ++ bad)).getLsbD i = true := by
    rw [getLsbD_maskOf _ _ (hl i hi), decide_eq_true_eq, List.map_map]
    exact List.mem_append_left _ (List.mem_map.2 ⟨i, hi, rfl⟩)
  obtain ⟨-, -, hpend, hunspec⟩ := storeN_keeps
    (t.landing f id r wide (maskOf ((ls.map fun k => (k, v k)).map Prod.fst ++ bad))) r wide (ls.map fun k => (k, v k))
  have hstored : KnownAfter ((t.landing f id r wide (maskOf ((ls.map fun k => (k, v k)).map Prod.fst ++ bad))).storeN r wide
      (ls.map fun k => (k, v k))) f 0 q i := by
    rw [KnownAfter, hpend, hunspec]
    exact knownAfter_landing hq hf hmask
  have hclear : (maskOf bad).getLsbD i = false := by
    rw [getLsbD_maskOf _ _ (hl i hi)]
    exact decide_eq_false hbad
  rw [Team.landFlagged, (hstored.spoil hclear id).laneAt_waited]
  refine congrArg some ((wget_landFlagged t f id r wide v hl (hl i hi)).trans ?_)
  rw [if_pos hi]
  rcases hq with hq | hq
  · rw [if_pos hq, if_pos hq]
  · rw [if_pos hq]

end

/-- A flagged destination that is complete at once, the lanes of p faulting: unreadable in its lanes until the WAIT, the other lanes' values
then (R70, R143). -/
theorem ends_landFlagged {i : Instr} {s : State} {f d : Nat} {wide : Bool} {as : List Nat} {p : Nat → Bool} {v : Nat → Nat}
    {x : Option FaultRec} (ha : ∀ k ∈ as, k < 1024)
    (h : exec i s = .next (landFlagged s f d wide ((as.filter fun k => !p k).map fun k => (k, v k)) (as.filter p) x)) :
    Ends i s fun t =>
      SameMemory s t ∧ OtherTeams s t ∧ SameScalars s.team t.team ∧ SamePreds s.team t.team ∧
      SameLanesBut s.team t.team wide (logV s d) as ∧ t.fate = s.fate ∧
      ∀ k ∈ as, t.team.laneAt (logV s d) k = none ∧
        (p k = false →
          (s.team.inFlight 0 (logV s d) = false → (t.team.waited f).laneAt (logV s d) k = some (BitVec.ofNat 32 (v k))) ∧
          (wide = true → s.team.inFlight 0 (logV s d + 1) = false →
            (t.team.waited f).laneAt (logV s d + 1) k = some (BitVec.ofNat 32 (v k / 2 ^ 32)))) := by
  have hgood : ∀ k ∈ as.filter fun k => !p k, k < 1024 := fun k hk => ha k (List.mem_filter.1 hk).1
  have hbad : ∀ k ∈ as.filter p, k < 1024 := fun k hk => ha k (List.mem_filter.1 hk).1
  have hmem : ∀ k, k ∈ (as.filter fun k => !p k) ++ as.filter p ↔ k ∈ as := fun k => by
    rw [List.mem_append, List.mem_filter, List.mem_filter, ← and_or_left]
    cases p k <;> simp
  obtain ⟨hscalar, hlane, hpred, hwaited⟩ := of_registers (registers_landFlagged s f d wide
    ((as.filter fun k => !p k).map fun k => (k, v k)) (as.filter p) x)
  refine ⟨_, h, ⟨rfl, rfl, rfl, rfl, rfl, rfl⟩, fun k hk => tget_tset_ne _ _ _ _ hk, fun q => ?_, fun q k hk => ?_,
    fun q k hk hne => ?_, rfl, fun k hk => ⟨?_, fun hpk => ⟨fun hf => ?_, fun hw hf => ?_⟩⟩⟩
  · rw [hscalar]
    exact sameScalars_landFlagged _ _ _ _ _ v hgood hbad q
  · rw [hpred]
    exact samePreds_landFlagged _ _ _ _ _ v hgood hbad q k hk
  · rw [hlane]
    exact laneAt_landFlagged_of_ne _ _ _ _ _ v hgood hbad hk (by rwa [hmem k])
  · rw [hlane]
    exact laneAt_landFlagged_of_mem _ _ _ _ _ v hgood hbad ((hmem k).2 hk)
  · rw [hwaited, laneAt_waited_landFlagged _ _ _ _ _ v hgood (by simp [hk, hpk]) (by simp [hpk]) (.inl rfl) hf, if_pos rfl]
  · rw [hwaited, laneAt_waited_landFlagged _ _ _ _ _ v hgood (by simp [hk, hpk]) (by simp [hpk]) (.inr ⟨hw, rfl⟩) hf,
      if_neg (Nat.succ_ne_self _)]

/-! ## Loads from the window (R143, R190) -/

theorem loadLocal_eq_withLocal? (n : Nat) (wide : Bool) (o : MOp) (x : Int) (s : State) :
    ∃ k, loadLocal n wide o x s = withLocal? s n false ((active s o.g).map fun i => (i, eaOf s o.s o.a x i)) k := by
  unfold loadLocal laneEas
  exact ⟨_, rfl⟩

section
variable {s : State} {o : MOp} {n : Nat} {wide : Bool} {x : Int}
  (hok : ∀ k ∈ active s o.g, winOk s.block (eaOf s o.s o.a x k) n = true ∧ eaOf s o.s o.a x k % n = 0)
include hok

theorem loadLocal_of_busy
    (hbusy : windowBusy s ((active s o.g).flatMap fun k => winFoot s.block (eaOf s o.s o.a x k) n false) = true) :
    loadLocal n wide o x s = stall s := by
  rw [loadLocal, laneEas, withLocal?_of_ok hok, if_pos hbusy]

variable (hfree : windowBusy s ((active s o.g).flatMap fun k => winFoot s.block (eaOf s o.s o.a x k) n false) = false)
include hfree

/-- With a flag the poisoned lanes are put down to it. -/
theorem loadLocal_of_flagged (hf : o.f < 12) (hroom : flagRoom s o.f = true) :
    loadLocal n wide o x s = landFlagged s o.f o.d wide
      (((active s o.g).filter fun k => !winPoisoned s (eaOf s o.s o.a x k) n).map fun k => (k, leNat (readWin s (eaOf s o.s o.a x k) n)))
      ((active s o.g).filter fun k => winPoisoned s (eaOf s o.s o.a x k) n)
      (((active s o.g).find? fun k => winPoisoned s (eaOf s o.s o.a x k) n).map fun k => ⟨92, eaOf s o.s o.a x k, 0, k, false⟩) := by
  rw [loadLocal, laneEas, withLocal?_of_ok hok, hfree, if_neg Bool.false_ne_true, if_pos hf, if_pos hroom]
  simp only [List.filter_map, List.map_map, List.head?_map, List.head?_filter, Option.map_map, Function.comp_def, List.map_id_fun', id_eq]

theorem loadLocal_of_clean (hf : 12 ≤ o.f) (hclean : ∀ k ∈ active s o.g, winPoisoned s (eaOf s o.s o.a x k) n = false) :
    loadLocal n wide o x s = writeN s wide o.d ((active s o.g).map fun k => (k, leNat (readWin s (eaOf s o.s o.a x k) n))) := by
  have hbad : (active s o.g).filter (fun k => winPoisoned s (eaOf s o.s o.a x k) n) = [] :=
    List.filter_eq_nil_iff.2 fun k hk => by simp [hclean k hk]
  have hgood : (active s o.g).filter (fun k => !winPoisoned s (eaOf s o.s o.a x k) n) = active s o.g :=
    List.filter_eq_self.2 fun k hk => by simp [hclean k hk]
  rw [loadLocal, laneEas, withLocal?_of_ok hok, hfree, if_neg Bool.false_ne_true, if_neg (Nat.not_lt.2 hf)]
  simp only [List.filter_map, List.map_map, Function.comp_def, hbad, hgood]
  rfl

/-- Without a flag the lowest poisoned lane raises 92. -/
theorem loadLocal_of_poisoned (hf : 12 ≤ o.f) {k : Nat} (hk : k ∈ active s o.g) (hbad : winPoisoned s (eaOf s o.s o.a x k) n = true)
    (hbelow : ∀ j ∈ active s o.g, j < k → winPoisoned s (eaOf s o.s o.a x j) n = false) :
    loadLocal n wide o x s = raiseAt 92 k (eaOf s o.s o.a x k) s := by
  have hfirst := find?_eq_some_of_first (pairwise_lt_active s o.g) hk hbad hbelow
  rw [loadLocal, laneEas, withLocal?_of_ok hok, hfree, if_neg Bool.false_ne_true, if_neg (Nat.not_lt.2 hf)]
  simp only [List.filter_map, List.head?_map, List.head?_filter, Function.comp_def, hfirst]
  rfl

end

end Sys2Proof.Machine
end

section
namespace Sys2Proof.Machine

/-! ## One byte of a core's scratchpad (R376) -/

/-- All of the package but what a store to a scratchpad may change: its bytes, their poison, and the owners of its granules. -/
def State.besideScratchpad (s : State) : State := { s with spad := [], spadPois := [], spadOwn := [] }

theorem takeGranule_besideScratchpad (s : State) (core own off : Nat) :
    (takeGranule s 0 core own off).besideScratchpad = s.besideScratchpad := by
  unfold takeGranule
  split <;> rfl

theorem writeLocal1_besideScratchpad (s : State) (core own off : Nat) (b : Byte) :
    (writeLocal1 s 0 core own off b).besideScratchpad = s.besideScratchpad := takeGranule_besideScratchpad s core own off

theorem localKey_inj {space core off p : Nat} : localKey space core p = localKey space core off ↔ p = off := Nat.add_left_cancel_iff

theorem granuleKey_inj {space core off p : Nat} : granuleKey space core p = granuleKey space core off ↔ p / 64 = off / 64 :=
  Nat.add_left_cancel_iff

theorem granuleTag_takeGranule (s : State) (core own off p : Nat) :
    granuleTag (takeGranule s 0 core own off) 0 core p = if p / 64 = off / 64 then own else granuleTag s 0 core p := by
  unfold takeGranule
  by_cases hown : granuleTag s 0 core off = own
  · rw [if_pos hown]
    split
    · next h => rw [← hown, granuleTag, granuleTag, granuleKey_inj.2 h]
    · rfl
  · rw [if_neg hown, granuleTag]
    simp only [tget_tset, granuleKey_inj]
    split <;> rfl

/-- Taking a granule over shows its new owner nothing that it did not see before. -/
theorem readLocal1_takeGranule (s : State) (core own off p : Nat) :
    readLocal1 (takeGranule s 0 core own off) 0 core own p = readLocal1 s 0 core own p := by
  rw [readLocal1, readLocal1, granuleTag_takeGranule]
  by_cases hown : granuleTag s 0 core off = own
  · rw [takeGranule, if_pos hown]
    split
    · next h =>
      have htag : granuleTag s 0 core p = granuleTag s 0 core off := by rw [granuleTag, granuleTag, granuleKey_inj.2 h]
      rw [htag]
      simp [hown]
    · rfl
  · have hmem : localMem (takeGranule s 0 core own off) 0 = mzero s.spad (localKey 0 core (off / 64 * 64)) 64 := by
      rw [takeGranule, if_neg hown]
      rfl
    have hin : (localKey 0 core (off / 64 * 64) ≤ localKey 0 core p ∧ localKey 0 core p < localKey 0 core (off / 64 * 64) + 64) ↔
        p / 64 = off / 64 := by
      simp only [localKey]
      omega
    rw [hmem, mget_mzero]
    simp only [hin]
    by_cases h : p / 64 = off / 64
    · have htag : granuleTag s 0 core p ≠ own := by rwa [granuleTag, granuleKey_inj.2 h]
      simp [h, htag]
    · simp only [if_neg h]
      rfl

/-- What owner own reads after it has written one byte. -/
theorem readLocal1_writeLocal1 (s : State) (core own off p : Nat) (b : Byte) :
    readLocal1 (writeLocal1 s 0 core own off b) 0 core own p = if p = off then b else readLocal1 s 0 core own p := by
  rw [← readLocal1_takeGranule s core own off p]
  have htag : granuleTag (writeLocal1 s 0 core own off b) 0 core p = granuleTag (takeGranule s 0 core own off) 0 core p := rfl
  have hmem : localMem (writeLocal1 s 0 core own off b) 0 =
      mset (localMem (takeGranule s 0 core own off) 0) (localKey 0 core off) b := rfl
  rw [readLocal1, readLocal1, htag, hmem, mget_mset]
  simp only [localKey_inj]
  by_cases h : p = off
  · rw [if_pos h, if_pos h, if_pos (by rw [granuleTag_takeGranule, if_pos (by rw [h])])]
  · rw [if_neg h, if_neg h]

/-! ## Bytes written to the current block's window (R191) -/

/-- A byte of the scratchpad as the current block reads it. -/
def padByte (s : State) (p : Nat) : Byte := readLocal1 s 0 s.cur.core (s.owner s.block.part) p

/-- What the state after a step of a store says of the window and of who reads it. -/
theorem window_of_besideScratchpad {s t : State} (h : t.besideScratchpad = s.besideScratchpad) :
    t.block = s.block ∧ ∀ p, padByte t p = readLocal1 t 0 s.cur.core (s.owner s.block.part) p := by
  have hblock : t.block = s.block := (congrArg State.block h :)
  have hcur : t.cur = s.cur := (congrArg State.cur h :)
  have howner : t.owner = s.owner := (congrArg State.owner h :)
  exact ⟨hblock, fun p => by rw [padByte, hblock, hcur, howner]⟩

/-- One byte stored at an offset of the window; outside it nothing is. -/
def putWin (s : State) (off : Nat) (b : Byte) : State :=
  match winByte s.block off with
  | some o => writeLocal1 s 0 s.cur.core (s.owner s.block.part) o b
  | none => s

theorem putWin_besideScratchpad (s : State) (off : Nat) (b : Byte) : (putWin s off b).besideScratchpad = s.besideScratchpad := by
  unfold putWin
  split
  · exact writeLocal1_besideScratchpad _ _ _ _ _
  · rfl

theorem padByte_putWin (s : State) (off p : Nat) (b : Byte) :
    padByte (putWin s off b) p = if winByte s.block off = some p then b else padByte s p := by
  rw [(window_of_besideScratchpad (putWin_besideScratchpad s off b)).2, putWin]
  split
  · next o ho => simp [readLocal1_writeLocal1, padByte, ho, eq_comm]
  · next ho => simp [ho, padByte]

theorem writeWin_cons (s : State) (off : Nat) (b : Byte) (bs : List Byte) :
    writeWin s off (b :: bs) = writeWin (putWin s off b) (off + 1) bs := rfl

theorem writeWin_besideScratchpad (s : State) (off : Nat) (bs : List Byte) :
    (writeWin s off bs).besideScratchpad = s.besideScratchpad := by
  induction bs generalizing s off with
  | nil => rfl
  | cons b bs ih => exact (ih _ _).trans (putWin_besideScratchpad s off b)

theorem padByte_writeWin_of_untouched {s : State} {off p : Nat} {bs : List Byte}
    (h : ∀ j, j < bs.length → winByte s.block (off + j) ≠ some p) : padByte (writeWin s off bs) p = padByte s p := by
  induction bs generalizing s off with
  | nil => rfl
  | cons b bs ih =>
    have hblock := (window_of_besideScratchpad (putWin_besideScratchpad s off b)).1
    have hhead : winByte s.block off ≠ some p := h 0 (Nat.succ_pos _)
    rw [writeWin_cons, ih, padByte_putWin, if_neg hhead]
    intro j hj
    rw [hblock, Nat.add_assoc, Nat.add_comm 1]
    exact h (j + 1) (Nat.succ_lt_succ hj)

/-- Of the bytes that fall on one place the last stays. -/
theorem padByte_writeWin_of_last {s : State} {off p j : Nat} {bs : List Byte} (hj : j < bs.length)
    (hp : winByte s.block (off + j) = some p) (hlast : ∀ i, j < i → i < bs.length → winByte s.block (off + i) ≠ some p) :
    padByte (writeWin s off bs) p = bs[j] := by
  induction bs generalizing s off j with
  | nil => exact absurd hj (Nat.not_lt_zero j)
  | cons b bs ih =>
    have hblock := (window_of_besideScratchpad (putWin_besideScratchpad s off b)).1
    have hshift : ∀ i, winByte (putWin s off b).block (off + 1 + i) = winByte s.block (off + (i + 1)) := fun i => by
      rw [hblock, Nat.add_assoc, Nat.add_comm 1]
    rw [writeWin_cons]
    cases j with
    | zero =>
      rw [padByte_writeWin_of_untouched fun i hi => hshift i ▸ hlast (i + 1) (Nat.succ_pos i) (Nat.succ_lt_succ hi),
        padByte_putWin]
      exact if_pos hp
    | succ j =>
      exact ih (Nat.lt_of_succ_lt_succ hj) (hshift j ▸ hp) fun i hji hi =>
        hshift i ▸ hlast (i + 1) (Nat.succ_lt_succ hji) (Nat.succ_lt_succ hi)

/-! ## The lanes of a store, one after the other -/

/-- n bytes of v k stored at ea k for each lane k. -/
def storeLanes (n : Nat) (ea v : Nat → Nat) (s : State) (ls : List Nat) : State :=
  ls.foldl (fun s k => writeWin s (ea k) (natLe n (v k))) s

theorem length_natLe (n x : Nat) : (natLe n x).length = n := by
  induction n generalizing x with
  | zero => rfl
  | succ n ih => exact congrArg (· + 1) (ih _)

theorem getElem_natLe {n x j : Nat} (hj : j < (natLe n x).length) : (natLe n x)[j] = BitVec.ofNat 8 (x / 256 ^ j) := by
  induction n generalizing x j with
  | zero => exact absurd hj (Nat.not_lt_zero j)
  | succ n ih =>
    cases j with
    | zero => simp [natLe]
    | succ j =>
      simp only [natLe, List.getElem_cons_succ]
      rw [ih, Nat.div_div_eq_div_mul, Nat.pow_succ']

variable {n : Nat} {ea v : Nat → Nat} {s : State} {ls : List Nat} {p : Nat}

theorem storeLanes_cons (n : Nat) (ea v : Nat → Nat) (s : State) (k : Nat) (ls : List Nat) :
    storeLanes n ea v s (k :: ls) = storeLanes n ea v (writeWin s (ea k) (natLe n (v k))) ls := rfl

theorem storeLanes_besideScratchpad (n : Nat) (ea v : Nat → Nat) (s : State) (ls : List Nat) :
    (storeLanes n ea v s ls).besideScratchpad = s.besideScratchpad :=
  foldl_keeps _ (fun _ _ => writeWin_besideScratchpad _ _ _) _ _

theorem padByte_storeLanes_of_untouched (h : ∀ k ∈ ls, ∀ j, j < n → winByte s.block (ea k + j) ≠ some p) :
    padByte (storeLanes n ea v s ls) p = padByte s p := by
  induction ls generalizing s with
  | nil => rfl
  | cons k ls ih =>
    have hblock := (window_of_besideScratchpad (writeWin_besideScratchpad s (ea k) (natLe n (v k)))).1
    rw [storeLanes_cons, ih, padByte_writeWin_of_untouched]
    · exact fun j hj => h k List.mem_cons_self j (length_natLe n (v k) ▸ hj)
    · exact fun i hi j hj => hblock ▸ h i (List.mem_cons_of_mem _ hi) j hj

/-- Of the lanes, in ascending order, that store to one place the highest stays. -/
theorem padByte_storeLanes_of_last (hls : ls.Pairwise (· < ·)) {k j : Nat} (hk : k ∈ ls) (hj : j < n)
    (hp : winByte s.block (ea k + j) = some p)
    (hlanes : ∀ i ∈ ls, k < i → ∀ j, j < n → winByte s.block (ea i + j) ≠ some p)
    (hlast : ∀ i, j < i → i < n → winByte s.block (ea k + i) ≠ some p) :
    padByte (storeLanes n ea v s ls) p = BitVec.ofNat 8 (v k / 256 ^ j) := by
  induction ls generalizing s with
  | nil => cases hk
  | cons i ls ih =>
    have hblock := (window_of_besideScratchpad (writeWin_besideScratchpad s (ea i) (natLe n (v i)))).1
    obtain ⟨habove, hls⟩ := List.pairwise_cons.1 hls
    rw [storeLanes_cons]
    rcases List.mem_cons.1 hk with rfl | hk
    · rw [padByte_storeLanes_of_untouched, padByte_writeWin_of_last, getElem_natLe]
      · exact (length_natLe n (v k)).symm ▸ hj
      · exact hp
      · exact fun m hm hmn => hlast m hm (length_natLe n (v k) ▸ hmn)
      · exact fun m hm l hl => hblock ▸ hlanes m (List.mem_cons_of_mem _ hm) (habove m hm) l hl
    · exact ih hls hk (hblock ▸ hp) (fun m hm hkm l hl => hblock ▸ hlanes m (List.mem_cons_of_mem _ hm) hkm l hl)
        (fun m hjm hm => hblock ▸ hlast m hjm hm)

theorem clearCovered_besideScratchpad (s : State) (core : Nat) (written : List Nat) :
    (clearCovered s 0 core written).besideScratchpad = s.besideScratchpad := by
  unfold clearCovered
  split <;> rfl

theorem padByte_clearCovered (s : State) (core : Nat) (written : List Nat) (p : Nat) :
    padByte (clearCovered s 0 core written) p = padByte s p := by
  unfold clearCovered
  split <;> rfl

end Sys2Proof.Machine
end

section
namespace Sys2Proof.Machine

/-! ## Stores to the window (R143, R191) -/

theorem storeLocal_eq_withLocal? (n : Nat) (wide : Bool) (o : MSt) (x : Int) (s : State) :
    ∃ k, storeLocal n wide o x s = withLocal? s n true ((active s o.g).map fun i => (i, eaOf s o.s o.a x i)) k := by
  unfold storeLocal laneEas
  exact ⟨_, rfl⟩

section
variable {s : State} {o : MSt} {n : Nat} {wide : Bool} {x : Int}
  (hok : ∀ k ∈ active s o.g, winOk s.block (eaOf s o.s o.a x k) n = true ∧ eaOf s o.s o.a x k % n = 0)
include hok

theorem storeLocal_of_busy
    (hbusy : windowBusy s ((active s o.g).flatMap fun k => winFoot s.block (eaOf s o.s o.a x k) n true) = true) :
    storeLocal n wide o x s = stall s := by
  rw [storeLocal, laneEas, withLocal?_of_ok hok, if_pos hbusy]

/-- Once the bytes are free a store changes nothing but the scratchpad, whose bytes are those that its lanes leave one after the other. -/
theorem storeLocal_of_free
    (hfree : windowBusy s ((active s o.g).flatMap fun k => winFoot s.block (eaOf s o.s o.a x k) n true) = false) :
    (storeLocal n wide o x s).besideScratchpad = s.besideScratchpad ∧
    ∀ p, padByte (storeLocal n wide o x s) p = padByte (storeLanes n (eaOf s o.s o.a x) (readN s wide o.d) s (active s o.g)) p := by
  have hstore : storeLocal n wide o x s =
      clearCovered (storeLanes n (eaOf s o.s o.a x) (readN s wide o.d) s (active s o.g)) 0 s.cur.core
        ((active s o.g).flatMap fun k => winOffsets s.block (eaOf s o.s o.a x k) n) := by
    rw [storeLocal, laneEas, withLocal?_of_ok hok, hfree, if_neg Bool.false_ne_true, List.foldl_map, List.map_map]
    rfl
  rw [hstore]
  exact ⟨(clearCovered_besideScratchpad _ _ _).trans (storeLanes_besideScratchpad _ _ _ _ _), padByte_clearCovered _ _ _⟩

end

end Sys2Proof.Machine
open Sys2Proof Sys2Proof.Machine

/-- Settles O20: the lowest lane out of order raises its cause; a load lands what its lanes read, with a flag in flight until the WAIT; a
store is a run of bytes of which the last on a place stays. -/
theorem scratchpadLoadsAndStores : Obligations.ScratchpadLoadsAndStores := by
  unfold Obligations.ScratchpadLoadsAndStores
  constructor
  · intro s o off i n wide x hi ea hc
    have hexec : exec i s = .next (loadLocal n wide o x s) := by
      simp only [List.mem_cons, List.not_mem_nil, or_false, Prod.mk.injEq] at hi
      rcases hi with ⟨rfl, rfl, rfl, rfl⟩ | ⟨rfl, rfl, rfl, rfl⟩ | ⟨rfl, rfl, rfl, rfl⟩ | ⟨rfl, rfl, rfl, rfl⟩ <;>
        exact exec_of_checked hc rfl
    obtain ⟨k, hk⟩ := loadLocal_eq_withLocal? n wide o x s
    refine ⟨raises_of_withLocal? (hexec.trans (congrArg _ hk)), fun hok => ⟨fun hbusy => ?_, fun hfree =>
      ⟨fun hf hclean => ?_, fun hf k hk hbad hbelow => ?_, fun hf hroom => ?_⟩⟩⟩
    · rw [Stalls, hexec, loadLocal_of_busy hok hbusy]
      rfl
    · exact writesLanes_of_writeN (fun _ => active_lt) (hexec.trans (congrArg _ (loadLocal_of_clean hok hfree hf hclean)))
    · rw [Raises, hexec, loadLocal_of_poisoned hok hfree hf hk hbad hbelow]
      rfl
    · exact ends_landFlagged (fun _ => active_lt) (hexec.trans (congrArg _ (loadLocal_of_flagged hok hfree hf hroom)))
  · intro s o off i n wide x hi ea byte foot hc
    have hexec : exec i s = .next (storeLocal n wide o x s) := by
      simp only [List.mem_cons, List.not_mem_nil, or_false, Prod.mk.injEq] at hi
      rcases hi with ⟨rfl, rfl, rfl, rfl⟩ | ⟨rfl, rfl, rfl, rfl⟩ | ⟨rfl, rfl, rfl, rfl⟩ | ⟨rfl, rfl, rfl, rfl⟩ <;>
        exact exec_of_checked hc rfl
    obtain ⟨k, hk⟩ := storeLocal_eq_withLocal? n wide o x s
    refine ⟨raises_of_withLocal? (hexec.trans (congrArg _ hk)), fun hok => ⟨fun hbusy => ?_, fun hfree => ?_⟩⟩
    · rw [Stalls, hexec, storeLocal_of_busy hok hbusy]
      rfl
    · obtain ⟨hbeside, hstored⟩ := storeLocal_of_free (wide := wide) hok hfree
      have hbyte : ∀ p, byte (storeLocal n wide o x s) p = padByte (storeLanes n ea (readN s wide o.d) s (active s o.g)) p := fun p =>
        ((window_of_besideScratchpad hbeside).2 p).symm.trans (hstored p)
      refine ⟨_, hexec, (congrArg State.mem hbeside :), (congrArg State.acc hbeside :), (congrArg State.wbuf hbeside :),
        (congrArg State.l1 hbeside :), (congrArg State.l2 hbeside :), (congrArg State.teams hbeside :),
        (congrArg State.fate hbeside :), fun k hk j hj p hp hlanes hlast => ?_, fun p hp => ?_⟩
      · exact (hbyte p).trans (padByte_storeLanes_of_last (pairwise_lt_active s o.g) hk hj hp hlanes hlast)
      · exact (hbyte p).trans (padByte_storeLanes_of_untouched hp)
end

section
namespace Sys2Proof.Machine

/-! ## A tile store in flight

A TST has read its bytes of the window when it issues (R154), so the statement gives its operation no footprint. The model keeps the bytes it
read as the operation's footprint and has the scoreboard pass them over (`opFoot`). -/

/-- A team of 16 lanes, its base in s2 and in s3 the shape of two rows of 16 bytes, 32 bytes apart, at window offset 4 064. -/
def twoRows : State := (State.reset.withFetchWord 32 0).modTeam fun t => { t with sregs := [(2, 0x40), (3, 0x00000002_00100FE0)] }

/-- Where the NORMAL page at address 0 has its bytes. -/
def firstPage (a : Nat) : Loc := ⟨0, 0, a, 0, 0, 0, 0⟩

/-- The footprints of all operations in flight. -/
def footsInFlight (r : Result) : List (Nat × List Foot) :=
  match r with
  | .next s => s.ops.map fun x => (x.1, x.2.foot)
  | .fault _ => []
  | .refused _ => []

theorem footsInFlight_tst_twoRows : footsInFlight (exec (.tst 2 15) twoRows) = [(1, [⟨0, 4064, 32, false⟩])] := by decide +kernel

theorem mem_of_tget {α : Type} {t : Tab α} {k : Nat} {v : α} (h : tget t k = some v) : (k, v) ∈ t := by
  induction t with
  | nil => cases h
  | cons x t ih =>
    obtain ⟨k', v'⟩ := x
    simp only [tget] at h
    split at h
    · next hk =>
      cases h
      rw [hk]
      exact List.mem_cons_self
    · exact List.mem_cons_of_mem _ (ih h)

end Sys2Proof.Machine
open Sys2Proof Sys2Proof.Machine

/-- Refutes O22: clause (1) gives the operation of a TST no footprint, while the model's `startTile` issues it with the window bytes it has
read; the TST of `twoRows` meets every premise and is in flight with the 32 bytes at offset 4 064. -/
theorem not_tilesMoveRowsWhole : ¬ Obligations.TilesMoveRowsWhole := by
  unfold Obligations.TilesMoveRowsWhole
  intro h
  obtain ⟨-, -, -, hpremises⟩ :=
    h.1 twoRows 2 15 0 (.tst 2 15) true 0 firstPage (by simp) (by decide +kernel) (by decide +kernel) (by decide +kernel)
  -- the shape, the window range, the scope; one page; the translation; no watch range; the window free and clean
  have hstart := hpremises (by decide +kernel) (by decide +kernel) (by decide +kernel) (by decide +kernel) (by decide +kernel)
    (by decide +kernel) (by decide +kernel) ⟨by decide +kernel, by decide +kernel⟩ (by decide +kernel) (by decide +kernel)
    (by decide +kernel) (by decide +kernel) (fun _ => by decide +kernel)
  obtain ⟨t, hexec, -, -, -, -, -, -, id, o, -, hop, -, -, -, -, hfoot, -⟩ := hstart rfl
  have hmem : (id, o.foot) ∈ footsInFlight (exec (.tst 2 15) twoRows) := by
    rw [hexec]
    exact List.mem_map_of_mem (mem_of_tget hop)
  rw [footsInFlight_tst_twoRows, hfoot, if_pos rfl] at hmem
  simp at hmem
end

section
namespace Sys2Proof.Machine

/-! ## The new value of a location (R160, R161) -/

/-- Of a kind that is not packed a location is one element. -/
theorem atomNew_whole {kind : Nat} (h : kind < 2) (op half old c e : Nat) :
    atomNew op kind half old c e = atomElem (kindFmt kind) op (8 * kindSize kind) old c e := if_pos h

/-- Of a packed kind a location is two elements, of which `half` names the one that stays. -/
theorem atomNew_packed {kind : Nat} (h : 2 ≤ kind) (op half : Nat) {lo hi lo' hi' : Nat} (hlo : lo < 65536) (hlo' : lo' < 65536) (e : Nat) :
    atomNew op kind half (lo + 65536 * hi) (lo' + 65536 * hi') e =
      (if half = 2 then lo else atomElem (kindFmt kind) op 16 lo lo' (e % 65536)) +
        65536 * (if half = 1 then hi else atomElem (kindFmt kind) op 16 hi hi' (e / 65536)) := by
  have hparts : ∀ {a b : Nat}, a < 65536 → (a + 65536 * b) % 65536 = a ∧ (a + 65536 * b) / 65536 = b := by omega
  obtain ⟨hmod, hdiv⟩ := hparts hlo (b := hi)
  obtain ⟨hmod', hdiv'⟩ := hparts hlo' (b := hi')
  simp only [atomNew, if_neg (Nat.not_lt.2 h), hmod, hdiv, hmod', hdiv']
  rw [Nat.mul_comm 65536]

/-- One more, below some number in range. -/
theorem elemVadd_one {w a b : Nat} (hab : a < b) (hb : b < 2 ^ w) : elemVadd w a 1 = a + 1 :=
  Nat.mod_eq_of_lt (by omega)

/-- One less, of a number above another. -/
theorem elemVsub_one {w a b : Nat} (hba : b < a) (ha : a < 2 ^ w) : elemVsub w a 1 = a - 1 := by
  rw [elemVsub, show a + (2 ^ w - 1) = a - 1 + 2 ^ w by omega, Nat.add_mod_right, Nat.mod_eq_of_lt (by omega)]

/-- An element under the integer operations of the table; `old` and `c` are numbers of w bits. -/
theorem atomElem_integer (f : FF) {w old c : Nat} (hold : old < 2 ^ w) (hc : c < 2 ^ w) (e : Nat) :
    atomElem f 0 w old c e = (BitVec.ofNat w old + BitVec.ofNat w c).toNat ∧
    atomElem f 1 w old c e = (BitVec.ofNat w old - BitVec.ofNat w c).toNat ∧
    atomElem f 2 w old c e = (if (BitVec.ofNat w old).toInt < (BitVec.ofNat w c).toInt then old else c) ∧
    atomElem f 3 w old c e = (if (BitVec.ofNat w old).toInt < (BitVec.ofNat w c).toInt then c else old) ∧
    atomElem f 4 w old c e = min old c ∧ atomElem f 5 w old c e = max old c ∧
    atomElem f 6 w old c e = (BitVec.ofNat w old &&& BitVec.ofNat w c).toNat ∧
    atomElem f 7 w old c e = (BitVec.ofNat w old ||| BitVec.ofNat w c).toNat ∧
    atomElem f 8 w old c e = (BitVec.ofNat w old ^^^ BitVec.ofNat w c).toNat := by
  obtain ⟨a, rfl⟩ : ∃ a : BitVec w, old = a.toNat := ⟨BitVec.ofNat w old, (Nat.mod_eq_of_lt hold).symm⟩
  obtain ⟨b, rfl⟩ : ∃ b : BitVec w, c = b.toNat := ⟨BitVec.ofNat w c, (Nat.mod_eq_of_lt hc).symm⟩
  simp only [BitVec.ofNat_toNat, BitVec.setWidth_eq]
  refine ⟨elemVadd_toNat a b, elemVsub_toNat a b, ?_, ?_, ?_, ?_, elemVand_toNat a b, elemVor_toNat a b, elemVxor_toNat a b⟩
  · rw [← apply_ite BitVec.toNat, ← elemVmin_toNat]; rfl
  · rw [← apply_ite BitVec.toNat, ← elemVmax_toNat]; rfl
  · show elemVminu w a.toNat b.toNat = _
    rw [elemVminu]; split <;> omega
  · show elemVmaxu w a.toNat b.toNat = _
    rw [elemVmaxu]; split <;> omega

/-- An element under increment to a bound and decrement to one. -/
theorem atomElem_bounded (f : FF) {w old c : Nat} (hold : old < 2 ^ w) (hc : c < 2 ^ w) (e : Nat) :
    atomElem f 11 w old c e = (if old < c then old + 1 else old) ∧ atomElem f 12 w old c e = (if c < old then old - 1 else old) :=
  ⟨ite_congr rfl (fun h => elemVadd_one h hc) fun _ => rfl, ite_congr rfl (fun h => elemVsub_one h hold) fun _ => rfl⟩

end Sys2Proof.Machine
open Sys2Proof Sys2Proof.Machine

/-- Settles O23: a location of a whole kind is one element, whose operations are those on bit vectors and the format's; a packed one is two. -/
theorem atomicOperationsGiveTheTableValue : Obligations.AtomicOperationsGiveTheTableValue := by
  unfold Obligations.AtomicOperationsGiveTheTableValue
  intro kind old c e hkind w f new x y hold hc _
  have hnew : ∀ op, new op = atomElem (kindFmt kind) op w old c e := fun op => atomNew_whole hkind op 0 old c e
  have hf : kindFmt kind = f := by
    have : kind = 0 ∨ kind = 1 := by omega
    rcases this with rfl | rfl <;> rfl
  simp only [hnew, hf]
  obtain ⟨h0, h1, h2, h3, h4, h5, h6, h7, h8⟩ := atomElem_integer f hold hc e
  obtain ⟨h11, h12⟩ := atomElem_bounded f hold hc e
  refine ⟨h0, h1, h2, h3, h4, h5, h6, h7, h8, rfl, rfl, h11, h12, rfl, rfl, rfl, fun k g hkg lo hi lo' hi' hlo _ hlo' _ => ?_⟩
  have hpacked : 2 ≤ k ∧ kindFmt k = g := by
    simp only [List.mem_cons, Prod.mk.injEq, List.not_mem_nil, or_false] at hkg
    rcases hkg with ⟨rfl, rfl⟩ | ⟨rfl, rfl⟩ <;> exact ⟨by omega, rfl⟩
  simp only [atomNew_packed hpacked.1 _ _ hlo hlo', hpacked.2]
  exact ⟨rfl, rfl, rfl⟩
end

section
namespace Sys2Proof.Machine

/-! ## A channel with no room

A channel queues up to 64 requests (R372). A request for one line more waits at its slice and enters the queue later, while the statement
has it at the channel at once. -/

/-- A request whose line is not there, at a channel that has no room for one more, stays as it is. -/
theorem serveReq_of_full {s : State} {id : Nat} {r : Req} {c : Channel} (hr : tget s.reqs id = some r)
    (hway : findWay s (homeSlice s r.loc) (r.loc.addr / 128) = none) (hc : tget s.channels (channelOf r.loc.addr) = some c)
    (hfull : 64 ≤ c.queue.length) : serveReq s id = s := by
  simp [serveReq, hr, hway, hc, hfull]

theorem exec_sliceLoad_of_full {s : State} {id m : Nat} {r : Req} {c : Channel} (hr : tget s.reqs id = some r) (hkind : r.kind = .load m)
    (hstage : r.stage = .filling) (hway : findWay s (homeSlice s r.loc) (r.loc.addr / 128) = none)
    (hc : tget s.channels (channelOf r.loc.addr) = some c) (hfull : 64 ≤ c.queue.length) : exec (.sliceLoad id) s = .next s := by
  show execSliceLoad id s = _
  have harrive : arriveReq s id = serveReq s id := by simp only [arriveReq, hr, hstage]
  simp only [execSliceLoad, hr, Option.map_some, hkind, harrive, serveReq_of_full hr hway hc hfull]

/-- Line j of channel 0: bits 20 and below of its address are 0. -/
def channelLine (j : Nat) : Loc := chipLoc 0 0 (j * 2 ^ 21)

/-- The key under which it waits. -/
def channelLineKey (j : Nat) : Nat := fillKey (homeSlice State.reset (channelLine j)) ((channelLine j).addr / 128)

/-- A load of line 64, at its slice. -/
def lateLoad : Req := ⟨0, 0, ⟨0, 0, 0, false⟩, channelLine 64, .load 1, .filling, 0, 0, false, 0, 1, 1, 0, 0⟩

/-- Channel 0 queues lines 0 to 63, and the load of line 64 is at its slice. -/
def fullChannel : State := { State.reset with reqs := [(1, lateLoad)], channels := [(0, ⟨(List.range 64).map channelLineKey, false⟩)] }

theorem channelOf_lateLoad : channelOf lateLoad.loc.addr = 0 := by decide
theorem findWay_fullChannel (slice line : Nat) : findWay fullChannel slice line = none := by
  simp [findWay, fullChannel, State.reset, tget]

theorem homeSlice_fullChannel (l : Loc) : homeSlice fullChannel l = homeSlice State.reset l := rfl

/-- The load's line is none of those that the channel queues. -/
theorem lateLoad_not_queued : channelLineKey 64 ∉ (List.range 64).map channelLineKey := by decide +kernel

theorem exec_fullChannel : exec (.sliceLoad 1) fullChannel = .next fullChannel :=
  exec_sliceLoad_of_full (r := lateLoad) rfl rfl rfl (findWay_fullChannel _ _) rfl (by simp)

end Sys2Proof.Machine
open Sys2Proof Sys2Proof.Machine

/-- Refutes O25: clause (1) has every request for a line that is not there wait at its channel, also where the channel has no room (R372): the
load of `fullChannel` is left as it stands, and its line is not in the queue. -/
theorem not_homesServeRequestsAndReply : ¬ Obligations.HomesServeRequestsAndReply := by
  unfold Obligations.HomesServeRequestsAndReply
  rintro ⟨hserved, -⟩
  obtain ⟨-, hwaits⟩ := hserved fullChannel 1 0 lateLoad (lineAt fullChannel 0) rfl
  obtain ⟨t, hexec, -, -, -, c, hc, hmem⟩ := hwaits (.inl rfl) (findWay_fullChannel _ _) (.sliceLoad 1) List.mem_cons_self
  rw [exec_fullChannel] at hexec
  cases hexec
  rw [channelOf_lateLoad] at hc
  cases hc
  rw [homeSlice_fullChannel] at hmem
  exact lateLoad_not_queued hmem
end

section
namespace Sys2Proof.Machine

/-! ## Fields of a descriptor (R165) -/

theorem testBit_setFld (x lo n v j : Nat) :
    (setFld x lo n v).testBit j = if lo ≤ j ∧ j < lo + n then v.testBit (j - lo) else x.testBit j :=
  testBit_bitInsert x v lo n j

theorem testBit_fld (x lo n j : Nat) : (fld x lo n).testBit j = (decide (j < n) && x.testBit (lo + j)) := by
  rw [fld, Nat.testBit_mod_two_pow, Nat.testBit_div_two_pow, Nat.add_comm]

theorem fld_lt (x lo n : Nat) : fld x lo n < 2 ^ n := Nat.mod_lt _ (Nat.two_pow_pos n)

theorem fld_setFld_of_disjoint {lo n lo' n' : Nat} (x v : Nat) (h : lo + n ≤ lo' ∨ lo' + n' ≤ lo) :
    fld (setFld x lo n v) lo' n' = fld x lo' n' := by
  apply Nat.eq_of_testBit_eq
  intro j
  rw [testBit_fld, testBit_fld, testBit_setFld]
  by_cases hj : j < n'
  · rw [if_neg (by omega)]
  · simp only [hj, decide_false, Bool.false_and]

theorem fld_setFld_self {n v : Nat} (x lo : Nat) (hv : v < 2 ^ n) : fld (setFld x lo n v) lo n = v := by
  apply Nat.eq_of_testBit_eq
  intro j
  rw [testBit_fld, testBit_setFld]
  by_cases hj : j < n
  · rw [if_pos ⟨by omega, by omega⟩, Nat.add_sub_cancel_left, decide_eq_true hj, Bool.true_and]
  · rw [decide_eq_false hj, Bool.false_and,
      Nat.testBit_lt_two_pow (Nat.lt_of_lt_of_le hv (Nat.pow_le_pow_right (by decide) (Nat.le_of_not_lt hj)))]

/-- A field given the value it has. -/
theorem setFld_fld (x lo n : Nat) : setFld x lo n (fld x lo n) = x := by
  apply Nat.eq_of_testBit_eq
  intro j
  rw [testBit_setFld, testBit_fld]
  split
  · rw [decide_eq_true (by omega), Bool.true_and, Nat.add_sub_cancel' (by omega)]
  · rfl

/-- The records a queue has room for: in the ring only while nothing is spilled. -/
def queueRoom (d : Nat) : Nat := if qScnt d = 0 then qCap d - qRcnt d + (qSpcap d - qScnt d) else qSpcap d - qScnt d

/-- What an ENQ does to a descriptor, and its answer: nothing of a closed queue, nor of what has to go whole and does not fit. -/
def acceptRecords (q : Loc) (all : Bool) (recs : List (List Byte)) (s : State) (d : Nat) : State × Nat × Nat × Nat :=
  if qClosed d then (s, d, 0, 3)
  else if all && decide (queueRoom d < recs.length) then (s, d, 0, 4)
  else
    let x := putRecords q s d recs
    (x.1, x.2.1, x.2.2, if x.2.2 < recs.length then 4 else 0)

theorem enqueue_eq_queueStep (s : State) (q : Loc) (all : Bool) (recs : List (List Byte)) :
    enqueue s q all recs = queueStep s q (acceptRecords q all recs) := rfl

/-! ## What a step of a queue at its home slice leaves alone (R165, R168) -/

/-- All of the package but what a step of a queue may change: beside what accesses at the homes change, the queues the slices know, the refills
under way, and the blocks' counts of records. -/
def State.besideQueues (s : State) : State := { s.besideHomes with queueLocs := [], refills := [], nextOp := 0, blocks := [] }

theorem besideQueues_of_besideHomes {s t : State} (h : t.besideHomes = s.besideHomes) : t.besideQueues = s.besideQueues := by
  rw [State.besideQueues, State.besideQueues, h]

/-- The operations in flight, the teams and the scratchpads are among what stays. -/
theorem units_of_besideQueues {s t : State} (h : t.besideQueues = s.besideQueues) : t.ops = s.ops ∧ t.teams = s.teams ∧ t.spad = s.spad :=
  ⟨(congrArg State.ops h :), (congrArg State.teams h :), (congrArg State.spad h :)⟩

theorem ctxPieces_besideHomes (s : State) (part ctx va n : Nat) : (ctxPieces s part ctx va n).1.besideHomes = s.besideHomes :=
  foldl_keeps (fun r : State × List (Option Loc × Nat) => r.1.besideHomes) (fun r a => walk_besideHomes r.1 part ctx 0 a) _ _

theorem readCtx_besideHomes (s : State) (part ctx va n : Nat) : (readCtx s part ctx va n).1.besideHomes = s.besideHomes := by
  refine (foldl_keeps (fun r : State × List Byte => r.1.besideHomes) (fun r p => ?_) _ _).trans (ctxPieces_besideHomes s part ctx va n)
  split
  · exact homeRead_besideHomes r.1 _ _ _
  · rfl

theorem writeCtx_besideHomes (s : State) (part ctx va : Nat) (bs : List Byte) : (writeCtx s part ctx va bs).besideHomes = s.besideHomes := by
  refine (foldl_keeps (fun r : State × List Byte => r.1.besideHomes) (fun r p => ?_) _ _).trans (ctxPieces_besideHomes s part ctx va bs.length)
  split
  · exact homeWrite_besideHomes r.1 _ _ _
  · rfl

theorem pinLine_besideHomes (s : State) (l : Loc) : (pinLine s l).besideHomes = s.besideHomes := by
  unfold pinLine
  split
  · rfl
  · dsimp only
    split <;> rfl

theorem pinRing_besideHomes (s : State) (part ctx va n : Nat) : (pinRing s part ctx va n).besideHomes = s.besideHomes := by
  refine (foldl_keeps State.besideHomes (fun u p => ?_) _ _).trans (ctxPieces_besideHomes s part ctx va n)
  split
  · exact foldl_keeps State.besideHomes (fun u q => pinLine_besideHomes u _) _ u
  · rfl

theorem readRing_besideHomes (s : State) (q : Loc) (d i : Nat) : (readRing s q d i).1.besideHomes = s.besideHomes :=
  (pinRing_besideHomes _ _ _ _ _).trans (readCtx_besideHomes s _ _ _ _)

theorem writeRing_besideHomes (s : State) (q : Loc) (d i : Nat) (bs : List Byte) : (writeRing s q d i bs).besideHomes = s.besideHomes :=
  (pinRing_besideHomes _ _ _ _ _).trans (writeCtx_besideHomes s _ _ _ _)

theorem putRecord_besideHomes (s : State) (q : Loc) (d : Nat) (r : List Byte) : (putRecord s q d r).1.besideHomes = s.besideHomes := by
  unfold putRecord
  split
  · exact writeRing_besideHomes s q d _ r
  · split
    · exact writeCtx_besideHomes s _ _ _ r
    · rfl

theorem putRecords_besideHomes (q : Loc) (s : State) (d : Nat) (rs : List (List Byte)) :
    (putRecords q s d rs).1.besideHomes = s.besideHomes := by
  induction rs generalizing s d with
  | nil => rfl
  | cons r rs ih =>
    rw [putRecords]
    dsimp only
    split
    · exact (ih _ _).trans (putRecord_besideHomes s q d r)
    · exact putRecord_besideHomes s q d r

theorem takeRecords_besideHomes (q : Loc) (s : State) (d k : Nat) : (takeRecords q s d k).1.besideHomes = s.besideHomes := by
  induction k generalizing s d with
  | zero => rfl
  | succ k ih => exact (ih _ _).trans (readRing_besideHomes s q d _)

theorem besideQueues_with_queueLocs (s : State) (x : List Loc) : ({ s with queueLocs := x } : State).besideQueues = s.besideQueues := rfl

theorem writeDesc_besideQueues (s : State) (q : Loc) (d : Nat) : (writeDesc s q d).besideQueues = s.besideQueues := by
  rw [writeDesc, besideQueues_with_queueLocs]
  exact besideQueues_of_besideHomes (homeWrite_besideHomes s q _ _)

theorem startRefill_besideQueues (s : State) (q : Loc) (d : Nat) : (startRefill s q d).besideQueues = s.besideQueues := by
  unfold startRefill; split <;> rfl

/-- A whole step keeps what its change of the descriptor keeps. -/
theorem queueStep_besideQueues {α : Type} {s : State} {q : Loc} {f : State → Nat → State × Nat × α}
    (h : ∀ u d, (f u d).1.besideHomes = u.besideHomes) : (queueStep s q f).1.besideQueues = s.besideQueues := by
  have hread : (readDesc s q).1.besideHomes = s.besideHomes := homeNat_besideHomes s q _ _
  rw [queueStep, startRefill_besideQueues, writeDesc_besideQueues]
  exact besideQueues_of_besideHomes ((h _ _).trans hread)

theorem enqueue_besideQueues (s : State) (q : Loc) (all : Bool) (recs : List (List Byte)) :
    (enqueue s q all recs).1.besideQueues = s.besideQueues := by
  rw [enqueue_eq_queueStep]
  refine queueStep_besideQueues fun u d => ?_
  rw [acceptRecords]
  split
  · rfl
  · split
    · rfl
    · exact putRecords_besideHomes q u d recs

theorem dequeue_besideQueues (s : State) (q : Loc) (n : Nat) : (dequeue s q n).1.besideQueues = s.besideQueues := by
  unfold dequeue
  dsimp only
  exact queueStep_besideQueues fun u d => takeRecords_besideHomes q u d _

theorem countRecords_besideQueues (s : State) (key k : Nat) : (countRecords s key k).besideQueues = s.besideQueues := by
  unfold countRecords State.modBlockAt; split <;> rfl

/-! ## Records placed (R167) -/

theorem putRecord_of_room (s : State) (q : Loc) {d : Nat} (r : List Byte) (h : 0 < queueRoom d) :
    (putRecord s q d r).2.2 = true ∧ queueRoom (putRecord s q d r).2.1 = queueRoom d - 1 := by
  have hcap : qCap d ≤ 2 ^ 16 := fld_lt d 160 16
  have hspcap : qSpcap d < 2 ^ 32 := fld_lt d 128 32
  rw [putRecord]
  split
  · next hring =>
    have hrcnt : qRcnt (setFld d 248 17 (qRcnt d + 1)) = qRcnt d + 1 := fld_setFld_self d 248 (by omega)
    have hscnt : qScnt (setFld d 248 17 (qRcnt d + 1)) = qScnt d := fld_setFld_of_disjoint d _ (by omega)
    have hc : qCap (setFld d 248 17 (qRcnt d + 1)) = qCap d := congrArg (· + 1) (fld_setFld_of_disjoint d _ (by omega))
    have hs : qSpcap (setFld d 248 17 (qRcnt d + 1)) = qSpcap d := fld_setFld_of_disjoint d _ (by omega)
    refine ⟨rfl, ?_⟩
    simp only [queueRoom, hrcnt, hscnt, hc, hs, if_pos hring.1]
    omega
  · next hring =>
    have hroom : queueRoom d = qSpcap d - qScnt d := by
      rw [queueRoom]
      split <;> omega
    have hspill : qScnt d < qSpcap d := by omega
    have hscnt : qScnt (setFld d 304 32 (qScnt d + 1)) = qScnt d + 1 := fld_setFld_self d 304 (by omega)
    have hs : qSpcap (setFld d 304 32 (qScnt d + 1)) = qSpcap d := fld_setFld_of_disjoint d _ (by omega)
    rw [if_pos hspill]
    refine ⟨rfl, ?_⟩
    rw [queueRoom, hscnt, hs, if_neg (Nat.succ_ne_zero _)]
    omega

theorem putRecord_of_no_room (s : State) (q : Loc) {d : Nat} (r : List Byte) (h : queueRoom d = 0) : (putRecord s q d r).2.2 = false := by
  rw [queueRoom] at h
  rw [putRecord, if_neg, if_neg]
  · split at h <;> omega
  · rintro ⟨hs, hr⟩
    rw [if_pos hs] at h
    omega

/-- As many records are accepted as there is room for. -/
theorem putRecords_accepted (q : Loc) (s : State) (d : Nat) (rs : List (List Byte)) :
    (putRecords q s d rs).2.2 = min rs.length (queueRoom d) := by
  induction rs generalizing s d with
  | nil => exact (Nat.zero_min _).symm
  | cons r rs ih =>
    rw [putRecords]
    dsimp only
    rcases Nat.eq_zero_or_pos (queueRoom d) with h | h
    · rw [putRecord_of_no_room s q r h, if_neg (by decide), h, Nat.min_zero]
    · obtain ⟨hput, hroom⟩ := putRecord_of_room s q r h
      rw [if_pos hput]
      show (putRecords q _ _ rs).2.2 + 1 = _
      rw [ih, hroom, List.length_cons]
      omega

/-- The answer to an ENQ: nothing from a closed queue, nor of what has to go whole and does not fit. -/
theorem enqueue_answer (s : State) (q : Loc) (all : Bool) (recs : List (List Byte)) :
    (enqueue s q all recs).2 =
      if qClosed (readDesc s q).2 then (0, 3)
      else if all && decide (queueRoom (readDesc s q).2 < recs.length) then (0, 4)
      else (min recs.length (queueRoom (readDesc s q).2), if queueRoom (readDesc s q).2 < recs.length then 4 else 0) := by
  have hshort : ∀ n, min recs.length n < recs.length ↔ n < recs.length := by omega
  rw [enqueue_eq_queueStep, queueStep, acceptRecords]
  split
  · rfl
  · split
    · rfl
    · simp only [putRecords_accepted, hshort]

/-! ## Records taken (R169) -/

theorem length_takeRecords (q : Loc) (s : State) (d k : Nat) : (takeRecords q s d k).2.2.length = k := by
  induction k generalizing s d with
  | zero => rfl
  | succ k ih => exact congrArg (· + 1) (ih _ _)

/-- The descriptor after k records have been taken: the ring's count falls by k. -/
theorem desc_takeRecords (q : Loc) (s : State) (d k : Nat) :
    qKind (takeRecords q s d k).2.1 = qKind d ∧ qClosed (takeRecords q s d k).2.1 = qClosed d ∧
      qScnt (takeRecords q s d k).2.1 = qScnt d ∧ qRcnt (takeRecords q s d k).2.1 = qRcnt d - k := by
  induction k generalizing s d with
  | zero => exact ⟨rfl, rfl, rfl, rfl⟩
  | succ k ih =>
    rw [takeRecords]
    dsimp only
    have hkeep : ∀ {lo n}, 265 ≤ lo ∨ lo + n ≤ 232 → ∀ a b, fld (setFld (setFld d 232 16 a) 248 17 b) lo n = fld d lo n := fun h a b => by
      rw [fld_setFld_of_disjoint _ _ (by omega), fld_setFld_of_disjoint _ _ (by omega)]
    have hrcnt : ∀ a, qRcnt (setFld (setFld d 232 16 a) 248 17 (qRcnt d - 1)) = qRcnt d - 1 := fun a =>
      fld_setFld_self _ _ (Nat.lt_of_le_of_lt (Nat.sub_le _ _) (fld_lt d 248 17))
    obtain ⟨hkind, hclosed, hscnt, hr⟩ := ih (readRing s q d (qRhead d)).1
      (setFld (setFld d 232 16 ((qRhead d + 1) % qCap d)) 248 17 (qRcnt d - 1))
    refine ⟨hkind.trans (hkeep (by omega) _ _), hclosed.trans (congrArg (· == 1) (hkeep (by omega) _ _)),
      hscnt.trans (hkeep (by omega) _ _), hr.trans ?_⟩
    rw [hrcnt, Nat.sub_sub, Nat.add_comm]

theorem dequeue_records (s : State) (q : Loc) (n : Nat) : (dequeue s q n).2.1 =
    (takeRecords q (readDesc s q).1 (readDesc s q).2 (min n (qRcnt (readDesc s q).2))).2.2 := rfl

/-- The answer to a DEQ of a queue that is no manger: the records at the ring's head, and whether they were the last of a closed queue. -/
theorem dequeue_answer (s : State) (q : Loc) (n : Nat) (hkind : qKind (readDesc s q).2 ≠ 1) :
    let d := (readDesc s q).2
    let k := min n (qRcnt d)
    (dequeue s q n).2 = ((takeRecords q (readDesc s q).1 d k).2.2, qClosed d && decide (qRcnt d + qScnt d = k)) := by
  intro d k
  obtain ⟨hk, hclosed, hscnt, hrcnt⟩ := desc_takeRecords q (readDesc s q).1 d k
  have hempty : qEmpty (takeRecords q (readDesc s q).1 d k).2.1 = decide (qRcnt d + qScnt d = k) := by
    rw [qEmpty, qBacklog, hk, if_neg hkind, hscnt, hrcnt, Bool.beq_eq_decide_eq, decide_eq_decide]
    have : k ≤ qRcnt d := Nat.min_le_right _ _
    omega
  show ((takeRecords q (readDesc s q).1 d k).2.2, _ && _) = _
  rw [hclosed, hempty]

end Sys2Proof.Machine
end

section
namespace Sys2Proof.Machine

/-! ## An operation answered at its home slice (R167, R169, R172) -/

/-- Every other operation, every team and the scratchpads are as they were. -/
def OthersStand (s t : State) (id : Nat) : Prop := (∀ j, j ≠ id → tget t.ops j = tget s.ops j) ∧ t.teams = s.teams ∧ t.spad = s.spad

theorem modOp_of_tget {s : State} {id : Nat} {o : Op} (ho : tget s.ops id = some o) (f : Op → Op) :
    modOp s id f = { s with ops := tset s.ops id (f o) } := by
  simp only [modOp, ho]

/-- An operation changed after a step at its home slice. -/
theorem othersStand_modOp {s u : State} {id : Nat} {o : Op} (ho : tget s.ops id = some o)
    (hu : u.ops = s.ops ∧ u.teams = s.teams ∧ u.spad = s.spad) (f : Op → Op) :
    OthersStand s (modOp u id f) id ∧ tget (modOp u id f).ops id = some (f o) := by
  obtain ⟨hops, hteams, hspad⟩ := hu
  rw [modOp_of_tget (hops ▸ ho)]
  refine ⟨⟨fun j hj => ?_, hteams, hspad⟩, tget_tset_self _ _ _⟩
  rw [tget_tset_ne _ _ _ _ hj, hops]

section
variable {s : State} {id : Nat} {o : Op} {q : Loc}

theorem ends_enqAtHome {all : Bool} {pa x : Nat} {recs : List (Nat × List Byte)} {act : Lanes} (ho : tget s.ops id = some o)
    (hready : queueReady s id o q = true) (hkind : o.kind = .enq q all pa x recs act none) :
    Ends (.enqAtHome id) s fun t => OthersStand s t id ∧
      tget t.ops id = some { o with kind := .enq q all pa x [] act (some (enqueue s q all (recs.map Prod.snd)).2) } := by
  refine ⟨modOp (enqueue s q all (recs.map Prod.snd)).1 id fun o =>
      { o with kind := .enq q all pa x [] act (some (enqueue s q all (recs.map Prod.snd)).2) }, ?_,
    othersStand_modOp ho (units_of_besideQueues (enqueue_besideQueues s q all _)) _⟩
  show execEnqAtHome id s = _
  simp only [execEnqAtHome, ho, hkind, hready, Bool.not_true, Bool.false_eq_true, if_false]

/-! ### DEQ (R169) -/

/-- The status of a DEQ: the budget left nothing, or the queue is at its end. -/
def deqStatus (cut last : Bool) : Nat := if cut then 2 else if last then 1 else 0

/-- The state after the step of a DEQ, its records counted where they count. -/
def deqTaken (s : State) (o : Op) (q : Loc) (act : Lanes) (inq : Bool) : State :=
  let r := dequeue s q (budgetCut s o (laneCount act) inq).1
  if inq then countRecords r.1 (blockKey o.unit) r.2.1.length else r.1

theorem units_deqTaken (s : State) (o : Op) (q : Loc) (act : Lanes) (inq : Bool) :
    (deqTaken s o q act inq).ops = s.ops ∧ (deqTaken s o q act inq).teams = s.teams ∧ (deqTaken s o q act inq).spad = s.spad := by
  apply units_of_besideQueues
  rw [deqTaken]
  split
  · rw [countRecords_besideQueues, dequeue_besideQueues]
  · rw [dequeue_besideQueues]

variable {wait : Bool} {pa x rec : Nat} {act : Lanes} {inq : Bool}

theorem serveDeq_answered (ho : tget s.ops id = some o) (hkind : o.kind = .deq q wait pa x rec act inq none) :
    let b := budgetCut s o (laneCount act) inq
    let r := (dequeue s q b.1).2
    (r.1 ≠ [] ∨ wait = false ∨ deqStatus b.2 r.2 ≠ 0) → OthersStand s (serveDeq s id) id ∧
      tget (serveDeq s id).ops id = some { o with kind := .deq q wait pa x rec act inq (some (r.1, deqStatus b.2 r.2)) } := by
  intro b r h
  have hgo : (wait && r.1.isEmpty && deqStatus b.2 r.2 == 0) = false := by
    rcases h with h | h | h
    · rw [List.isEmpty_eq_false_iff.2 h, Bool.and_false, Bool.false_and]
    · rw [h, Bool.false_and, Bool.false_and]
    · rw [beq_false_of_ne h, Bool.and_false]
  have hserve : serveDeq s id = modOp (deqTaken s o q act inq) id fun o =>
      { o with kind := .deq q wait pa x rec act inq (some (r.1, deqStatus b.2 r.2)) } := by
    simp only [serveDeq, ho, hkind]
    exact if_neg (Bool.eq_false_iff.1 hgo)
  rw [hserve]
  exact othersStand_modOp ho (units_deqTaken s o q act inq) _

theorem serveDeq_held (ho : tget s.ops id = some o) (hkind : o.kind = .deq q wait pa x rec act inq none) (harrive : o.arrive = 0) :
    let b := budgetCut s o (laneCount act) inq
    let r := (dequeue s q b.1).2
    r.1 = [] → wait = true → deqStatus b.2 r.2 = 0 → OthersStand s (serveDeq s id) id ∧
      ∃ n, tget (serveDeq s id).ops id = some { o with arrive := n + 1 } := by
  intro b r hr hwait hst
  have hhold : (wait && r.1.isEmpty && deqStatus b.2 r.2 == 0) = true := by rw [hr, hwait, hst]; rfl
  have hunits := units_of_besideQueues (dequeue_besideQueues s q b.1)
  have hserve : ∀ u, (dequeue s q b.1).1 = u → serveDeq s id =
      modOp { u with nextStamp := u.nextStamp + 1 } id fun o => { o with arrive := u.nextStamp + 1 } := by
    rintro _ rfl
    simp only [serveDeq, ho, hkind]
    exact (if_pos hhold).trans (if_pos harrive)
  generalize (dequeue s q b.1).1 = u at hunits hserve
  obtain ⟨hothers, hop⟩ := othersStand_modOp (u := { u with nextStamp := u.nextStamp + 1 }) ho hunits
    fun o => { o with arrive := u.nextStamp + 1 }
  rw [hserve u rfl]
  exact ⟨hothers, u.nextStamp, hop⟩

theorem arrive_of_queueReady (h : queueReady s id o q = true) : o.arrive = 0 := by
  simp only [queueReady, Bool.and_eq_true, beq_iff_eq] at h
  obtain ⟨⟨⟨harrive, -⟩, -⟩, -⟩ := h
  exact harrive

theorem exec_deqAtHome (ho : tget s.ops id = some o) (hready : queueReady s id o q = true)
    (hkind : o.kind = .deq q wait pa x rec act inq none) (hfirst : (∀ y ∈ s.ops, heldDeq q y.2 = false) ∨ queueStirs s q = false) :
    exec (.deqAtHome id) s = .next (serveDeq s id) := by
  have hturn : ((s.ops.any fun y => heldDeq q y.2) && queueStirs s q) = false := by
    rcases hfirst with h | h
    · rw [List.any_eq_false.2 fun y hy => by simp [h y hy], Bool.false_and]
    · rw [h, Bool.and_false]
  show execDeqAtHome id s = _
  simp only [execDeqAtHome, ho, hkind, hready, hturn, Bool.not_true, Bool.or_self, Bool.false_eq_true, if_false]

theorem exec_deqWaitServed (ho : tget s.ops id = some o) (hkind : o.kind = .deq q wait pa x rec act inq none) (harrive : o.arrive ≠ 0)
    (hfirst : ∀ y ∈ s.ops, heldDeq q y.2 = true → o.arrive ≤ y.2.arrive) : exec (.deqWaitServed id) s = .next (serveDeq s id) := by
  have hheld : heldDeq q o = true := by simp [heldDeq, hkind, harrive]
  have holdest : (s.ops.any fun y => heldDeq q y.2 && decide (y.2.arrive < o.arrive)) = false := by
    rw [List.any_eq_false]
    intro y hy h
    obtain ⟨hd, hlt⟩ := Bool.and_eq_true_iff.1 h
    exact Nat.not_lt.2 (hfirst y hy hd) (of_decide_eq_true hlt)
  show execDeqWaitServed id s = _
  simp only [execDeqWaitServed, ho, hkind, hheld, holdest, Bool.not_false, Bool.and_self, if_true]

/-! ### GRAB (R172) -/

/-- The coordinates of index m of a manger; an extent of 0 acts as 1. -/
def mangerCoords (d m : Nat) : Nat × Nat × Nat :=
  (m % max (qExtx d) 1, m / max (qExtx d) 1 % max (qExty d) 1, m / (max (qExtx d) 1 * max (qExty d) 1))

/-- What a GRAB of n indices does to a descriptor, and its answer. -/
def grabIndices (n : Nat) (cut : Bool) (s : State) (d : Nat) : State × Nat × List (Nat × Nat × Nat) × Nat :=
  let k := min n (qTotal d - qNext d)
  let d' := setFld d 400 40 (qNext d + k)
  (s, if qNext d' = qTotal d' then setFld d' 204 1 1 else d',
    (List.range k).map fun j => mangerCoords d (qNext d + j), if cut then 2 else if qNext d' = qTotal d' then 1 else 0)

/-- The answer says that the indices are exhausted where the last of them has been given. -/
theorem grabIndices_answer (n : Nat) (cut : Bool) (s : State) (d : Nat) :
    let k := min n (qTotal d - qNext d)
    (grabIndices n cut s d).2.2 =
      ((List.range k).map fun j => mangerCoords d (qNext d + j), if cut then 2 else if qNext d + k = qTotal d then 1 else 0) := by
  intro k
  have hnext : qNext (setFld d 400 40 (qNext d + k)) = qNext d + k := by
    have h1 : qNext d < 2 ^ 40 := fld_lt d 400 40
    have h2 : qTotal d < 2 ^ 40 := fld_lt d 440 40
    have h3 : k ≤ qTotal d - qNext d := Nat.min_le_right _ _
    exact fld_setFld_self d 400 (by omega)
  have htotal : qTotal (setFld d 400 40 (qNext d + k)) = qTotal d := fld_setFld_of_disjoint d _ (by omega)
  show (_, if cut = true then 2 else if qNext (setFld d 400 40 (qNext d + k)) = qTotal (setFld d 400 40 (qNext d + k)) then 1 else 0) = _
  rw [hnext, htotal]

theorem ends_grabAtHome {dst : Nat} (ho : tget s.ops id = some o) (hready : queueReady s id o q = true)
    (hkind : o.kind = .grab q x dst act inq none) :
    let b := budgetCut s o (laneCount act) inq
    Ends (.grabAtHome id) s fun t => OthersStand s t id ∧
      tget t.ops id = some { o with kind := .grab q x dst act inq (some (grabIndices b.1 b.2 (readDesc s q).1 (readDesc s q).2).2.2) } := by
  intro b
  let r := queueStep s q (grabIndices b.1 b.2)
  have hstep : r.1.besideQueues = s.besideQueues := queueStep_besideQueues fun _ _ => rfl
  refine ⟨modOp (if inq then countRecords r.1 (blockKey o.unit) r.2.1.length else r.1) id fun o =>
      { o with kind := .grab q x dst act inq (some (grabIndices b.1 b.2 (readDesc s q).1 (readDesc s q).2).2.2) }, ?_,
    othersStand_modOp ho (units_of_besideQueues ?_) _⟩
  · show execGrabAtHome id s = _
    simp only [execGrabAtHome, ho, hkind, hready, Bool.not_true, Bool.false_eq_true, if_false]
    rfl
  · split
    · rw [countRecords_besideQueues, hstep]
    · exact hstep

end
end Sys2Proof.Machine
end

section
namespace Sys2Proof.Machine

/-! ## An operation that ends (R69, R170) -/

/-- A team in which an operation with no fault has ended. -/
def Team.ended (t : Team) (id f : Nat) : Team := (t.flagDown f).resolve id none

theorem flagDown_of_not_lt {t : Team} {f : Nat} (h : ¬f < 12) : t.flagDown f = t := if_neg h

theorem count_ended (t : Team) (id : Nat) {f : Nat} (h : f < 12) : ((t.ended id f).flag f).count = (t.flag f).count - 1 := by
  simp [Team.ended, Team.resolve, Team.flagDown, Team.flag, h, tget_tset_self]

theorem ended_keeps (t : Team) (id f : Nat) : (t.ended id f).sregs = t.sregs ∧ (t.ended id f).pregs = t.pregs ∧
    (t.ended id f).vregs = t.vregs ∧ (t.ended id f).unknown = t.unknown := by
  unfold Team.ended Team.flagDown
  split <;> exact ⟨rfl, rfl, rfl, rfl⟩

/-- A team's operation lands its results and leaves flight. -/
theorem endOp_modUnit {s : State} {id : Nat} {o : Op} {tm : Team} (ho : tget s.ops id = some o) (hcoach : o.unit.coach = false)
    (htm : tget s.teams (teamKey o.unit) = some tm) (hfault : o.fault = none) (f : Team → Team) :
    SameMemory s (endOp (s.modUnit o.unit f) id) ∧ tget (endOp (s.modUnit o.unit f) id).ops id = none ∧
      tget (endOp (s.modUnit o.unit f) id).teams (teamKey o.unit) = some ((f tm).ended id o.flag) := by
  have hland : s.modUnit o.unit f = { s with teams := tset s.teams (teamKey o.unit) (f tm) } := by
    simp only [State.modUnit, hcoach, htm, Bool.false_eq_true, if_false]
  have hend : endOp (s.modUnit o.unit f) id = { s with
      ops := tdel s.ops id
      teams := tset (tset s.teams (teamKey o.unit) (f tm)) (teamKey o.unit) ((f tm).ended id o.flag) } := by
    rw [hland]
    by_cases hflag : o.flag < 12
    · simp [endOp, ho, hflag, State.modUnit, hcoach, tget_tset_self, hfault, Team.complete, Team.ended]
    · simp [endOp, ho, hflag, State.modUnit, hcoach, tget_tset_self, hfault, flagDown_of_not_lt hflag, Team.ended]
  rw [hend]
  exact ⟨⟨rfl, rfl, rfl, rfl, rfl, rfl⟩, by rw [tget_tdel, if_pos rfl], tget_tset_self _ _ _⟩

/-! ## Count, status and predicate (R170) -/

/-- The results of an ENQ or a DEQ of n records in a team: the count and the status in two scalars, and a predicate of the first n lanes. -/
def tellRecords (flag x pa n st : Nat) (act : Lanes) (t : Team) : Team :=
  landS flag (x + 1) (BitVec.ofNat 64 st) (landS flag x (BitVec.ofNat 64 n) (landP flag pa act (firstLanes act n) t))

theorem landS_keeps (flag x : Nat) (v : DWord) (t : Team) : (landS flag x v t).sregs = tset t.sregs x v ∧
    (landS flag x v t).pregs = t.pregs ∧ (landS flag x v t).flags = t.flags := by
  unfold landS
  split <;> exact ⟨rfl, rfl, rfl⟩

theorem landP_keeps (flag p : Nat) (m v : Lanes) (t : Team) : (landP flag p m v t).sregs = t.sregs ∧
    (landP flag p m v t).pregs = tset t.pregs p ((wget t.pregs p &&& ~~~m) ||| (v &&& m)) ∧ (landP flag p m v t).flags = t.flags := by
  unfold landP
  split <;> exact ⟨rfl, rfl, rfl⟩

/-- A team tm' that has been told of n records and status st, where tm stood before. -/
def Told (tm tm' : Team) (flag x pa n st : Nat) (act : Lanes) : Prop :=
  wget tm'.sregs x = BitVec.ofNat 64 n ∧ wget tm'.sregs (x + 1) = BitVec.ofNat 64 st ∧
  (∀ k, k < 1024 → (wget tm'.pregs pa).getLsbD k = if act.getLsbD k then (firstLanes act n).getLsbD k else (wget tm.pregs pa).getLsbD k) ∧
  (flag < 12 → (tm'.flag flag).count = (tm.flag flag).count - 1)

theorem told_ended (tm : Team) (id flag x pa n st : Nat) (act : Lanes) :
    Told tm ((tellRecords flag x pa n st act tm).ended id flag) flag x pa n st act := by
  obtain ⟨hs, hp, -, -⟩ := ended_keeps (tellRecords flag x pa n st act tm) id flag
  obtain ⟨hpS, hpP, hpF⟩ := landP_keeps flag pa act (firstLanes act n) tm
  generalize hu : landP flag pa act (firstLanes act n) tm = u at hpS hpP hpF
  obtain ⟨hcS, hcP, hcF⟩ := landS_keeps flag x (BitVec.ofNat 64 n) u
  generalize hv : landS flag x (BitVec.ofNat 64 n) u = v at hcS hcP hcF
  obtain ⟨hsS, hsP, hsF⟩ := landS_keeps flag (x + 1) (BitVec.ofNat 64 st) v
  have htell : tellRecords flag x pa n st act tm = landS flag (x + 1) (BitVec.ofNat 64 st) v := by rw [tellRecords, hu, hv]
  refine ⟨?_, ?_, fun k hk => ?_, fun hflag => ?_⟩
  · rw [hs, htell, hsS, hcS, wget_tset, if_neg (by omega), wget_tset_self]
  · rw [hs, htell, hsS, wget_tset_self]
  · rw [hp, htell, hsP, hcP, hpP, wget_tset_self, BitVec.getLsbD_or, BitVec.getLsbD_and, BitVec.getLsbD_and, BitVec.getLsbD_not,
      decide_eq_true hk, Bool.true_and]
    cases act.getLsbD k <;> simp
  · rw [count_ended _ _ hflag, Team.flag, htell, hsF, hcF, hpF]
    rfl

/-! ## Where the records of a DEQ land (R169, R181) -/

/-- All of the package but what the reply to a DEQ may change before its results land: the core's clean copies with the replies on their way
to them, its blocks' stash, and the local memories. -/
def State.besideRecords (s : State) : State :=
  { s with reqs := [], l1 := [], blocks := [], spad := [], acc := [], wbuf := [], spadPois := [], accPois := [], wbufPois := [], spadOwn := [] }

theorem withLocal_besideRecords (s : State) (space : Nat) (m : List Host.Cell) : (withLocal s space m).besideRecords = s.besideRecords := by
  unfold withLocal
  split
  · rfl
  · split <;> rfl

theorem withPois_besideRecords (s : State) (space : Nat) (p : List Nat) : (withPois s space p).besideRecords = s.besideRecords := by
  unfold withPois
  split
  · rfl
  · split <;> rfl

theorem besideRecords_with_spadOwn (s : State) (x : Tab Nat) : ({ s with spadOwn := x } : State).besideRecords = s.besideRecords := rfl

theorem takeGranule_besideRecords (s : State) (space core own off : Nat) :
    (takeGranule s space core own off).besideRecords = s.besideRecords := by
  unfold takeGranule
  split
  · rfl
  · rw [besideRecords_with_spadOwn, withPois_besideRecords, withLocal_besideRecords]

theorem writeLocal_besideRecords (s : State) (space core own off : Nat) (bs : List Byte) :
    (writeLocal s space core own off bs).besideRecords = s.besideRecords := by
  induction bs generalizing s off with
  | nil => rfl
  | cons b bs ih => rw [writeLocal, ih, writeLocal1, withLocal_besideRecords, takeGranule_besideRecords]

theorem putLocal_besideRecords (s : State) (space core own off : Nat) (bs : List Byte) :
    (putLocal s space core own off bs).besideRecords = s.besideRecords := by
  rw [putLocal, clearPois, withPois_besideRecords, writeLocal_besideRecords]

theorem unfill_besideRecords (s : State) (key slot : Nat) (p : Nat → Bool) : (unfill s key slot p).besideRecords = s.besideRecords := by
  unfold unfill State.modBlockAt
  split <;> rfl

theorem unfillWhere_besideRecords (s : State) (core : Nat) (p : Loc → Bool) : (unfillWhere s core p).besideRecords = s.besideRecords := by
  refine foldl_keeps State.besideRecords (fun u key => ?_) _ s
  split
  · rfl
  · refine foldl_keeps State.besideRecords (fun v e => ?_) _ u
    split
    · rfl
    · exact unfill_besideRecords v key e.1 _

theorem acquireCore_besideRecords (s : State) (core : Nat) : (acquireCore s core).besideRecords = s.besideRecords :=
  (unfillWhere_besideRecords _ _ _).trans rfl

/-- The records rs of a DEQ as they land in its core's scratchpad, whatever their place. -/
def landRecords (s : State) (o : Op) (q : Loc) (rec : Nat) (rs : List (List Byte)) : State :=
  let s := if eventQueue s q && !rs.isEmpty then acquireCore s o.unit.core else s
  let own := s.owner o.part
  if o.unit.coach then s
  else (rs.foldl (fun (r : State × List Nat) bs =>
    ((r.2.zip bs).foldl (fun s p => putLocal s 0 o.unit.core own p.1 [p.2]) r.1, r.2.drop rec)) (s, footOffsets o.foot)).1

theorem landRecords_besideRecords (s : State) (o : Op) (q : Loc) (rec : Nat) (rs : List (List Byte)) :
    (landRecords s o q rec rs).besideRecords = s.besideRecords := by
  have hacq : (if eventQueue s q && !rs.isEmpty then acquireCore s o.unit.core else s).besideRecords = s.besideRecords := by
    split
    · exact acquireCore_besideRecords s _
    · rfl
  unfold landRecords
  dsimp only
  generalize (if eventQueue s q && !rs.isEmpty then acquireCore s o.unit.core else s) = u at hacq
  split
  · exact hacq
  · refine Eq.trans ?_ hacq
    exact foldl_keeps (fun r : State × List Nat => r.1.besideRecords)
      (fun r bs => foldl_keeps State.besideRecords (fun v p => putLocal_besideRecords v 0 _ _ _ _) _ r.1) rs _

end Sys2Proof.Machine
end

section
namespace Sys2Proof.Machine

/-! ## Replies (R170) -/

section
variable {s : State} {id : Nat} {o : Op} {tm : Team} {q : Loc} {pa x n st : Nat} {act : Lanes}

theorem ends_queueReply_enq {all : Bool} {recs : List (Nat × List Byte)} (ho : tget s.ops id = some o) (hcoach : o.unit.coach = false)
    (htm : tget s.teams (teamKey o.unit) = some tm) (hfault : o.fault = none) (hkind : o.kind = .enq q all pa x recs act (some (n, st))) :
    Ends (.queueReply id) s fun t => tget t.ops id = none ∧ SameMemory s t ∧
      ∃ tm', tget t.teams (teamKey o.unit) = some tm' ∧ Told tm tm' o.flag x pa n st act := by
  obtain ⟨hmem, hops, hteam⟩ := endOp_modUnit ho hcoach htm hfault (tellRecords o.flag x pa n st act)
  refine ⟨_, ?_, hops, hmem, _, hteam, told_ended _ _ _ _ _ _ _ _⟩
  show execQueueReply id s = _
  simp only [execQueueReply, ho, hkind]
  rfl

theorem ends_queueReply_deq {wait inq : Bool} {rec : Nat} {rs : List (List Byte)} (ho : tget s.ops id = some o)
    (hcoach : o.unit.coach = false) (htm : tget s.teams (teamKey o.unit) = some tm) (hfault : o.fault = none)
    (hkind : o.kind = .deq q wait pa x rec act inq (some (rs, st))) :
    Ends (.queueReply id) s fun t => tget t.ops id = none ∧ t.mem = s.mem ∧ t.l2 = s.l2 ∧
      ∃ tm', tget t.teams (teamKey o.unit) = some tm' ∧ Told tm tm' o.flag x pa rs.length st act := by
  have hland := landRecords_besideRecords s o q rec rs
  have hops : (landRecords s o q rec rs).ops = s.ops := (congrArg State.ops hland :)
  have hteams : (landRecords s o q rec rs).teams = s.teams := (congrArg State.teams hland :)
  obtain ⟨⟨hmem, -, -, -, -, hl2⟩, hgone, hteam⟩ := endOp_modUnit (s := landRecords s o q rec rs) (id := id) (by rw [hops, ho]) hcoach
    (by rw [hteams, htm]) hfault (tellRecords o.flag x pa rs.length st act)
  refine ⟨_, ?_, hgone, hmem.trans (congrArg State.mem hland :), hl2.trans (congrArg State.l2 hland :), _, hteam,
    told_ended _ _ _ _ _ _ _ _⟩
  show execQueueReply id s = _
  simp only [execQueueReply, ho, hkind]
  rfl

/-! ### Coordinates (R172) -/

/-- What lane number j of a GRAB's lanes takes of the coordinates given, all ones beyond them. -/
def grabbed (cs : List (Nat × Nat × Nat)) (f : Nat × Nat × Nat → Nat) (j : Nat) : Word :=
  match cs[j]? with
  | some c => BitVec.ofNat 32 (f c)
  | none => -1

/-- Things paired with their places, by place. -/
theorem map_zip_range {α : Type} {ls : List Nat} (h : ls.Nodup) (g : Nat → α) :
    ((ls.zip (List.range ls.length)).map fun p => (p.1, g p.2)) = ls.map fun k => (k, g (ls.idxOf k)) := by
  refine List.ext_getElem (by simp) fun j hj _ => ?_
  have hlt : j < ls.length := by simpa using hj
  simp only [List.getElem_map, List.getElem_zip, List.getElem_range, h.idxOf_getElem j hlt]

/-- The coordinates of a GRAB, in three registers of a team. -/
def putCoords (dst : Nat) (act : Lanes) (cs : List (Nat × Nat × Nat)) (t : Team) : Team :=
  let ls := lanesOf act 1024
  let words (f : Nat × Nat × Nat → Nat) : List (Nat × Word) := ls.map fun k => (k, grabbed cs f (ls.idxOf k))
  ((t.putV dst (words fun c => c.1)).putV (dst + 1) (words fun c => c.2.1)).putV (dst + 2) (words fun c => c.2.2)

theorem inFlight_putV (t : Team) (r : Nat) (xs : List (Nat × Word)) (c q : Nat) : (t.putV r xs).inFlight c q = t.inFlight c q :=
  inFlight_touch t 0 r _ c q

/-- Each coordinate reaches its register, of each lane its own. -/
theorem laneAt_putCoords (t : Team) (dst : Nat) (act : Lanes) (cs : List (Nat × Nat × Nat)) {k : Nat} (hk : k < 1024) :
    let ls := lanesOf act 1024
    let lands (r : Nat) (f : Nat × Nat × Nat → Nat) : Prop := (putCoords dst act cs t).laneAt r k =
      landedAt (t.inFlight 0 r) ls k (grabbed cs f (ls.idxOf k)) (t.laneAt r k)
    lands dst (fun c => c.1) ∧ lands (dst + 1) (fun c => c.2.1) ∧ lands (dst + 2) (fun c => c.2.2) := by
  intro ls lands
  have hls : ∀ i ∈ ls, i < 1024 := fun i => lanesOf_lt
  have hput := fun (t : Team) (r : Nat) (f : Nat × Nat × Nat → Nat) (q : Nat) =>
    laneAt_putV t r ls (fun i => grabbed cs f (ls.idxOf i)) hls q k hk
  refine ⟨?_, ?_, ?_⟩ <;> simp only [lands, putCoords]
  · rw [hput, if_neg (by omega), hput, if_neg (by omega), hput, if_pos rfl]
  · rw [hput, if_neg (by omega), hput, if_pos rfl, hput, if_neg (by omega), inFlight_putV]
  · rw [hput, if_pos rfl, hput, if_neg (by omega), hput, if_neg (by omega), inFlight_putV, inFlight_putV]

/-- The results of a GRAB in a team, which counts no flag. -/
def tellIndices (dst x st : Nat) (act : Lanes) (cs : List (Nat × Nat × Nat)) (t : Team) : Team :=
  ((putCoords dst act cs t).putS x (BitVec.ofNat 64 cs.length)).putS (x + 1) (BitVec.ofNat 64 st)

theorem exec_queueReply_grab {inq : Bool} {dst : Nat} {cs : List (Nat × Nat × Nat)} (ho : tget s.ops id = some o)
    (hkind : o.kind = .grab q x dst act inq (some (cs, st))) :
    exec (.queueReply id) s = .next (endOp (s.modUnit o.unit (tellIndices dst x st act cs)) id) := by
  have hwords : ∀ f : Nat × Nat × Nat → Nat, _ := fun f =>
    map_zip_range ((pairwise_lt_lanesOf act 1024).imp Nat.ne_of_lt) (grabbed cs f)
  show execQueueReply id s = _
  simp only [execQueueReply, ho, hkind]
  unfold tellIndices putCoords
  simp only [← hwords]
  rfl

theorem ends_queueReply_grab {inq : Bool} {dst : Nat} {cs : List (Nat × Nat × Nat)} (ho : tget s.ops id = some o)
    (hcoach : o.unit.coach = false) (htm : tget s.teams (teamKey o.unit) = some tm) (hfault : o.fault = none)
    (hkind : o.kind = .grab q x dst act inq (some (cs, st))) :
    let ls := lanesOf act 1024
    let wrote (tm' : Team) (r : Nat) (f : Nat × Nat × Nat → Nat) : Prop := ∀ k, k < 1024 →
      tm'.laneAt r k = landedAt (tm.inFlight 0 r) ls k (grabbed cs f (ls.idxOf k)) (tm.laneAt r k)
    Ends (.queueReply id) s fun t => tget t.ops id = none ∧ SameMemory s t ∧ ∃ tm', tget t.teams (teamKey o.unit) = some tm' ∧
      wrote tm' dst (fun c => c.1) ∧ wrote tm' (dst + 1) (fun c => c.2.1) ∧ wrote tm' (dst + 2) (fun c => c.2.2) ∧
      wget tm'.sregs x = BitVec.ofNat 64 cs.length ∧ wget tm'.sregs (x + 1) = BitVec.ofNat 64 st := by
  intro ls wrote
  obtain ⟨hmem, hops, hteam⟩ := endOp_modUnit ho hcoach htm hfault (tellIndices dst x st act cs)
  refine ⟨_, exec_queueReply_grab ho hkind, hops, hmem, _, hteam, ?_⟩
  obtain ⟨hsregs, -, hvregs, hunknown⟩ := ended_keeps (tellIndices dst x st act cs tm) id o.flag
  have hlane : ∀ r k, k < 1024 → ((tellIndices dst x st act cs tm).ended id o.flag).laneAt r k = (putCoords dst act cs tm).laneAt r k :=
    fun r k hk => by
      rw [Team.laneAt, hvregs, hunknown, ← Team.laneAt, tellIndices, laneAt_putS _ _ _ _ _ hk, laneAt_putS _ _ _ _ _ hk]
  have hcoords := fun k (hk : k < 1024) => laneAt_putCoords tm dst act cs hk
  rw [hsregs]
  refine ⟨fun k hk => ?_, fun k hk => ?_, fun k hk => ?_, ?_, wget_tset_self _ _ _⟩
  · obtain ⟨hx, -, -⟩ := hcoords k hk
    exact (hlane _ k hk).trans hx
  · obtain ⟨-, hy, -⟩ := hcoords k hk
    exact (hlane _ k hk).trans hy
  · obtain ⟨-, -, hz⟩ := hcoords k hk
    exact (hlane _ k hk).trans hz
  · show wget (tset (tset _ x _) (x + 1) _) x = _
    rw [wget_tset, if_neg (by omega), wget_tset_self]

end

/-! ## A write to a resident line (R367) -/

theorem settleRed_of_empty {s : State} {slice : Nat} (h : redAt s slice = []) (line a n : Nat) : settleRed s slice line a n = s := by
  simp only [settleRed, h, List.isEmpty_nil, if_true]

theorem homeFor_of_resident {s : State} {q : Loc} {own k : Nat} {l : Line} (h : Resident s q own k l) (n : Nat) :
    homeFor s q own n = (s, k) := by
  obtain ⟨hway, hline, hown, hred⟩ := h
  have hhome : homeLine s (homeSlice s q) (q.addr / 128) own (ctxpOf q) = (s, k) := by simp only [homeLine, hway, hline, hown, if_true]
  rw [homeFor, hhome, settleRed_of_empty hred]

theorem linePieces_of_one_line {a n : Nat} (hn : 0 < n) (h : a % 128 + n ≤ 128) : linePieces a (n / 128 + 2) n = [(a, n)] := by
  have hmin : min n (128 - a % 128) = n := by omega
  rw [linePieces, if_neg (by omega)]
  simp only [hmin, Nat.sub_self]
  rw [linePieces, if_pos rfl]

theorem homeWrite_of_resident {s : State} {q : Loc} {own k : Nat} {l : Line} (h : Resident s q own k l) {bs : List Byte}
    (hn : 0 < bs.length) (hline : q.addr % 128 + bs.length ≤ 128) :
    homeWrite s q own bs = { s with l2 := tset s.l2 k (l.with q bs) } := by
  have hl : lineAt s k = l := by
    obtain ⟨-, hk, -, -⟩ := h
    rw [lineAt, hk, Option.getD_some]
  rw [homeWrite, linePieces_of_one_line hn hline]
  simp only [List.foldl_cons, List.foldl_nil, homeFor_of_resident h, modLine, hl]
  rfl

/-! ## Refills and producers (R168, R263) -/

theorem fld_one (x i : Nat) : fld x i 1 = if x.testBit i then 1 else 0 := by
  have hlt := fld_lt x i 1
  have hbit := fld_one_eq_testBit x i
  cases hx : x.testBit i with
  | false =>
    have := ne_of_beq_false (hbit.trans hx)
    exact Nat.lt_one_iff.1 (by omega)
  | true => exact eq_of_beq (hbit.trans hx)

theorem startRefill_keeps (s : State) (q : Loc) (d : Nat) : (startRefill s q d).mem = s.mem ∧ (startRefill s q d).l2 = s.l2 ∧
    (startRefill s q d).teams = s.teams ∧ (startRefill s q d).prodMsgs = s.prodMsgs := by
  unfold startRefill
  split <;> exact ⟨rfl, rfl, rfl, rfl⟩

theorem ends_queueRefillMove_done {s : State} {j d : Nat} {q : Loc} (hj : tget s.refills j = some q) (hd : readDesc s q = (s, d))
    (h : qScnt d = 0 ∨ qCap d ≤ qRcnt d) :
    Ends (.queueRefillMove j) s fun t => tget t.refills j = none ∧ SameMemory s t ∧ t.teams = s.teams ∧ t.ops = s.ops := by
  refine ⟨{ s with refills := tdel s.refills j }, ?_, by rw [tget_tdel, if_pos rfl], ⟨rfl, rfl, rfl, rfl, rfl, rfl⟩, rfl, rfl⟩
  show execQueueRefillMove j s = _
  simp only [execQueueRefillMove, hj, hd]
  rw [if_pos h]

/-- A queue whose oldest spilled record has moved to the ring's tail, d' its descriptor then. -/
def refilled (s : State) (q : Loc) (d d' : Nat) : State :=
  let x := readCtx s q.part q.ctx (spillAddr d (qShead d)) (qRec d)
  writeDesc (writeRing x.1 q d (qRhead d + qRcnt d) x.2) q d'

theorem units_refilled (s : State) (q : Loc) (d d' : Nat) : (refilled s q d d').ops = s.ops ∧ (refilled s q d d').teams = s.teams ∧
    (refilled s q d d').spad = s.spad := by
  apply units_of_besideQueues
  rw [refilled, writeDesc_besideQueues]
  exact besideQueues_of_besideHomes ((writeRing_besideHomes _ _ _ _ _).trans (readCtx_besideHomes s _ _ _ _))

theorem ends_queueRefillMove_moves {s : State} {j d : Nat} {q : Loc} (hj : tget s.refills j = some q) (hd : readDesc s q = (s, d))
    (hspill : qScnt d ≠ 0) (hring : qRcnt d < qCap d) :
    let d' := setFld (setFld (setFld d 248 17 (qRcnt d + 1)) 272 32 ((qShead d + 1) % qSpcap d)) 304 32 (qScnt d - 1)
    Ends (.queueRefillMove j) s fun t => t.mem = (refilled s q d d').mem ∧ t.l2 = (refilled s q d d').l2 ∧ t.teams = s.teams ∧
      t.ops = s.ops := by
  intro d'
  obtain ⟨hops, hteams, -⟩ := units_refilled s q d d'
  have hexec : exec (.queueRefillMove j) s = .next (if qScnt d' = 0 ∨ qCap d' ≤ qRcnt d' then
      { refilled s q d d' with refills := tdel (refilled s q d d').refills j } else refilled s q d d') := by
    show execQueueRefillMove j s = _
    simp only [execQueueRefillMove, hj, hd]
    rw [if_neg (by omega)]
    rfl
  generalize refilled s q d d' = u at hops hteams hexec
  refine ⟨_, hexec, ?_⟩
  split <;> exact ⟨rfl, rfl, hteams, hops⟩

/-- A queue's descriptor with one producer less: closed when it was the last. -/
def producerGone (d : Nat) : Nat :=
  setFld (setFld d 207 9 (fld d 207 9 - 1)) 204 1 (if fld d 207 9 = 1 then 1 else if d.testBit 204 then 1 else 0)

/-- The descriptor that `execProdsDecrement` writes, of a queue that is no manger and has a producer. -/
theorem producerGone_eq {d d1 : Nat} (hd1 : d1 = setFld d 207 9 (qProds d - 1)) (hkind : qKind d ≠ 1) (hprods : 0 < qProds d) :
    (if qProds d1 = 0 then (if qKind d1 = 1 then setFld (setFld d1 204 1 1) 400 40 (qTotal d1) else setFld d1 204 1 1) else d1) =
      producerGone d := by
  have hp : qProds d1 = qProds d - 1 := hd1 ▸ fld_setFld_self d 207 (Nat.lt_of_le_of_lt (Nat.sub_le _ _) (fld_lt d 207 9))
  have hk : qKind d1 ≠ 1 := by
    rw [hd1, qKind, fld_setFld_of_disjoint d _ (by omega)]
    exact hkind
  have hclosed : fld d1 204 1 = if d.testBit 204 then 1 else 0 := by rw [hd1, fld_setFld_of_disjoint d _ (by omega), fld_one]
  have hgone : producerGone d = setFld d1 204 1 (if qProds d = 1 then 1 else fld d1 204 1) := by rw [hclosed, hd1]; rfl
  rw [hp, if_neg hk, hgone]
  by_cases hlast : qProds d = 1
  · rw [if_pos (by omega), if_pos hlast]
  · rw [if_neg (by omega), if_neg hlast, setFld_fld]

theorem writeDesc_of_resident {s : State} {q : Loc} {k : Nat} {l : Line} (h : Resident s q (s.owner q.part) k l) (haddr : q.addr % 64 = 0)
    (d : Nat) : (writeDesc s q d).l2 = tset s.l2 k (l.with q (natLe 64 d)) ∧ (writeDesc s q d).mem = s.mem ∧
      (writeDesc s q d).teams = s.teams ∧ (writeDesc s q d).prodMsgs = s.prodMsgs := by
  rw [writeDesc, qOwner, homeWrite_of_resident h (by rw [length_natLe]; omega) (by rw [length_natLe]; omega)]
  exact ⟨rfl, rfl, rfl, rfl⟩

theorem ends_prodsDecrement {s : State} {j k d : Nat} {q : Loc} {l : Line} (hj : tget s.prodMsgs j = some q)
    (hd : readDesc { s with prodMsgs := tdel s.prodMsgs j } q = ({ s with prodMsgs := tdel s.prodMsgs j }, d))
    (hres : Resident s q (s.owner q.part) k l) (haddr : q.addr % 64 = 0) (hkind : qKind d ≠ 1) (hprods : 0 < qProds d) :
    Ends (.prodsDecrement j) s fun t => tget t.prodMsgs j = none ∧ t.mem = s.mem ∧ t.teams = s.teams ∧
      t.l2 = tset s.l2 k (l.with q (natLe 64 (producerGone d))) := by
  generalize hu : ({ s with prodMsgs := tdel s.prodMsgs j } : State) = u at hd
  have hresu : Resident u q (u.owner q.part) k l := by rw [← hu]; exact hres
  obtain ⟨hl2, hmem, hteams, hmsgs⟩ := writeDesc_of_resident hresu haddr (producerGone d)
  obtain ⟨hmem', hl2', hteams', hmsgs'⟩ := startRefill_keeps (writeDesc u q (producerGone d)) q (producerGone d)
  refine ⟨startRefill (writeDesc u q (producerGone d)) q (producerGone d), ?_, ?_, ?_, ?_, ?_⟩
  · show execProdsDecrement j s = _
    simp only [execProdsDecrement, hj, hu, queueStep, hd, producerGone_eq rfl hkind hprods]
  · rw [hmsgs', hmsgs, ← hu, tget_tdel, if_pos rfl]
  · rw [hmem', hmem, ← hu]
  · rw [hteams', hteams, ← hu]
  · rw [hl2', hl2, ← hu]

end Sys2Proof.Machine
end

section
open Sys2Proof Sys2Proof.Machine

/-- Settles O27: an answer is the second part of one step on the descriptor, which accepts `queueRoom` records, takes those at the ring's head,
or gives indices; a reply lands it in the team; refills and producers change the descriptor's counts. -/
theorem queuesAnswerRefillAndFinish : Obligations.QueuesAnswerRefillAndFinish := by
  unfold Obligations.QueuesAnswerRefillAndFinish
  refine ⟨fun s id o q d ho hready hd => ?_, fun s id o tm ho hcoach htm hfault => ?_, fun s j k q l d => ⟨fun hj hdesc => ?_, ?_⟩⟩
  · refine ⟨fun all pa x recs act hkind => ?_, fun wait pa x rec act inq hkind hfirst => ?_, fun x dst act inq hkind => ?_⟩
    · -- ENQ
      intro room answer
      have hanswer : ∀ n st, (enqueue s q all (recs.map Prod.snd)).2 = (n, st) → answer n st := fun n st h => by
        obtain ⟨t, hexec, hothers, hop⟩ := ends_enqAtHome ho hready hkind
        exact ⟨t, hexec, hothers, _, hop, rfl, rfl, by rw [h]⟩
      have hstep := enqueue_answer s q all (recs.map Prod.snd)
      rw [hd, List.length_map] at hstep
      refine ⟨fun hclosed => hanswer _ _ ?_, fun hopen hall hroom => hanswer _ _ ?_, fun hopen hfits => hanswer _ _ ?_⟩
      · rw [hstep, if_pos hclosed]
      · rw [hstep, if_neg (by simp [hopen]), if_pos (by rw [hall]; exact decide_eq_true hroom)]
      · have hgo : ¬(all && decide (queueRoom d < recs.length)) = true := by
          intro h
          obtain ⟨hall, hroom⟩ := Bool.and_eq_true_iff.1 h
          rcases hfits with hfits | hfits
          · rw [hall] at hfits
            cases hfits
          · exact Nat.not_lt.2 hfits (of_decide_eq_true hroom)
        rw [hstep, if_neg (by simp [hopen]), if_neg hgo]
        rfl
    · -- DEQ
      intro b k st hmanger
      have hexec := exec_deqAtHome ho hready hkind hfirst
      subst hd
      have hstep : (dequeue s q b.1).2 = _ := dequeue_answer s q b.1 hmanger
      have hst : deqStatus b.2 (dequeue s q b.1).2.2 = st := by rw [hstep]; rfl
      have hlen := length_takeRecords q (readDesc s q).1 (readDesc s q).2 k
      refine ⟨fun hgo => ?_, fun hk hzero hwait => ?_⟩
      · obtain ⟨hothers, hop⟩ := serveDeq_answered ho hkind
          (hgo.imp (fun hk => List.ne_nil_of_length_pos (Nat.lt_of_lt_of_eq hk hlen.symm)) (Or.imp_right fun h => hst ▸ h))
        exact ⟨_, hexec, hothers, _, hop, rfl, rfl, by rw [hst, dequeue_records], hlen⟩
      · obtain ⟨hothers, a, hop⟩ := serveDeq_held ho hkind (arrive_of_queueReady hready)
          (List.eq_nil_of_length_eq_zero (hlen.trans hk)) hwait (hst.trans hzero)
        exact ⟨_, hexec, hothers, _, hop, rfl, rfl, rfl, Nat.succ_ne_zero a⟩
    · -- GRAB
      intro b k
      obtain ⟨t, hexec, hothers, hop⟩ := ends_grabAtHome ho hready hkind
      refine ⟨t, hexec, hothers, _, hop, rfl, rfl, ?_⟩
      rw [hd, grabIndices_answer]
      rfl
  · refine ⟨fun q all pa x recs act n st hkind => ends_queueReply_enq ho hcoach htm hfault hkind,
      fun q wait pa x rec act inq rs st hkind => ends_queueReply_deq ho hcoach htm hfault hkind,
      fun q x dst act inq cs st hkind _ => ends_queueReply_grab ho hcoach htm hfault hkind,
      fun q wait pa x rec act inq hkind harrive hfirst => ?_⟩
    -- the oldest held DEQ
    intro n hsome
    have hlen := length_takeRecords q (readDesc s q).1 (readDesc s q).2 (min n (qRcnt (readDesc s q).2))
    obtain ⟨-, hop⟩ := serveDeq_answered ho hkind (.inl (List.ne_nil_of_length_pos (Nat.lt_of_lt_of_eq hsome hlen.symm)))
    exact ⟨_, exec_deqWaitServed ho hkind harrive hfirst, _, _, hop, rfl⟩
  · exact ⟨ends_queueRefillMove_done hj hdesc, ends_queueRefillMove_moves hj hdesc⟩
  · exact fun hj hdesc hres haddr hkind hprods => ends_prodsDecrement hj hdesc hres haddr hkind hprods
end

section
namespace Sys2Proof.Machine

/-! ## A fence at BLOCK scope (R182) -/

/-- At BLOCK scope a release sends nothing: with no access of the team in flight and every write of its own performed, it is done. -/
theorem releaseStep_block {s : State} (haccess : accessLeft s 0 = false)
    (hwrites : ∀ r ∈ s.reqs, r.2.unit = s.cur → writeKind r.2.kind = true → unperformed r.2 = false) : releaseStep s 1 0 = (s, true) := by
  rw [releaseStep, if_neg (by decide), if_pos rfl, haccess, Bool.false_or, List.any_eq_false.2, Bool.not_false]
  intro r hr hreduce
  simp only [Bool.and_eq_true, beq_iff_eq] at hreduce
  obtain ⟨⟨⟨⟨hunit, hkind⟩, hleft⟩, -⟩, -⟩ := hreduce
  rw [hwrites r hr hunit hkind] at hleft
  cases hleft

/-- FENCE of both kinds at BLOCK scope, its release done: the acquire changes nothing, but it waits for the team's earlier reads. -/
theorem exec_fence_both_block {s : State} (hrelease : releaseStep s 1 0 = (s, true)) :
    exec (.fence 1 3) s = .next (if readsLeft s then stall s else s) := by
  change execFence 1 3 s = _
  rw [execFence, if_neg (by decide), decide_eq_true (by decide), afterRelease, if_pos rfl, hrelease]
  rfl

/-! ## A load numbered 0

`accessLeft s but` leaves out the operation numbered `but`, and a release that excepts none gives 0; `readsLeft` counts every operation. The
model's operations start at 1 (log 4), but a state of any form may hold one at 0. -/

/-- A team's load with no flag, in flight. -/
def loadInFlight : Op := ⟨⟨0, 0, 0, false⟩, 0, 0, 15, 0, 0, 0, 0, .load 0 false [] 0, none, []⟩

/-- One team in front of its packet, with that load at number 0. -/
def loadAtZero : State := { State.reset.withFetchWord 32 0 with ops := [(0, loadInFlight)] }

theorem accessLeft_loadAtZero : accessLeft loadAtZero 0 = false := by decide +kernel
theorem readsLeft_loadAtZero : readsLeft loadAtZero = true := by decide +kernel
theorem reqs_loadAtZero : loadAtZero.reqs = [] := by decide +kernel
theorem fate_loadAtZero : loadAtZero.fate = .completed := by decide +kernel

theorem stalls_fence_loadAtZero : Stalls (.fence 1 3) loadAtZero := by
  have hrelease : releaseStep loadAtZero 1 0 = (loadAtZero, true) := releaseStep_block accessLeft_loadAtZero (by simp [reqs_loadAtZero])
  rw [Stalls, exec_fence_both_block hrelease, if_pos readsLeft_loadAtZero]
  rfl

end Sys2Proof.Machine
open Sys2Proof Sys2Proof.Machine

/-- Refutes O28: clause (1) has a fence at BLOCK scope fall through once `accessLeft s 0` and the writes are clear, also one that is an acquire
too, and requires of no state that its operations start at 1; in `loadAtZero` the team's load has number 0, which `accessLeft s 0` leaves out,
and the acquire waits for it. -/
theorem not_fencesBarriersAndArrivalObjects : ¬ Obligations.FencesBarriersAndArrivalObjects := by
  unfold Obligations.FencesBarriersAndArrivalObjects
  rintro ⟨hfences, -⟩
  obtain ⟨-, -, hfalls, -⟩ := hfences loadAtZero 1 3
  have hgo : FallsThrough (.fence 1 3) loadAtZero := hfalls (by decide) accessLeft_loadAtZero (by simp [reqs_loadAtZero])
  have hsame : loadAtZero = { loadAtZero with fate := .stalled } := Host.Outcome.next.inj (hgo.symm.trans stalls_fence_loadAtZero)
  have hfate : Fate.completed = .stalled := fate_loadAtZero.symm.trans (congrArg State.fate hsame)
  cases hfate
end
